-- ==== Sys2Proof/Word.lean ====
section
/-! DEFINITION. The word types of the PNV-4812 and their plainest arithmetic (R6, R17, R34). -/

namespace Sys2Proof

/-- A byte of memory (R6). -/
abbrev Byte := BitVec 8
/-- A 32-bit lane slice (R9, R34). -/
abbrev W32 := BitVec 32
/-- A scalar, address or special register (R17). -/
abbrev W64 := BitVec 64
/-- One bit per lane: split masks, guards, predicates (R17, R28). -/
abbrev LaneMask := BitVec 128
/-- A vector register: 128 lane slices, lane 0 first (R17). -/
abbrev Vec := List W32

/-- The lanes of a group (R5). -/
abbrev lanes : Nat := 128

namespace LaneMask
/-- Every lane. -/
def all : LaneMask := BitVec.allOnes 128
/-- Lane `n` is in the mask. -/
def has (m : LaneMask) (n : Nat) : Bool := m.getLsbD n
/-- The mask of the lanes that satisfy `p`, by structural recursion on the lane count. -/
def buildTo (p : Nat → Bool) : Nat → LaneMask
  | 0 => 0
  | n + 1 => buildTo p n ||| (if p n then BitVec.twoPow 128 n else 0)
/-- The mask of the lanes that satisfy `p`. -/
def build (p : Nat → Bool) : LaneMask := buildTo p lanes
/-- The lanes of a mask, in ascending order. -/
def toList (m : LaneMask) : List Nat := (List.range lanes).filter m.has
/-- The lowest lane of a mask. -/
def lowest (m : LaneMask) : Option Nat := m.toList.head?
/-- How many lanes a mask holds. -/
def count (m : LaneMask) : Nat := m.toList.length
end LaneMask

namespace Vec
/-- A register of zeros (R235). -/
def zero : Vec := List.replicate lanes 0
/-- Lane `n` of a register. -/
def lane (v : Vec) (n : Nat) : W32 := v.getD n 0
/-- The register whose lane `n` is `f n`. -/
def build (f : Nat → W32) : Vec := (List.range lanes).map f
/-- Write the lanes of `m` from `w`; the other lanes keep their bits (R28). -/
def merge (m : LaneMask) (old w : Vec) : Vec := build fun n => if m.has n then w.lane n else old.lane n
end Vec

/-- Bits [hi:lo] of a natural number. -/
def bitsNat (x hi lo : Nat) : Nat := (x >>> lo) % 2 ^ (hi + 1 - lo)

/-- One bit of a natural number. -/
def bitNat (x i : Nat) : Bool := (x >>> i) % 2 == 1

/-- The signed reading of the low `w` bits of `x`. -/
def toSigned (w x : Nat) : Int :=
  let y := x % 2 ^ w
  if y < 2 ^ (w - 1) then (y : Int) else (y : Int) - (2 ^ w : Nat)

/-- The low `w` bits of an integer, two's complement. -/
def wrapInt (w : Nat) (x : Int) : Nat := (x % ((2 ^ w : Nat) : Int)).toNat

/-- An integer between two bounds. -/
def clampInt (lo hi x : Int) : Int := if x < lo then lo else if hi < x then hi else x

/-- Division rounded up. -/
def ceilDiv (a b : Nat) : Nat := (a + b - 1) / b

/-- Replace entry `i` of a list. -/
def setAt {α : Type} (l : List α) (i : Nat) (x : α) : List α := l.set i x

/-- Change entry `i` of a list. -/
def modAt {α : Type} (l : List α) (i : Nat) (f : α → α) : List α := l.modify i f

end Sys2Proof
end

