-- ==== Sys2Proof/Syntax.lean ====
section
/-! DEFINITION. The steps of the PNV-4812, one constructor for each row of the opcode table: the slot ops of a
bundle with every bit of their slot fields (R10, R88 to R90), and the device's own steps around them (spec/95). -/

namespace Sys2Proof

/-- The nine slots of a control word (R9). -/
inductive Slot where
  | t | m | a | v1 | v0 | s | c | f | x
  deriving DecidableEq, Repr

/-- The header every slot op carries after its opcode (R10). -/
structure Hdr where
  /-- 1: the guard is the complement of the predicate. -/
  gpol : Bool
  /-- Guard predicate k0 to k15. -/
  gpred : BitVec 4
  /-- Squashable (R26). -/
  sq : Bool
  deriving DecidableEq, Repr

/-- C-slot operand map (R88). -/
structure CFields where
  hdr : Hdr
  aux : BitVec 8
  tsel : BitVec 2
  func : BitVec 4
  sb : BitVec 6
  sa : BitVec 6
  deriving DecidableEq, Repr

/-- S-slot operand map (R88). -/
structure SFields where
  hdr : Hdr
  aux : BitVec 8
  width : BitVec 2
  bsel : BitVec 2
  func : BitVec 4
  sb : BitVec 6
  sa : BitVec 6
  sd : BitVec 6
  deriving DecidableEq, Repr

/-- V-slot operand map, with the unit that holds the op (R88). -/
structure VFields where
  hdr : Hdr
  /-- The op stands in V1 rather than V0. -/
  unit1 : Bool
  rsv : BitVec 7
  func : BitVec 4
  fmt2 : BitVec 5
  bsel : BitVec 2
  sat : Bool
  rm : BitVec 2
  fmt : BitVec 5
  vc : BitVec 6
  vb : BitVec 6
  va : BitVec 6
  vd : BitVec 6
  deriving DecidableEq, Repr

/-- F-slot operand map (R88). -/
structure FFields where
  hdr : Hdr
  rsv : Bool
  fmt : BitVec 5
  va : BitVec 6
  vd : BitVec 6
  deriving DecidableEq, Repr

/-- X-slot operand map of xperm and xpush (R88). -/
structure XsFields where
  hdr : Hdr
  pat : BitVec 8
  va : BitVec 5
  vd : BitVec 5
  deriving DecidableEq, Repr

/-- X-slot operand map of the other forms (R88). -/
structure XFields where
  hdr : Hdr
  aux : BitVec 6
  va : BitVec 6
  vd : BitVec 6
  deriving DecidableEq, Repr

/-- M-slot operand map (R88). -/
structure MFields where
  hdr : Hdr
  vidx : Bool
  ord : BitVec 2
  scope : BitVec 3
  func : BitVec 4
  rot : BitVec 3
  disp : BitVec 12
  offsel : BitVec 2
  sx : Bool
  width : BitVec 3
  idxen : Bool
  index : BitVec 6
  base : BitVec 6
  data : BitVec 6
  deriving DecidableEq, Repr

/-- A-slot operand map (R89). -/
structure AFields where
  hdr : Hdr
  rsv : BitVec 2
  func : BitVec 4
  ntag : BitVec 2
  ctag2 : BitVec 4
  ctag1 : BitVec 4
  ctag0 : BitVec 4
  otag : BitVec 4
  opc2 : BitVec 6
  opc1 : BitVec 6
  opc0 : BitVec 6
  deriving DecidableEq, Repr

/-- T-slot operand map (R90). -/
structure TFields where
  hdr : Hdr
  rsv : BitVec 4
  qg : BitVec 2
  spn : BitVec 3
  sat : Bool
  incen : Bool
  incr : BitVec 4
  rep : BitVec 4
  bsrc : Bool
  asrc : Bool
  opb : BitVec 6
  opa : BitVec 6
  tnb : BitVec 6
  tna : BitVec 6
  rate : BitVec 2
  rsv16 : Bool
  acc : BitVec 2
  deriving DecidableEq, Repr

/-- Where a unit found or corrected an error, as an error record names it (R383, R389). -/
structure ErrSite where
  unit : Nat
  die : Nat
  /-- 0xFF when none applies. -/
  stove : Nat
  /-- Physical position, 0xFF when none applies. -/
  pos : Nat
  sub : Nat
  subn : Nat
  /-- 0xFFFF when none applies. -/
  lane : Nat
  addr : W64
  deriving DecidableEq, Repr

/-- A translation fault to report (R351): the access that waits on it and what its walk found. -/
structure FaultReq where
  /-- The waiting access. -/
  id : Nat
  va : W64
  world : Nat
  /-- 1 not present, 2 not writable, 3 not executable, 4 malformed. -/
  kind : Nat
  /-- Access class 1 to 9. -/
  acc : Nat
  level : Nat
  deriving DecidableEq, Repr

/-- An admin command (R363). -/
structure AdminCmd where
  func : Nat
  cid : Nat
  p0 : W64
  p1 : W64
  p2 : W64
  deriving DecidableEq, Repr

/-- What the two reruns of an interval reach: each one's %ISSUES and the CRC-32C of what it wrote (R303). -/
structure RerunPair where
  one : Nat × W32
  two : Nat × W32
  deriving DecidableEq, Repr

/-- A line outside the package as it is read: its number, its ciphertext and its metadata (R333, R334). -/
structure LineImage where
  line : Nat
  cipher : List Byte
  md : List Byte
  deriving DecidableEq, Repr

/-- What bring-up meets (R409). -/
structure BootReport where
  /-- Verified copies, 0 to 2, of the identity, calibration, thresholds, power and health blocks (R401). -/
  copies : List Nat
  /-- HBM4 stacks that train, one bit each. -/
  stackMask : BitVec 8
  /-- DDR-5 channels populated and trained. -/
  channels : BitVec 12
  /-- Ports whose links come up. -/
  ports : BitVec 12
  deriving DecidableEq, Repr

/-- A fabric flit (R374). -/
structure Flit where
  type : BitVec 8
  vc : BitVec 8
  src : Nat
  dst : Nat
  tag : BitVec 16
  world : Nat
  op : BitVec 8
  addr : W64
  mask : BitVec 128
  /-- Bytes 32 to 159. -/
  data : List Byte
  /-- Bytes 160 to 239. -/
  ext : List Byte
  deriving DecidableEq, Repr

/-- One step of the part: a slot op of a bundle, or one of the device's own steps. -/
inductive Instr where
  -- slot ops, family by family (R91)
  /-- R98. Unconditional branch that moves the whole split to a literal target. -/
  | br (f : CFields)
  /-- R97. Conditional branch that transfers the split when the condition in FUNC holds for the scalar or predicate operand. -/
  | brc (f : CFields)
  /-- R98. Indirect branch to bits [31:0] of a scalar register. -/
  | bri (f : CFields)
  /-- R101. Divides a split by a predicate, pushes a region record and places the not-taken side in a free split entry or on the deferred stack. -/
  | brd (f : CFields)
  /-- R105. Sends each lane to the target in its lane of a vector register, grouping lanes by target and trapping the bad group. -/
  | brx (f : CFields)
  /-- R99. Writes the return offset into s15 and transfers to a literal target. -/
  | call (f : CFields)
  /-- R99. Writes the return offset into s15 and transfers to the target held in a scalar (TSEL = 01). -/
  | callScalar (f : CFields)
  /-- R99. Transfers the split to bits [31:0] of s15. -/
  | ret (f : CFields)
  /-- R102. Closes the top region of the split, completing it, restoring a deferred side or waiting in JOIN. -/
  | join (f : CFields)
  /-- R104. Leaves n nested regions at once, removing the split's lanes from their owed masks, and transfers to a literal target. -/
  | brk (f : CFields)
  /-- R104. Leaves n nested regions and transfers to a target held in a scalar. -/
  | brkScalar (f : CFields)
  /-- R106. Ends the active lanes, removing them from the split and from every owed mask of the group. -/
  | exit (f : CFields)
  /-- R107. Stops the issuing split with TRAP_INSTR and the code n. -/
  | trap (f : CFields)
  /-- R293. Ends the handler run and applies ACTION to the selected split. -/
  | tret (f : CFields)
  /-- R109. Checks a modulo-scheduled loop body and starts the sequencer run for the trip count. -/
  | seq (f : CFields)
  /-- R113. Starts a sequencer run that stops early when the stop scalar becomes non-zero. -/
  | seqx (f : CFields)
  /-- R114. Reads a switch-table entry and the die's granted level and moves the split to that level's variant. -/
  | swp (f : CFields)
  /-- R115. Requests a checkpoint of the whole group and shadows the named accumulator tiles. -/
  | chk (f : CFields)
  /-- R117. Marks the active lanes arrived at a barrier without waiting. -/
  | barArr (f : CFields)
  /-- R119. Waits on a barrier phase, as decided at issue. -/
  | barWt (f : CFields)
  /-- R119. Arrives at a barrier and waits for the current phase to complete. -/
  | barSyn (f : CFields)
  /-- R120. Waits until up to three named order tags are complete. -/
  | waitT (f : CFields)
  /-- R121. Arms a monitor on a global line and waits for a wake or a timeout. -/
  | wmon (f : CFields)
  /-- R122. Makes the split ineligible in the next cycle and resets its age. -/
  | yld (f : CFields)
  /-- R123. Copies a launch record from global memory into the launch queue it names. -/
  | spawn (f : CFields)
  /-- R108. Raises DEBUG_STOP when the launch's debug enable has bit n set. -/
  | dbg (f : CFields)
  /-- R125. Scalar add modulo 2^n. -/
  | add (f : SFields)
  /-- R125. Scalar subtract modulo 2^n. -/
  | sub (f : SFields)
  /-- R125. Low n bits of a scalar product. -/
  | mul (f : SFields)
  /-- R125. High n bits of the signed or unsigned 2n-bit scalar product. -/
  | mulh (f : SFields)
  /-- R125. Scalar bitwise AND. -/
  | and (f : SFields)
  /-- R125. Scalar bitwise OR. -/
  | or (f : SFields)
  /-- R125. Scalar bitwise XOR. -/
  | xor (f : SFields)
  /-- R125. Scalar shift left by b mod n. -/
  | shl (f : SFields)
  /-- R125. Scalar logical shift right by b mod n. -/
  | shr (f : SFields)
  /-- R125. Scalar arithmetic shift right by b mod n. -/
  | sar (f : SFields)
  /-- R125. Scalar rotate right by b mod n. -/
  | rot (f : SFields)
  /-- R125. Signed scalar minimum. -/
  | min (f : SFields)
  /-- R125. Signed scalar maximum. -/
  | max (f : SFields)
  /-- R125. Unsigned scalar minimum. -/
  | minn (f : SFields)
  /-- R125. Unsigned scalar maximum. -/
  | maxn (f : SFields)
  /-- R126. Compares two scalars and writes 1 or 0 to a scalar, or the result bit to the active lanes of a predicate. -/
  | cmp (f : SFields)
  /-- R127. Writes a or b according to a scalar or predicate condition. -/
  | sel (f : SFields)
  /-- R128. Copies one scalar register to another. -/
  | mov (f : SFields)
  /-- R128. Writes the routed literal to a scalar register. -/
  | li (f : SFields)
  /-- R128. Writes a + (b << sh). -/
  | lea (f : SFields)
  /-- R129. Counts leading zero bits. -/
  | clz (f : SFields)
  /-- R129. Counts trailing zero bits. -/
  | ctz (f : SFields)
  /-- R129. Counts one bits of a scalar. -/
  | popc (f : SFields)
  /-- R129. Reverses the n bits of a scalar. -/
  | brev (f : SFields)
  /-- R130. Extracts a bit field of a scalar, zero-extended. -/
  | bfx (f : SFields)
  /-- R130. Inserts a bit field into the old destination scalar. -/
  | bfi (f : SFields)
  /-- R131. Sign-extends a scalar from width w. -/
  | sext (f : SFields)
  /-- R131. Zero-extends a scalar from width w. -/
  | zext (f : SFields)
  /-- R132. Reads a special register into a scalar, waiting for earlier flags when it reads %FFLAGS or %ISAT. -/
  | csrRd (f : SFields)
  /-- R132. Writes a special register, effective for bundles issued from the next cycle. -/
  | csrWr (f : SFields)
  /-- R132. ORs a value into a special register. -/
  | csrSet (f : SFields)
  /-- R132. Clears the bits of a special register that are set in the value. -/
  | csrClr (f : SFields)
  /-- R134. Sets a predicate from two scalars or a literal in the active lanes. -/
  | kset (f : SFields)
  /-- R134. Predicate AND in the active lanes. -/
  | kand (f : SFields)
  /-- R134. Predicate OR in the active lanes. -/
  | kor (f : SFields)
  /-- R134. Predicate XOR in the active lanes. -/
  | kxor (f : SFields)
  /-- R134. Predicate complement in the active lanes. -/
  | knot (f : SFields)
  /-- R134. Counts the active lanes set in a predicate. -/
  | kpop (f : SFields)
  /-- R134. Gives the lowest active lane set in a predicate, or 128 when there is none. -/
  | kfirst (f : SFields)
  /-- R138. Floating-point add per element. -/
  | vadd (f : VFields)
  /-- R138. Floating-point subtract per element. -/
  | vsub (f : VFields)
  /-- R138. Floating-point multiply per element. -/
  | vmul (f : VFields)
  /-- R138. Fused multiply-add a × b + c, rounded once. -/
  | vfma (f : VFields)
  /-- R138. Fused multiply-subtract a × b − c, rounded once. -/
  | vfms (f : VFields)
  /-- R138. Negated fused multiply-add −(a × b) + c, rounded once. -/
  | vfnma (f : VFields)
  /-- R138. Floating-point minimum with NaN and signed-zero rules. -/
  | vmin (f : VFields)
  /-- R138. Floating-point maximum with NaN and signed-zero rules. -/
  | vmax (f : VFields)
  /-- R138. Clears the sign bit of each element. -/
  | vabs (f : VFields)
  /-- R138. Inverts the sign bit of each element. -/
  | vneg (f : VFields)
  /-- R138. Magnitude of a with the sign bit of b. -/
  | vcpys (f : VFields)
  /-- R139. Floating-point compare that writes a predicate in the active lanes. -/
  | vcmp (f : VFields)
  /-- R140. Writes the one-hot class of each floating-point element. -/
  | vclass (f : VFields)
  /-- R141. Converts elements between formats of one width class. -/
  | vcvt (f : VFields)
  /-- R138. Rounds each element to an integral value. -/
  | vrnd (f : VFields)
  /-- R138. Multiplies each element by 2^n, rounded once. -/
  | vldexp (f : VFields)
  /-- R142. Accumulates a two-pair F16 or BF16 dot product into F32 with one rounding. -/
  | vdot2 (f : VFields)
  /-- R142. Accumulates a four-pair 8-bit integer dot product into I32. -/
  | vdot4 (f : VFields)
  /-- R142. Accumulates an eight-pair 4-bit integer dot product into I32. -/
  | vdot8 (f : VFields)
  /-- R143. Integer add per element, wrapping. -/
  | viadd (f : VFields)
  /-- R143. Integer subtract per element, wrapping. -/
  | visub (f : VFields)
  /-- R143. Low bits of the integer product, or the product clamped under .sat. -/
  | vimul (f : VFields)
  /-- R143. High bits of the integer product. -/
  | vimulh (f : VFields)
  /-- R143. Integer multiply-add, wrapping or clamped. -/
  | vimad (f : VFields)
  /-- R143. Exact absolute difference as an unsigned value. -/
  | vabsd (f : VFields)
  /-- R143. Integer minimum per element. -/
  | vimin (f : VFields)
  /-- R143. Integer maximum per element. -/
  | vimax (f : VFields)
  /-- R144. Integer compare that writes a predicate in the active lanes. -/
  | vicmp (f : VFields)
  /-- R143. Saturating integer add per element. -/
  | vsadd (f : VFields)
  /-- R143. Saturating integer subtract per element. -/
  | vssub (f : VFields)
  /-- R145. Vector shift left per element. -/
  | vshl (f : VFields)
  /-- R145. Vector logical shift right per element. -/
  | vshr (f : VFields)
  /-- R145. Vector arithmetic shift right per element. -/
  | vsar (f : VFields)
  /-- R146. Bitwise AND per lane. -/
  | vand (f : VFields)
  /-- R146. Bitwise OR per lane. -/
  | vor (f : VFields)
  /-- R146. Bitwise XOR per lane. -/
  | vxor (f : VFields)
  /-- R146. Bitwise complement per lane. -/
  | vnot (f : VFields)
  /-- R147. Counts the one bits of each element. -/
  | vpopc (f : VFields)
  /-- R147. Counts the leading zeros of each element. -/
  | vclz (f : VFields)
  /-- R147. Reverses the bits of each element. -/
  | vbrev (f : VFields)
  /-- R147. Extracts a per-lane bit field. -/
  | vbfx (f : VFields)
  /-- R147. Inserts a per-lane bit field into the old destination. -/
  | vbfi (f : VFields)
  /-- R148. Selects a or b per lane by a selector predicate. -/
  | vsel (f : VFields)
  /-- R148. Copies a vector register. -/
  | vmov (f : VFields)
  /-- R148. Writes a repeated immediate into every active lane. -/
  | vmovi (f : VFields)
  /-- R148. Places a 64-bit scalar as lane pairs. -/
  | vs2v (f : VFields)
  /-- R148. Extracts element i of each lane, extended to 32 bits. -/
  | vext (f : VFields)
  /-- R148. Writes the element index of each element. -/
  | vlane (f : VFields)
  /-- R148. Writes each lane's launch-wide identifier. -/
  | vgid (f : VFields)
  /-- R149. Widens every element into k interleaved destination registers. -/
  | vwid (f : VFields)
  /-- R150. Narrows k interleaved source registers into one, converting each element. -/
  | vnar (f : VFields)
  /-- R151. Narrows two freely named sources into one register. -/
  | vpack (f : VFields)
  /-- R151. Widens one element of each lane pair into one register. -/
  | vunpk (f : VFields)
  /-- R152. Quantizes F32 values to Q8A or Q4A codes with a scale entry. -/
  | vqz (f : VFields)
  /-- R152. Dequantizes codes with a scale entry into a float format. -/
  | vdq (f : VFields)
  /-- R153. Reciprocal of each element. -/
  | frcp (f : FFields)
  /-- R153. Reciprocal square root of each element. -/
  | frsq (f : FFields)
  /-- R153. Correctly rounded square root of each element. -/
  | fsqrt (f : FFields)
  /-- R153. 2 to the power of each element. -/
  | fexp2 (f : FFields)
  /-- R153. Base-2 logarithm of each element. -/
  | flog2 (f : FFields)
  /-- R153. sin(2πx) of each element. -/
  | fsin (f : FFields)
  /-- R153. cos(2πx) of each element. -/
  | fcos (f : FFields)
  /-- R153. Hyperbolic tangent of each element. -/
  | ftanh (f : FFields)
  /-- R153. Logistic sigmoid of each element. -/
  | fsig (f : FFields)
  /-- R153. Error function of each element. -/
  | ferf (f : FFields)
  /-- R156. Each active lane pulls the source lane that a static pattern names. -/
  | xperm (f : XsFields)
  /-- R156. Each active lane pushes to the destination lane that a static pattern names. -/
  | xpush (f : XsFields)
  /-- R157. Dynamic push by per-lane lane numbers, trapping ILLEGAL_SCHEDULE on a collision. -/
  | xpushd (f : XFields)
  /-- R157. Dynamic push in which the highest colliding source lane wins. -/
  | xpushdHi (f : XFields)
  /-- R156. Each active lane pulls the source lane named by a per-lane lane number. -/
  | xpull (f : XFields)
  /-- R156. Rotates lanes by a distance. -/
  | xrot (f : XFields)
  /-- R156. Broadcasts lane n to the active lanes. -/
  | xbc (f : XFields)
  /-- R156. Shifts lanes upward by n, filling with zero. -/
  | xup (f : XFields)
  /-- R156. Shifts lanes downward by n, filling with zero. -/
  | xdn (f : XFields)
  /-- R156. Butterfly exchange with lane L xor n. -/
  | xbfly (f : XFields)
  /-- R156. Transposes bytes, halves or nibbles within lane blocks. -/
  | xtr (f : XFields)
  /-- R158. Reduces the active lanes by a fixed pairwise tree and writes the result to every active lane. -/
  | xred (f : XFields)
  /-- R158. Inclusive scan over the active lanes in ascending lane order. -/
  | xscan (f : XFields)
  /-- R159. Sets a predicate bit for every active lane whose value is non-zero. -/
  | xbal (f : XFields)
  /-- R167. Global vector load per active lane. -/
  | ldG (f : MFields)
  /-- R167. Global vector store per active lane, held as gated stores. -/
  | stG (f : MFields)
  /-- R168. Scalar global load, optionally an acquire. -/
  | ldSc (f : MFields)
  /-- R168. Scalar global store, optionally a release. -/
  | stSc (f : MFields)
  /-- R169. Scratchpad load with fixed latency and pass count. -/
  | ldSp (f : MFields)
  /-- R170. Scratchpad store in issue order. -/
  | stSp (f : MFields)
  /-- R171. Scratchpad atomic per active lane, returning the old word. -/
  | satom (f : MFields)
  /-- R172. Private per-lane word load. -/
  | ldPv (f : MFields)
  /-- R172. Private per-lane word store. -/
  | stPv (f : MFields)
  /-- R173. Meadow read, waiting out the bank's refresh window. -/
  | ldMd (f : MFields)
  /-- R174. Copies global bytes directly into scratchpad and counts on a barrier. -/
  | ldGs (f : MFields)
  /-- R176. Global atomic read-modify-write at the page's placement point. -/
  | atom (f : MFields)
  /-- R177. Global compare-and-swap. -/
  | atomCas (f : MFields)
  /-- R178. Global floating-point atomic add. -/
  | atomFadd (f : MFields)
  /-- R179. Records an ordered F32 contribution at the memory-side unit. -/
  | atomOfa (f : MFields)
  /-- R180. Closes a word's epoch, summing pending contributions in key order. -/
  | atomOclose (f : MFields)
  /-- R182. Prefetches lines into L1 or the stove L2. -/
  | pf (f : MFields)
  /-- R184. Binds a global region to a sync object. -/
  | bind (f : MFields)
  /-- R184. Removes a region's binding. -/
  | unbind (f : MFields)
  /-- R185. Acquires a sync object, exclusively or shared. -/
  | acq (f : MFields)
  /-- R186. Waits for named tags, publishes bound writes and releases a sync object. -/
  | rel (f : MFields)
  /-- R187. Release, acquire or acquire-release fence at a scope. -/
  | fence (f : MFields)
  /-- R193. Queues a global-to-scratchpad copy. -/
  | cpGs (f : AFields)
  /-- R193. Queues a scratchpad-to-global copy. -/
  | cpSg (f : AFields)
  /-- R193. Queues a global-to-global copy. -/
  | cpGg (f : AFields)
  /-- R193. Queues a meadow-to-scratchpad copy. -/
  | cpMs (f : AFields)
  /-- R194. Queues a gather of global rows chosen by an index list. -/
  | gth (f : AFields)
  /-- R194. Queues a scatter of rows to global memory by an index list. -/
  | sct (f : AFields)
  /-- R196. Domain broadcast collective. -/
  | collBc (f : AFields)
  /-- R196. Domain reduction collective in member order. -/
  | collRed (f : AFields)
  /-- R196. Domain all-gather collective. -/
  | collAg (f : AFields)
  /-- R196. Domain all-to-all collective. -/
  | collA2a (f : AFields)
  /-- R198. Writes one word of a tensor-identifier entry. -/
  | tnWr (f : AFields)
  /-- R198. Reads one word of a tensor-identifier entry into a scalar. -/
  | tnRd (f : AFields)
  /-- R198. Loads a 64-byte tensor-identifier entry from global memory. -/
  | tnLd (f : AFields)
  /-- R201. Appends scale entries to the scale flue q7. -/
  | sqLd (f : AFields)
  /-- R201. Discards entries from the head of the scale flue. -/
  | sqDrp (f : AFields)
  /-- R199. Initialises a flue ring and its counts. -/
  | qInit (f : AFields)
  /-- R200. Advances a flue's produced count. -/
  | qAdvp (f : AFields)
  /-- R200. Advances a flue's consumed count. -/
  | qAdvc (f : AFields)
  /-- R200. Waits for data or space in a flue and writes the ring address. -/
  | qWt (f : AFields)
  /-- R202. Writes the incomplete and failed status of named tags to a scalar. -/
  | tagTst (f : AFields)
  /-- R217. Dense matrix multiply-accumulate into an accumulator tile. -/
  | mma (f : TFields)
  /-- R221. Quantized matrix multiply with scales from the scale flue. -/
  | mmaQ (f : TFields)
  /-- R222. Structured-sparse matrix multiply from scratchpad. -/
  | mmaSp (f : TFields)
  /-- R223. Stove-cooperative 512 × 512 matrix multiply over the chimney. -/
  | mmaSt (f : TFields)
  /-- R226. Zeroes an accumulator tile. -/
  | accZ (f : TFields)
  /-- R226. Loads an accumulator tile from scratchpad. -/
  | accLd (f : TFields)
  /-- R226. Stores an accumulator tile to scratchpad. -/
  | accSt (f : TFields)
  /-- R228. Converts a tile through an epilogue entry into scratchpad. -/
  | accCvt (f : TFields)
  /-- R229. Copies tile rows into vector registers. -/
  | accMv (f : TFields)
  /-- R227. Adds one tile to another element by element. -/
  | accAdd (f : TFields)
  /-- R231. Runs a known-answer tile and compares its signature with the routed and reference signatures. -/
  | kat (f : TFields)
  -- steps that bring something from outside, with what they bring
  /-- R302. A detected compute error stops the team on the hearth and restores the group and dependants to the checkpoint. -/
  | computeError (h slot : Nat) (unit : Nat) (covered : Bool)
  /-- R303. The two reruns reach D and their counts and signatures are compared. -/
  | rerunCompare (h slot : Nat) (runs : RerunPair)
  /-- R388. A line's MAC check fails, consumers roll back and the line is refetched: ciphertext and metadata as they are read. -/
  | macCheckFail (read : LineImage)
  /-- R388. The refetched line is checked and used, or its consumers take MEM_ABORT. -/
  | macRefetchDone (line : Nat) (image : Option (List Byte × List Byte))
  /-- R387. An uncorrectable read aborts its requesters and may enter the lost-line table. -/
  | uncorrectableData (line : Nat) (dirty : Bool) (unit : Nat)
  /-- R383. A unit corrects an error and files a corrected record. -/
  | correctedError (e : ErrSite)
  /-- R393. At the end of a refresh window a copied meadow row is switched to its spare. -/
  | rowSpareSwitch (die region bank row : Nat)
  /-- R352. Host write answering a fault, freeing its FID and deciding every joined access. -/
  | fqAnswer (func : Nat) (value : W64)
  /-- R254. The current limiter detects a droop and stops bulk injection and voids bulk packets. -/
  | droopCut (die : Nat)
  /-- R360. Host write of a launch-queue doorbell that lets the queue read records from its ring. -/
  | launchDoorbell (func queue : Nat) (value : W32)
  /-- R338. The damper revokes a lease and sends a notice. -/
  | leaseRevoke (die : Nat)
  /-- R370. Host write of a channel doorbell that sets DP or enters DESYNC. -/
  | channelDoorbell (func ch : Nat) (value : W32)
  /-- R369. A channel slot copy completes or aborts, stepping DC or entering DESYNC. -/
  | channelCopyComplete (func ch : Nat) (hostAbort : Option Nat)
  /-- R359. Host read or write through the BAR 2 device-memory window. -/
  | bar2WindowAccess (func : Nat) (write : Bool) (off len : Nat) (data : W64)
  /-- R390. PF write clearing an entry of the lost-line table. -/
  | lostClr (addr : W64)
  /-- R397. Writing START begins a sweep of the named stove. -/
  | sweepStart (stove : Nat)
  /-- R396. The 2 ms scan phase ends and the array phase begins. -/
  | sweepScanEnd (failed : BitVec 17)
  /-- R396. The 3 ms array phase ends and filing begins. -/
  | sweepArrayEnd (failed : BitVec 17)
  /-- R399. Writing GO reads the image at UPD_ADDR and starts its verification; flashOk: the inactive flash bank takes it. -/
  | updateGo (flashOk : Bool)
  /-- R358. A host write to a BAR 0 register with no behaviour of its own, including ignored reserved-field writes. -/
  | registerWrite (func off : Nat) (half : Bool) (value : W64)
  /-- R362. A PCIe Function Level Reset discards a function's launches and resets its state. -/
  | functionLevelReset (func : Nat)
  /-- R409. Bring-up verifies configuration, trains memory, starts the damper and sets ready. -/
  | moduleReset (b : BootReport)
  /-- R407. A junction sensor passes 100, 105 or 115 °C and the level is lowered or power removed. -/
  | thermalThreshold (die : Nat) (celsius : Nat)
  /-- R406. An MCTP CAP message is taken, checked and may become the cap in force. -/
  | rackCapMessage (endpoint watts : Nat) (seqn : W32) (expiry : W64)
  /-- R406. An MCTP TIME message sets the rack clock. -/
  | rackTimeMessage (endpoint : Nat) (seqn : W32) (time : W64)
  /-- R376. A port declares its link dead and floods a link-state update. -/
  | linkDead (port : Nat)
  /-- R376. A link-state update flit arrives, is forwarded and drops the port from routes. -/
  | flitLinkState (f : Flit)
  /-- R373. A remote read request flit is served at the target's home L2. -/
  | flitRead (f : Flit)
  /-- R373. A remote write request flit is served at the target's home L2. -/
  | flitWrite (f : Flit)
  /-- R373. A remote atomic request flit executes at the target's home. -/
  | flitAtomic (f : Flit)
  /-- R374. A read response flit completes a remote read. -/
  | flitReadResponse (f : Flit)
  /-- R375. A write acknowledgement flit completes a remote write. -/
  | flitWriteAck (f : Flit)
  /-- R374. An atomic response flit returns a remote atomic's result. -/
  | flitAtomicResponse (f : Flit)
  /-- R373. An abort response flit gives MEM_ABORT reason 3. -/
  | flitAbortResponse (f : Flit)
  /-- R196. A collective data flit delivers block data of a collective. -/
  | flitCollectiveData (f : Flit)
  /-- R373. A monitor arm flit arms a monitor at the target's home. -/
  | flitMonitorArm (f : Flit)
  /-- R373. A monitor wake flit wakes the requester's monitor. -/
  | flitMonitorWake (f : Flit)
  /-- R394. A fabric port retrains without a spared lane and resends unacknowledged flits. -/
  | laneSpareRetrain (port lane : Nat)
  /-- R394. The service controller retrains a dead port, up to three times 1 s apart. -/
  | portRetrain (port : Nat) (ok : Bool)
  /-- R407. A die's junction temperature falls back below a threshold and its thermal lowering ends. -/
  | temperatureFall (die celsius : Nat)
  /-- R91. A non-idle slot with an unlisted opcode issues and traps RESERVED_FIELD under the lane-gated rule. -/
  | reservedOpcode (slot : Slot) (word : BitVec 64)
  /-- R374. A flit of reserved TYPE arrives and is discarded and counted as a link error. -/
  | flitReservedType (f : Flit)
  -- steps the device takes when its own state says they are due: each takes the first one due
  /-- R293. ACTION 0: the trapped record issues once under %TRAP_MASK and the split continues. -/
  | tretReplay
  /-- R293. ACTION 1: the split continues after the record at %TRAP_PC. -/
  | tretSkip
  /-- R293. ACTION 2: the split continues at %TRAP_PC. -/
  | tretGoto
  /-- R293. ACTION 3: the lanes in %TRAP_MASK exit and the rest continue as SKIP. -/
  | tretExit
  /-- R293. ACTION 4: the split enters PARKED. -/
  | tretPark
  /-- R293. ACTION 5: the team ends and the launch reports the code. -/
  | tretEnd
  /-- R20. A fixed-latency result lands in its registers at the end of its latency cycle. -/
  | resultWriteback
  /-- R24. A load, atomic return, acc.mv or flue read lands and clears its pending bits. -/
  | variableLatencyResult
  /-- R174. The last lane of an ld.gs is written and it adds 1 to the barrier's ARRIVED. -/
  | ldGsArrival
  /-- R77. The stoker completes a decode-table refill, filtering the entry, and the missing bundle may issue. -/
  | stokerRefill
  /-- R72. Preload of a new partition's pinned entries completes, or fails with DICT_FAULT. -/
  | partitionPreload
  /-- R86. With no refill in flight, the hearth invalidates unpinned entries and reloads pinned ones under new prices. -/
  | decodeTableRebuild
  /-- R110. The sequencer issues one combined bundle of a body cycle. -/
  | sequencerIssue
  /-- R103. At a cycle boundary two splits at one offset and identity merge. -/
  | splitMerge
  /-- R190. A queued engine op starts once its consumed tags and earlier accesses allow. -/
  | aOpStart
  /-- R189. A queued engine op completes or fails and lowers its tag's count. -/
  | aOpComplete
  /-- R205. A T op starts one step, drawing its price from the pool, and writes its tile at its last step. -/
  | matrixStep
  /-- R224. The k-th mma.st of a group on all 16 hearths joins into one op and begins stepping together. -/
  | mmaStInstanceStart
  /-- R115. The background shadow of a named tile completes. -/
  | tileShadowDone
  /-- R301. A checkpoint closes once its conditions hold, discarding the interval's records and releasing gated stores. -/
  | checkpointClose
  /-- R392. Each hour the predictive counters drop their oldest bucket. -/
  | counterWindowSlide
  /-- R351. A translation faults and writes a record to the function's page-fault queue. -/
  | translationFault
  /-- R297. A faulted logged op walks again and replays its faulted lanes from the operand log. -/
  | loggedReplay
  /-- R297. A parked stream or dictionary fetch is tried again after an event or 800,000 cycles. -/
  | fetchRetry
  /-- R291. The team trap handler starts at the handler offset and selects the oldest event. -/
  | handlerStart
  /-- R305. A breakpoint or dbg stops the whole group and sends the event to the debugger or handler. -/
  | debugStop
  /-- R255. After 128 cycles in EMBER the longest-waiting split places the hearth's claim. -/
  | claimPlace
  /-- R249. At each revolution the damper injects bulk embers at the die's granted level. -/
  | revolutionBoundary
  /-- R404. The limiter is released after droop-free time and bulk resumes. -/
  | limiterRelease
  /-- R272. A meadow bank's refresh window ends and waiting reads proceed. -/
  | meadowRefreshWindow
  /-- R284. A write, directory loss, pre-emption or spurious event wakes a wmon split. -/
  | monitorWake
  /-- R284. A wmon timeout expires and wakes the split. -/
  | monitorTimeout
  /-- R257. A team's wait clock exceeds %SWAP_THRESHOLD and the team is swapped out. -/
  | swapOut
  /-- R258. A watched condition of a swapped team occurs and the team becomes ready to return. -/
  | teamReadyToReturn
  /-- R259. A ready swapped team is placed again and its splits resume. -/
  | swapIn
  /-- R106. A group with no lanes left retires once its issued ops complete, freeing its resources. -/
  | groupRetirement
  /-- R316. The device reads a launch record, checks it and accepts or completes it with an error status. -/
  | launchAccept
  /-- R320. A dependence counter's line is written and the record becomes eligible when it reaches DEPVAL. -/
  | dependenceWake
  /-- R321. A team of an eligible launch is placed whole on hearths with its resources. -/
  | teamPlacement
  /-- R321. An older launch reaches 1,048,576 cycles of eligibility and blocks younger placement. -/
  | ageingExpiry
  /-- R325. A launch's meadow load runs before its first team is placed. -/
  | meadowLoad
  /-- R322. A launch waits 262,144 cycles and lower-priority teams are pre-empted. -/
  | priorityPreemptTrigger
  /-- R322. A resident team exceeds its function's time slice while another function's launch cannot fit. -/
  | timeSliceExpiry
  /-- R326. A team is stopped at a bundle boundary, drained and saved as its context. -/
  | preemption
  /-- R328. A pre-empted team is restored on a hearth of the device. -/
  | contextRestore
  /-- R317. A launch completes, writing its completion record, stepping DONE and raising its vector. -/
  | launchCompletion
  /-- R335. At completion each fresh buffer's version steps and its lines are rewrapped. -/
  | freshBufferRewrap
  /-- R411. A halted team's started ops finish and its state is ready for the dump. -/
  | haltDrainDone
  /-- R412. The core dump is written to the team's swap slot in order. -/
  | dumpWrite
  /-- R366. Admin command writing the device identity record. -/
  | identify
  /-- R408. Admin command writing the 4 KiB summary record. -/
  | summary
  /-- R365. Admin command creating a launch queue with its ring and shadow. -/
  | lqCreate
  /-- R365. Admin command deleting an empty launch queue. -/
  | lqDelete
  /-- R330. PF command giving a world to a function or deleting it. -/
  | worldAssign
  /-- R365. Admin command setting a world's page-table root. -/
  | worldRoot
  /-- R354. Admin command shooting down translations of a world range. -/
  | invalidate
  /-- R335. Admin command registering a buffer with the security engine. -/
  | bufReg
  /-- R365. Admin command unregistering a buffer. -/
  | bufUnreg
  /-- R332. PF command giving a meadow unit to a world or none. -/
  | meadowAssign
  /-- R365. Admin command pre-empting a launch's teams. -/
  | preempt
  /-- R365. Admin command ending a launch with ABORTED. -/
  | abort
  /-- R337. PF command setting the module's power ceiling level. -/
  | powerCeiling
  /-- R338. Admin command requesting a boost lease to L7. -/
  | boost
  /-- R365. PF command setting a function's time slice and lease permit. -/
  | funcConfig
  /-- R368. Admin command creating a bounce-buffer channel. -/
  | chCreate
  /-- R371. Admin command resynchronising a channel's counts and leaving it ACTIVE. -/
  | chResync
  /-- R365. Admin command deleting a channel after its copies end. -/
  | chDelete
  /-- R359. Admin command setting the BAR 2 window's world, base and length. -/
  | aperture
  /-- R372. PF command giving the device number and route table. -/
  | domainConfig
  /-- R367. Admin command writing a stopped team part to a host buffer. -/
  | dbgRead
  /-- R367. Admin command releasing the splits a debug stop parked. -/
  | dbgResume
  /-- R338. A boost lease expires at a revolution boundary and the die returns to its level. -/
  | leaseEnd
  /-- R397. The service controller starts a sweep of an empty stove at its interval. -/
  | sweepAutoStart
  /-- R396. The withdrawn stove becomes empty and its scan phase begins. -/
  | sweepDrainEnd
  /-- R396. Records are filed, failing positions retired and the stove returns to placement. -/
  | sweepFilingDone
  /-- R400. A verified staged update takes effect at its part's point. -/
  | updateActivate
  /-- R403. The damper's heartbeat is missing for 10 ms and each die is held to the safe level. -/
  | heartbeatTimeout
  /-- R407. While above 100 °C the damper lowers the die one level every 10 ms. -/
  | thermalStepDown
  /-- R406. The rack clock reaches the cap's EXPIRY and the safe cap applies. -/
  | capExpiry
  /-- R377. A 10 µs drain round ends, and after round 3 outstanding remote requests abort. -/
  | drainRoundEnd
  /-- R377. A remote request outstanding 1 ms with no update aborts. -/
  | remoteRequestTimeout
  /-- R251. In each cycle a hearth stop takes bulk and floor embers from the passing packets into its pool, and untaken embers return to the damper as surplus. -/
  | emberRingTake
  /-- R280. The homes report that they hold the bytes a device-scope or wider release pushed, and the waiting release completes. -/
  | releasePushComplete
  /-- R296. A translation walk finishes without a fault, setting A and D, filling the TLB and freeing operand-log entries whose lanes have all translated. -/
  | walkComplete
  /-- R391. The 4,096-cycle hold-off of the error-ring or page-fault-queue interrupt runs out while records are still unconsumed, and the vector is raised again. -/
  | interruptHoldoffExpiry
  /-- R404. The 800,000,000-cycle hold one level lower after three droop cuts ends, and the die returns to its level. -/
  | limiterHoldEnd
  /-- R403. The damper firmware restarts after a heartbeat loss and resumes its heartbeat. -/
  | damperRestart
  /-- R399. Input power is lost, which stops the module and leaves only the flash state, including the active update bank. -/
  | powerLoss
  /-- R80. A refused decode-table entry issues, charges nothing and traps ILLEGAL_ENTRY with the split's whole mask. -/
  | refusedEntryIssue
  /-- R66. A split fetches a reserved first byte, an index at or beyond DICT_COUNT, or an offset beyond STREAM_LEN, and traps as that record's issue. -/
  | streamFetchFault
  deriving DecidableEq, Repr

end Sys2Proof
end

