-- ==== Sys2Proof/WellFormed.lean ====
section
/-! DEFINITION. Which terms of `Instr` are steps of this part: a slot op that its opcode and TSEL can say, an
unlisted opcode where a word of that slot can hold one, and a step whose parameters lie in their ranges. A reserved
field value is no ground here: the spec decides it at issue (R29). -/

namespace Sys2Proof

/-- Width of a slot field (R9). -/
def Slot.width : Slot → Nat
  | .t => 64 | .m => 64 | .a => 56 | .v1 => 64 | .v0 => 64 | .s => 48 | .c => 40 | .f => 32 | .x => 32

/-- The opcode is listed for the slot (R91). -/
def opcodeListed (sl : Slot) (o : Nat) : Bool :=
  match sl with
  | .t => (1 ≤ o && o ≤ 4) || (8 ≤ o && o ≤ 0x0D) || o == 0x10
  | .m => 1 ≤ o && o ≤ 0x16
  | .a => 1 ≤ o && o ≤ 0x14
  | .v1 => 1 ≤ o && o ≤ 0x37
  | .v0 => 1 ≤ o && o ≤ 0x37
  | .s => 1 ≤ o && o ≤ 0x27
  | .c => 1 ≤ o && o ≤ 0x18
  | .f => 1 ≤ o && o ≤ 0x0A
  | .x => 1 ≤ o && o ≤ 0x0E

/-- A flit's devices and byte counts fit its header (R374). -/
def Flit.wf (f : Flit) : Bool :=
  f.src < 192 && f.dst < 192 && f.world < 64 && f.data.length == 128 && f.ext.length == 80

/-- A flit of the type a step takes. -/
def Flit.isType (f : Flit) (t : Nat) : Bool := f.wf && f.type.toNat == t

/-- An error site names units that exist (R383, R389). -/
def ErrSite.wf (e : ErrSite) : Bool :=
  e.die ≤ 4 && (e.stove < 8 || e.stove == 0xFF) && (e.pos ≤ 16 || e.pos == 0xFF)

/-- The term is a step of the part. -/
def Instr.wf (i : Instr) : Bool :=
  match i with
  | .call f => f.tsel != 1
  | .callScalar f => f.tsel == 1
  | .brk f => f.tsel != 1
  | .brkScalar f => f.tsel == 1
  | .reservedOpcode sl w =>
    (w &&& 0xFF) != 0 && !opcodeListed sl (w &&& 0xFF).toNat && w.toNat < 2 ^ sl.width
  | .computeError h slot _ _ => h < 512 && slot < 16
  | .rerunCompare h slot _ => h < 512 && slot < 16
  | .correctedError e => e.wf
  | .rowSpareSwitch die region bank _ => die < 4 && region < 8 && bank < 8
  | .fqAnswer func _ => func < 32
  | .droopCut die => die < 4
  | .launchDoorbell func q _ => func < 32 && q < 64
  | .leaseRevoke die => die < 4
  | .channelDoorbell func ch _ => func < 32 && ch < 64
  | .channelCopyComplete func ch _ => func < 32 && ch < 64
  | .bar2WindowAccess func _ off len _ => func < 32 && 1048576 ≤ off && 1 ≤ len && len ≤ 8
  | .sweepStart stove => stove < 32
  | .registerWrite func off half v => func < 32 && off < 1048576 && off % (if half then 4 else 8) == 0 && (!half || v.toNat < 2 ^ 32)
  | .functionLevelReset func => func < 32
  | .moduleReset b => b.copies.length == 5 && b.copies.all (· ≤ 2)
  | .thermalThreshold die _ => die < 4
  | .temperatureFall die _ => die < 4
  | .linkDead port => port < 12
  | .laneSpareRetrain port lane => port < 12 && lane < 8
  | .portRetrain port _ => port < 12
  | .flitRead f => f.isType 1
  | .flitWrite f => f.isType 2
  | .flitAtomic f => f.isType 3
  | .flitReadResponse f => f.isType 4
  | .flitWriteAck f => f.isType 5
  | .flitAtomicResponse f => f.isType 6
  | .flitAbortResponse f => f.isType 7
  | .flitLinkState f => f.isType 8
  | .flitCollectiveData f => f.isType 9
  | .flitMonitorArm f => f.isType 10
  | .flitMonitorWake f => f.isType 11
  | .flitReservedType f => f.wf && (f.type.toNat == 0 || 11 < f.type.toNat)
  | _ => true

end Sys2Proof
end

