-- ==== Sys2Proof/Decode.lean ====
section
/-! DEFINITION. Reading and writing the bits of slot fields, control words and stream records (R9 to R12, R64, R65,
R88 to R91). Decoding keeps every bit of a slot field; a value the spec reserves is decided at issue (R29). -/

namespace Sys2Proof

/-- Bits [lo+n-1:lo] of a slot word. -/
def slotField (w : BitVec 64) (lo n : Nat) : BitVec n := w.extractLsb' lo n

/-- One bit of a slot word. -/
def slotBit (w : BitVec 64) (i : Nat) : Bool := w.getLsbD i

/-- The header's fields after the opcode (R10). -/
def readHdr (w : BitVec 64) : Hdr :=
  { gpol := slotBit w 13, gpred := slotField w 9 4, sq := slotBit w 8 }

/-- The header and an opcode as the low 14 bits of a slot field (R10). -/
def writeHdr (opc : BitVec 8) (h : Hdr) : BitVec 14 :=
  BitVec.ofBool h.gpol ++ h.gpred ++ BitVec.ofBool h.sq ++ opc

/-- The C map read from a slot field (R88 to R90). -/
def readC (w : BitVec 64) : CFields :=
  { hdr := readHdr w,
    aux := slotField w 32 8,
    tsel := slotField w 30 2,
    func := slotField w 26 4,
    sb := slotField w 20 6,
    sa := slotField w 14 6 }

/-- The C map written to a slot field. -/
def writeC (opc : BitVec 8) (f : CFields) : BitVec 64 :=
  (0 : BitVec 24) ++ f.aux ++ f.tsel ++ f.func ++ f.sb ++ f.sa ++
    writeHdr opc f.hdr

/-- The S map read from a slot field (R88 to R90). -/
def readS (w : BitVec 64) : SFields :=
  { hdr := readHdr w,
    aux := slotField w 40 8,
    width := slotField w 38 2,
    bsel := slotField w 36 2,
    func := slotField w 32 4,
    sb := slotField w 26 6,
    sa := slotField w 20 6,
    sd := slotField w 14 6 }

/-- The S map written to a slot field. -/
def writeS (opc : BitVec 8) (f : SFields) : BitVec 64 :=
  (0 : BitVec 16) ++ f.aux ++ f.width ++ f.bsel ++ f.func ++ f.sb ++ f.sa ++ f.sd ++
    writeHdr opc f.hdr

/-- The V map read from a slot field (R88 to R90). -/
def readV (w : BitVec 64) (unit1 : Bool) : VFields :=
  { hdr := readHdr w, unit1 := unit1,
    rsv := slotField w 57 7,
    func := slotField w 53 4,
    fmt2 := slotField w 48 5,
    bsel := slotField w 46 2,
    sat := slotBit w 45,
    rm := slotField w 43 2,
    fmt := slotField w 38 5,
    vc := slotField w 32 6,
    vb := slotField w 26 6,
    va := slotField w 20 6,
    vd := slotField w 14 6 }

/-- The V map written to a slot field. -/
def writeV (opc : BitVec 8) (f : VFields) : BitVec 64 :=
  f.rsv ++ f.func ++ f.fmt2 ++ f.bsel ++ BitVec.ofBool f.sat ++ f.rm ++ f.fmt ++ f.vc ++ f.vb ++ f.va ++ f.vd ++
    writeHdr opc f.hdr

/-- The F map read from a slot field (R88 to R90). -/
def readF (w : BitVec 64) : FFields :=
  { hdr := readHdr w,
    rsv := slotBit w 31,
    fmt := slotField w 26 5,
    va := slotField w 20 6,
    vd := slotField w 14 6 }

/-- The F map written to a slot field. -/
def writeF (opc : BitVec 8) (f : FFields) : BitVec 64 :=
  (0 : BitVec 32) ++ BitVec.ofBool f.rsv ++ f.fmt ++ f.va ++ f.vd ++
    writeHdr opc f.hdr

/-- The static X map read from a slot field (R88 to R90). -/
def readXs (w : BitVec 64) : XsFields :=
  { hdr := readHdr w,
    pat := slotField w 24 8,
    va := slotField w 19 5,
    vd := slotField w 14 5 }

/-- The static X map written to a slot field. -/
def writeXs (opc : BitVec 8) (f : XsFields) : BitVec 64 :=
  (0 : BitVec 32) ++ f.pat ++ f.va ++ f.vd ++
    writeHdr opc f.hdr

/-- The X map read from a slot field (R88 to R90). -/
def readX (w : BitVec 64) : XFields :=
  { hdr := readHdr w,
    aux := slotField w 26 6,
    va := slotField w 20 6,
    vd := slotField w 14 6 }

/-- The X map written to a slot field. -/
def writeX (opc : BitVec 8) (f : XFields) : BitVec 64 :=
  (0 : BitVec 32) ++ f.aux ++ f.va ++ f.vd ++
    writeHdr opc f.hdr

/-- The M map read from a slot field (R88 to R90). -/
def readM (w : BitVec 64) : MFields :=
  { hdr := readHdr w,
    vidx := slotBit w 63,
    ord := slotField w 61 2,
    scope := slotField w 58 3,
    func := slotField w 54 4,
    rot := slotField w 51 3,
    disp := slotField w 39 12,
    offsel := slotField w 37 2,
    sx := slotBit w 36,
    width := slotField w 33 3,
    idxen := slotBit w 32,
    index := slotField w 26 6,
    base := slotField w 20 6,
    data := slotField w 14 6 }

/-- The M map written to a slot field. -/
def writeM (opc : BitVec 8) (f : MFields) : BitVec 64 :=
  BitVec.ofBool f.vidx ++ f.ord ++ f.scope ++ f.func ++ f.rot ++ f.disp ++ f.offsel ++ BitVec.ofBool f.sx ++ f.width ++ BitVec.ofBool f.idxen ++ f.index ++ f.base ++ f.data ++
    writeHdr opc f.hdr

/-- The A map read from a slot field (R88 to R90). -/
def readA (w : BitVec 64) : AFields :=
  { hdr := readHdr w,
    rsv := slotField w 54 2,
    func := slotField w 50 4,
    ntag := slotField w 48 2,
    ctag2 := slotField w 44 4,
    ctag1 := slotField w 40 4,
    ctag0 := slotField w 36 4,
    otag := slotField w 32 4,
    opc2 := slotField w 26 6,
    opc1 := slotField w 20 6,
    opc0 := slotField w 14 6 }

/-- The A map written to a slot field. -/
def writeA (opc : BitVec 8) (f : AFields) : BitVec 64 :=
  (0 : BitVec 8) ++ f.rsv ++ f.func ++ f.ntag ++ f.ctag2 ++ f.ctag1 ++ f.ctag0 ++ f.otag ++ f.opc2 ++ f.opc1 ++ f.opc0 ++
    writeHdr opc f.hdr

/-- The T map read from a slot field (R88 to R90). -/
def readT (w : BitVec 64) : TFields :=
  { hdr := readHdr w,
    rsv := slotField w 60 4,
    qg := slotField w 58 2,
    spn := slotField w 55 3,
    sat := slotBit w 54,
    incen := slotBit w 53,
    incr := slotField w 49 4,
    rep := slotField w 45 4,
    bsrc := slotBit w 44,
    asrc := slotBit w 43,
    opb := slotField w 37 6,
    opa := slotField w 31 6,
    tnb := slotField w 25 6,
    tna := slotField w 19 6,
    rate := slotField w 17 2,
    rsv16 := slotBit w 16,
    acc := slotField w 14 2 }

/-- The T map written to a slot field. -/
def writeT (opc : BitVec 8) (f : TFields) : BitVec 64 :=
  f.rsv ++ f.qg ++ f.spn ++ BitVec.ofBool f.sat ++ BitVec.ofBool f.incen ++ f.incr ++ f.rep ++ BitVec.ofBool f.bsrc ++ BitVec.ofBool f.asrc ++ f.opb ++ f.opa ++ f.tnb ++ f.tna ++ f.rate ++ BitVec.ofBool f.rsv16 ++ f.acc ++
    writeHdr opc f.hdr

/-- The op of a non-idle C slot (R91). -/
def decodeC (w : BitVec 64) : Instr :=
  match (slotField w 0 8).toNat with
  | 1 => .br (readC w)
  | 2 => .brc (readC w)
  | 3 => .bri (readC w)
  | 4 => .brd (readC w)
  | 5 => .brx (readC w)
  | 6 => if (readC w).tsel = 1 then .callScalar (readC w) else .call (readC w)
  | 7 => .ret (readC w)
  | 8 => .join (readC w)
  | 9 => if (readC w).tsel = 1 then .brkScalar (readC w) else .brk (readC w)
  | 10 => .exit (readC w)
  | 11 => .trap (readC w)
  | 12 => .tret (readC w)
  | 13 => .seq (readC w)
  | 14 => .seqx (readC w)
  | 15 => .swp (readC w)
  | 16 => .chk (readC w)
  | 17 => .barArr (readC w)
  | 18 => .barWt (readC w)
  | 19 => .barSyn (readC w)
  | 20 => .waitT (readC w)
  | 21 => .wmon (readC w)
  | 22 => .yld (readC w)
  | 23 => .spawn (readC w)
  | 24 => .dbg (readC w)
  | _ => .reservedOpcode .c w

/-- The op of a non-idle S slot (R91). -/
def decodeS (w : BitVec 64) : Instr :=
  match (slotField w 0 8).toNat with
  | 1 => .add (readS w)
  | 2 => .sub (readS w)
  | 3 => .mul (readS w)
  | 4 => .mulh (readS w)
  | 5 => .and (readS w)
  | 6 => .or (readS w)
  | 7 => .xor (readS w)
  | 8 => .shl (readS w)
  | 9 => .shr (readS w)
  | 10 => .sar (readS w)
  | 11 => .rot (readS w)
  | 12 => .min (readS w)
  | 13 => .max (readS w)
  | 14 => .minn (readS w)
  | 15 => .maxn (readS w)
  | 16 => .cmp (readS w)
  | 17 => .sel (readS w)
  | 18 => .mov (readS w)
  | 19 => .li (readS w)
  | 20 => .lea (readS w)
  | 21 => .clz (readS w)
  | 22 => .ctz (readS w)
  | 23 => .popc (readS w)
  | 24 => .brev (readS w)
  | 25 => .bfx (readS w)
  | 26 => .bfi (readS w)
  | 27 => .sext (readS w)
  | 28 => .zext (readS w)
  | 29 => .csrRd (readS w)
  | 30 => .csrWr (readS w)
  | 31 => .csrSet (readS w)
  | 32 => .csrClr (readS w)
  | 33 => .kset (readS w)
  | 34 => .kand (readS w)
  | 35 => .kor (readS w)
  | 36 => .kxor (readS w)
  | 37 => .knot (readS w)
  | 38 => .kpop (readS w)
  | 39 => .kfirst (readS w)
  | _ => .reservedOpcode .s w

/-- The op of a non-idle F slot (R91). -/
def decodeF (w : BitVec 64) : Instr :=
  match (slotField w 0 8).toNat with
  | 1 => .frcp (readF w)
  | 2 => .frsq (readF w)
  | 3 => .fsqrt (readF w)
  | 4 => .fexp2 (readF w)
  | 5 => .flog2 (readF w)
  | 6 => .fsin (readF w)
  | 7 => .fcos (readF w)
  | 8 => .ftanh (readF w)
  | 9 => .fsig (readF w)
  | 10 => .ferf (readF w)
  | _ => .reservedOpcode .f w

/-- The op of a non-idle X slot (R91). -/
def decodeX (w : BitVec 64) : Instr :=
  match (slotField w 0 8).toNat with
  | 1 => .xperm (readXs w)
  | 2 => .xpush (readXs w)
  | 3 => .xpushd (readX w)
  | 4 => .xpushdHi (readX w)
  | 5 => .xpull (readX w)
  | 6 => .xrot (readX w)
  | 7 => .xbc (readX w)
  | 8 => .xup (readX w)
  | 9 => .xdn (readX w)
  | 10 => .xbfly (readX w)
  | 11 => .xtr (readX w)
  | 12 => .xred (readX w)
  | 13 => .xscan (readX w)
  | 14 => .xbal (readX w)
  | _ => .reservedOpcode .x w

/-- The op of a non-idle M slot (R91). -/
def decodeM (w : BitVec 64) : Instr :=
  match (slotField w 0 8).toNat with
  | 1 => .ldG (readM w)
  | 2 => .stG (readM w)
  | 3 => .ldSc (readM w)
  | 4 => .stSc (readM w)
  | 5 => .ldSp (readM w)
  | 6 => .stSp (readM w)
  | 7 => .satom (readM w)
  | 8 => .ldPv (readM w)
  | 9 => .stPv (readM w)
  | 10 => .ldMd (readM w)
  | 11 => .ldGs (readM w)
  | 12 => .atom (readM w)
  | 13 => .atomCas (readM w)
  | 14 => .atomFadd (readM w)
  | 15 => .atomOfa (readM w)
  | 16 => .atomOclose (readM w)
  | 17 => .pf (readM w)
  | 18 => .bind (readM w)
  | 19 => .unbind (readM w)
  | 20 => .acq (readM w)
  | 21 => .rel (readM w)
  | 22 => .fence (readM w)
  | _ => .reservedOpcode .m w

/-- The op of a non-idle A slot (R91). -/
def decodeA (w : BitVec 64) : Instr :=
  match (slotField w 0 8).toNat with
  | 1 => .cpGs (readA w)
  | 2 => .cpSg (readA w)
  | 3 => .cpGg (readA w)
  | 4 => .cpMs (readA w)
  | 5 => .gth (readA w)
  | 6 => .sct (readA w)
  | 7 => .collBc (readA w)
  | 8 => .collRed (readA w)
  | 9 => .collAg (readA w)
  | 10 => .collA2a (readA w)
  | 11 => .tnWr (readA w)
  | 12 => .tnRd (readA w)
  | 13 => .tnLd (readA w)
  | 14 => .sqLd (readA w)
  | 15 => .sqDrp (readA w)
  | 16 => .qInit (readA w)
  | 17 => .qAdvp (readA w)
  | 18 => .qAdvc (readA w)
  | 19 => .qWt (readA w)
  | 20 => .tagTst (readA w)
  | _ => .reservedOpcode .a w

/-- The op of a non-idle T slot (R91). -/
def decodeT (w : BitVec 64) : Instr :=
  match (slotField w 0 8).toNat with
  | 1 => .mma (readT w)
  | 2 => .mmaQ (readT w)
  | 3 => .mmaSp (readT w)
  | 4 => .mmaSt (readT w)
  | 8 => .accZ (readT w)
  | 9 => .accLd (readT w)
  | 10 => .accSt (readT w)
  | 11 => .accCvt (readT w)
  | 12 => .accMv (readT w)
  | 13 => .accAdd (readT w)
  | 16 => .kat (readT w)
  | _ => .reservedOpcode .t w

/-- The op of a non-idle V0 or V1 slot (R91). -/
def decodeV (w : BitVec 64) (unit1 : Bool) : Instr :=
  match (slotField w 0 8).toNat with
  | 1 => .vadd (readV w unit1)
  | 2 => .vsub (readV w unit1)
  | 3 => .vmul (readV w unit1)
  | 4 => .vfma (readV w unit1)
  | 5 => .vfms (readV w unit1)
  | 6 => .vfnma (readV w unit1)
  | 7 => .vmin (readV w unit1)
  | 8 => .vmax (readV w unit1)
  | 9 => .vabs (readV w unit1)
  | 10 => .vneg (readV w unit1)
  | 11 => .vcpys (readV w unit1)
  | 12 => .vcmp (readV w unit1)
  | 13 => .vclass (readV w unit1)
  | 14 => .vcvt (readV w unit1)
  | 15 => .vrnd (readV w unit1)
  | 16 => .vldexp (readV w unit1)
  | 17 => .vdot2 (readV w unit1)
  | 18 => .viadd (readV w unit1)
  | 19 => .visub (readV w unit1)
  | 20 => .vimul (readV w unit1)
  | 21 => .vimulh (readV w unit1)
  | 22 => .vimad (readV w unit1)
  | 23 => .vabsd (readV w unit1)
  | 24 => .vimin (readV w unit1)
  | 25 => .vimax (readV w unit1)
  | 26 => .vicmp (readV w unit1)
  | 27 => .vsadd (readV w unit1)
  | 28 => .vssub (readV w unit1)
  | 29 => .vshl (readV w unit1)
  | 30 => .vshr (readV w unit1)
  | 31 => .vsar (readV w unit1)
  | 32 => .vand (readV w unit1)
  | 33 => .vor (readV w unit1)
  | 34 => .vxor (readV w unit1)
  | 35 => .vnot (readV w unit1)
  | 36 => .vpopc (readV w unit1)
  | 37 => .vclz (readV w unit1)
  | 38 => .vbrev (readV w unit1)
  | 39 => .vbfx (readV w unit1)
  | 40 => .vbfi (readV w unit1)
  | 41 => .vsel (readV w unit1)
  | 42 => .vmov (readV w unit1)
  | 43 => .vmovi (readV w unit1)
  | 44 => .vs2v (readV w unit1)
  | 45 => .vext (readV w unit1)
  | 46 => .vdot4 (readV w unit1)
  | 47 => .vdot8 (readV w unit1)
  | 48 => .vwid (readV w unit1)
  | 49 => .vnar (readV w unit1)
  | 50 => .vpack (readV w unit1)
  | 51 => .vunpk (readV w unit1)
  | 52 => .vqz (readV w unit1)
  | 53 => .vdq (readV w unit1)
  | 54 => .vlane (readV w unit1)
  | 55 => .vgid (readV w unit1)
  | _ => .reservedOpcode (if unit1 then .v1 else .v0) w

/-- The op a slot field holds, or none when the slot is idle (R9, R91). -/
def decode (sl : Slot) (w : BitVec 64) : Option Instr :=
  if slotField w 0 8 = 0 then none
  else some (match sl with
    | .t => decodeT w
    | .m => decodeM w
    | .a => decodeA w
    | .v1 => decodeV w true
    | .v0 => decodeV w false
    | .s => decodeS w
    | .c => decodeC w
    | .f => decodeF w
    | .x => decodeX w)

/-- The slot and slot field of a slot op; none for a step of the device, which has no encoding. -/
def encode (i : Instr) : Option (Slot × BitVec 64) :=
  match i with
  | .br f => some (.c, writeC 1 f)
  | .brc f => some (.c, writeC 2 f)
  | .bri f => some (.c, writeC 3 f)
  | .brd f => some (.c, writeC 4 f)
  | .brx f => some (.c, writeC 5 f)
  | .call f => some (.c, writeC 6 f)
  | .callScalar f => some (.c, writeC 6 f)
  | .ret f => some (.c, writeC 7 f)
  | .join f => some (.c, writeC 8 f)
  | .brk f => some (.c, writeC 9 f)
  | .brkScalar f => some (.c, writeC 9 f)
  | .exit f => some (.c, writeC 10 f)
  | .trap f => some (.c, writeC 11 f)
  | .tret f => some (.c, writeC 12 f)
  | .seq f => some (.c, writeC 13 f)
  | .seqx f => some (.c, writeC 14 f)
  | .swp f => some (.c, writeC 15 f)
  | .chk f => some (.c, writeC 16 f)
  | .barArr f => some (.c, writeC 17 f)
  | .barWt f => some (.c, writeC 18 f)
  | .barSyn f => some (.c, writeC 19 f)
  | .waitT f => some (.c, writeC 20 f)
  | .wmon f => some (.c, writeC 21 f)
  | .yld f => some (.c, writeC 22 f)
  | .spawn f => some (.c, writeC 23 f)
  | .dbg f => some (.c, writeC 24 f)
  | .add f => some (.s, writeS 1 f)
  | .sub f => some (.s, writeS 2 f)
  | .mul f => some (.s, writeS 3 f)
  | .mulh f => some (.s, writeS 4 f)
  | .and f => some (.s, writeS 5 f)
  | .or f => some (.s, writeS 6 f)
  | .xor f => some (.s, writeS 7 f)
  | .shl f => some (.s, writeS 8 f)
  | .shr f => some (.s, writeS 9 f)
  | .sar f => some (.s, writeS 10 f)
  | .rot f => some (.s, writeS 11 f)
  | .min f => some (.s, writeS 12 f)
  | .max f => some (.s, writeS 13 f)
  | .minn f => some (.s, writeS 14 f)
  | .maxn f => some (.s, writeS 15 f)
  | .cmp f => some (.s, writeS 16 f)
  | .sel f => some (.s, writeS 17 f)
  | .mov f => some (.s, writeS 18 f)
  | .li f => some (.s, writeS 19 f)
  | .lea f => some (.s, writeS 20 f)
  | .clz f => some (.s, writeS 21 f)
  | .ctz f => some (.s, writeS 22 f)
  | .popc f => some (.s, writeS 23 f)
  | .brev f => some (.s, writeS 24 f)
  | .bfx f => some (.s, writeS 25 f)
  | .bfi f => some (.s, writeS 26 f)
  | .sext f => some (.s, writeS 27 f)
  | .zext f => some (.s, writeS 28 f)
  | .csrRd f => some (.s, writeS 29 f)
  | .csrWr f => some (.s, writeS 30 f)
  | .csrSet f => some (.s, writeS 31 f)
  | .csrClr f => some (.s, writeS 32 f)
  | .kset f => some (.s, writeS 33 f)
  | .kand f => some (.s, writeS 34 f)
  | .kor f => some (.s, writeS 35 f)
  | .kxor f => some (.s, writeS 36 f)
  | .knot f => some (.s, writeS 37 f)
  | .kpop f => some (.s, writeS 38 f)
  | .kfirst f => some (.s, writeS 39 f)
  | .vadd f => some ((if f.unit1 then .v1 else .v0), writeV 1 f)
  | .vsub f => some ((if f.unit1 then .v1 else .v0), writeV 2 f)
  | .vmul f => some ((if f.unit1 then .v1 else .v0), writeV 3 f)
  | .vfma f => some ((if f.unit1 then .v1 else .v0), writeV 4 f)
  | .vfms f => some ((if f.unit1 then .v1 else .v0), writeV 5 f)
  | .vfnma f => some ((if f.unit1 then .v1 else .v0), writeV 6 f)
  | .vmin f => some ((if f.unit1 then .v1 else .v0), writeV 7 f)
  | .vmax f => some ((if f.unit1 then .v1 else .v0), writeV 8 f)
  | .vabs f => some ((if f.unit1 then .v1 else .v0), writeV 9 f)
  | .vneg f => some ((if f.unit1 then .v1 else .v0), writeV 10 f)
  | .vcpys f => some ((if f.unit1 then .v1 else .v0), writeV 11 f)
  | .vcmp f => some ((if f.unit1 then .v1 else .v0), writeV 12 f)
  | .vclass f => some ((if f.unit1 then .v1 else .v0), writeV 13 f)
  | .vcvt f => some ((if f.unit1 then .v1 else .v0), writeV 14 f)
  | .vrnd f => some ((if f.unit1 then .v1 else .v0), writeV 15 f)
  | .vldexp f => some ((if f.unit1 then .v1 else .v0), writeV 16 f)
  | .vdot2 f => some ((if f.unit1 then .v1 else .v0), writeV 17 f)
  | .viadd f => some ((if f.unit1 then .v1 else .v0), writeV 18 f)
  | .visub f => some ((if f.unit1 then .v1 else .v0), writeV 19 f)
  | .vimul f => some ((if f.unit1 then .v1 else .v0), writeV 20 f)
  | .vimulh f => some ((if f.unit1 then .v1 else .v0), writeV 21 f)
  | .vimad f => some ((if f.unit1 then .v1 else .v0), writeV 22 f)
  | .vabsd f => some ((if f.unit1 then .v1 else .v0), writeV 23 f)
  | .vimin f => some ((if f.unit1 then .v1 else .v0), writeV 24 f)
  | .vimax f => some ((if f.unit1 then .v1 else .v0), writeV 25 f)
  | .vicmp f => some ((if f.unit1 then .v1 else .v0), writeV 26 f)
  | .vsadd f => some ((if f.unit1 then .v1 else .v0), writeV 27 f)
  | .vssub f => some ((if f.unit1 then .v1 else .v0), writeV 28 f)
  | .vshl f => some ((if f.unit1 then .v1 else .v0), writeV 29 f)
  | .vshr f => some ((if f.unit1 then .v1 else .v0), writeV 30 f)
  | .vsar f => some ((if f.unit1 then .v1 else .v0), writeV 31 f)
  | .vand f => some ((if f.unit1 then .v1 else .v0), writeV 32 f)
  | .vor f => some ((if f.unit1 then .v1 else .v0), writeV 33 f)
  | .vxor f => some ((if f.unit1 then .v1 else .v0), writeV 34 f)
  | .vnot f => some ((if f.unit1 then .v1 else .v0), writeV 35 f)
  | .vpopc f => some ((if f.unit1 then .v1 else .v0), writeV 36 f)
  | .vclz f => some ((if f.unit1 then .v1 else .v0), writeV 37 f)
  | .vbrev f => some ((if f.unit1 then .v1 else .v0), writeV 38 f)
  | .vbfx f => some ((if f.unit1 then .v1 else .v0), writeV 39 f)
  | .vbfi f => some ((if f.unit1 then .v1 else .v0), writeV 40 f)
  | .vsel f => some ((if f.unit1 then .v1 else .v0), writeV 41 f)
  | .vmov f => some ((if f.unit1 then .v1 else .v0), writeV 42 f)
  | .vmovi f => some ((if f.unit1 then .v1 else .v0), writeV 43 f)
  | .vs2v f => some ((if f.unit1 then .v1 else .v0), writeV 44 f)
  | .vext f => some ((if f.unit1 then .v1 else .v0), writeV 45 f)
  | .vdot4 f => some ((if f.unit1 then .v1 else .v0), writeV 46 f)
  | .vdot8 f => some ((if f.unit1 then .v1 else .v0), writeV 47 f)
  | .vwid f => some ((if f.unit1 then .v1 else .v0), writeV 48 f)
  | .vnar f => some ((if f.unit1 then .v1 else .v0), writeV 49 f)
  | .vpack f => some ((if f.unit1 then .v1 else .v0), writeV 50 f)
  | .vunpk f => some ((if f.unit1 then .v1 else .v0), writeV 51 f)
  | .vqz f => some ((if f.unit1 then .v1 else .v0), writeV 52 f)
  | .vdq f => some ((if f.unit1 then .v1 else .v0), writeV 53 f)
  | .vlane f => some ((if f.unit1 then .v1 else .v0), writeV 54 f)
  | .vgid f => some ((if f.unit1 then .v1 else .v0), writeV 55 f)
  | .frcp f => some (.f, writeF 1 f)
  | .frsq f => some (.f, writeF 2 f)
  | .fsqrt f => some (.f, writeF 3 f)
  | .fexp2 f => some (.f, writeF 4 f)
  | .flog2 f => some (.f, writeF 5 f)
  | .fsin f => some (.f, writeF 6 f)
  | .fcos f => some (.f, writeF 7 f)
  | .ftanh f => some (.f, writeF 8 f)
  | .fsig f => some (.f, writeF 9 f)
  | .ferf f => some (.f, writeF 10 f)
  | .xperm f => some (.x, writeXs 1 f)
  | .xpush f => some (.x, writeXs 2 f)
  | .xpushd f => some (.x, writeX 3 f)
  | .xpushdHi f => some (.x, writeX 4 f)
  | .xpull f => some (.x, writeX 5 f)
  | .xrot f => some (.x, writeX 6 f)
  | .xbc f => some (.x, writeX 7 f)
  | .xup f => some (.x, writeX 8 f)
  | .xdn f => some (.x, writeX 9 f)
  | .xbfly f => some (.x, writeX 10 f)
  | .xtr f => some (.x, writeX 11 f)
  | .xred f => some (.x, writeX 12 f)
  | .xscan f => some (.x, writeX 13 f)
  | .xbal f => some (.x, writeX 14 f)
  | .ldG f => some (.m, writeM 1 f)
  | .stG f => some (.m, writeM 2 f)
  | .ldSc f => some (.m, writeM 3 f)
  | .stSc f => some (.m, writeM 4 f)
  | .ldSp f => some (.m, writeM 5 f)
  | .stSp f => some (.m, writeM 6 f)
  | .satom f => some (.m, writeM 7 f)
  | .ldPv f => some (.m, writeM 8 f)
  | .stPv f => some (.m, writeM 9 f)
  | .ldMd f => some (.m, writeM 10 f)
  | .ldGs f => some (.m, writeM 11 f)
  | .atom f => some (.m, writeM 12 f)
  | .atomCas f => some (.m, writeM 13 f)
  | .atomFadd f => some (.m, writeM 14 f)
  | .atomOfa f => some (.m, writeM 15 f)
  | .atomOclose f => some (.m, writeM 16 f)
  | .pf f => some (.m, writeM 17 f)
  | .bind f => some (.m, writeM 18 f)
  | .unbind f => some (.m, writeM 19 f)
  | .acq f => some (.m, writeM 20 f)
  | .rel f => some (.m, writeM 21 f)
  | .fence f => some (.m, writeM 22 f)
  | .cpGs f => some (.a, writeA 1 f)
  | .cpSg f => some (.a, writeA 2 f)
  | .cpGg f => some (.a, writeA 3 f)
  | .cpMs f => some (.a, writeA 4 f)
  | .gth f => some (.a, writeA 5 f)
  | .sct f => some (.a, writeA 6 f)
  | .collBc f => some (.a, writeA 7 f)
  | .collRed f => some (.a, writeA 8 f)
  | .collAg f => some (.a, writeA 9 f)
  | .collA2a f => some (.a, writeA 10 f)
  | .tnWr f => some (.a, writeA 11 f)
  | .tnRd f => some (.a, writeA 12 f)
  | .tnLd f => some (.a, writeA 13 f)
  | .sqLd f => some (.a, writeA 14 f)
  | .sqDrp f => some (.a, writeA 15 f)
  | .qInit f => some (.a, writeA 16 f)
  | .qAdvp f => some (.a, writeA 17 f)
  | .qAdvc f => some (.a, writeA 18 f)
  | .qWt f => some (.a, writeA 19 f)
  | .tagTst f => some (.a, writeA 20 f)
  | .mma f => some (.t, writeT 1 f)
  | .mmaQ f => some (.t, writeT 2 f)
  | .mmaSp f => some (.t, writeT 3 f)
  | .mmaSt f => some (.t, writeT 4 f)
  | .accZ f => some (.t, writeT 8 f)
  | .accLd f => some (.t, writeT 9 f)
  | .accSt f => some (.t, writeT 10 f)
  | .accCvt f => some (.t, writeT 11 f)
  | .accMv f => some (.t, writeT 12 f)
  | .accAdd f => some (.t, writeT 13 f)
  | .kat f => some (.t, writeT 16 f)
  | .reservedOpcode sl w => some (sl, w)
  | .computeError _ _ _ _ => none
  | .rerunCompare _ _ _ => none
  | .macCheckFail _ => none
  | .macRefetchDone _ _ => none
  | .uncorrectableData _ _ _ => none
  | .correctedError _ => none
  | .rowSpareSwitch _ _ _ _ => none
  | .fqAnswer _ _ => none
  | .droopCut _ => none
  | .launchDoorbell _ _ _ => none
  | .leaseRevoke _ => none
  | .channelDoorbell _ _ _ => none
  | .channelCopyComplete _ _ _ => none
  | .bar2WindowAccess _ _ _ _ _ => none
  | .lostClr _ => none
  | .sweepStart _ => none
  | .sweepScanEnd _ => none
  | .sweepArrayEnd _ => none
  | .updateGo _ => none
  | .registerWrite _ _ _ _ => none
  | .functionLevelReset _ => none
  | .moduleReset _ => none
  | .thermalThreshold _ _ => none
  | .rackCapMessage _ _ _ _ => none
  | .rackTimeMessage _ _ _ => none
  | .linkDead _ => none
  | .flitLinkState _ => none
  | .flitRead _ => none
  | .flitWrite _ => none
  | .flitAtomic _ => none
  | .flitReadResponse _ => none
  | .flitWriteAck _ => none
  | .flitAtomicResponse _ => none
  | .flitAbortResponse _ => none
  | .flitCollectiveData _ => none
  | .flitMonitorArm _ => none
  | .flitMonitorWake _ => none
  | .laneSpareRetrain _ _ => none
  | .portRetrain _ _ => none
  | .temperatureFall _ _ => none
  | .flitReservedType _ => none
  | .tretReplay => none
  | .tretSkip => none
  | .tretGoto => none
  | .tretExit => none
  | .tretPark => none
  | .tretEnd => none
  | .resultWriteback => none
  | .variableLatencyResult => none
  | .ldGsArrival => none
  | .stokerRefill => none
  | .partitionPreload => none
  | .decodeTableRebuild => none
  | .sequencerIssue => none
  | .splitMerge => none
  | .aOpStart => none
  | .aOpComplete => none
  | .matrixStep => none
  | .mmaStInstanceStart => none
  | .tileShadowDone => none
  | .checkpointClose => none
  | .counterWindowSlide => none
  | .translationFault => none
  | .loggedReplay => none
  | .fetchRetry => none
  | .handlerStart => none
  | .debugStop => none
  | .claimPlace => none
  | .revolutionBoundary => none
  | .limiterRelease => none
  | .meadowRefreshWindow => none
  | .monitorWake => none
  | .monitorTimeout => none
  | .swapOut => none
  | .teamReadyToReturn => none
  | .swapIn => none
  | .groupRetirement => none
  | .launchAccept => none
  | .dependenceWake => none
  | .teamPlacement => none
  | .ageingExpiry => none
  | .meadowLoad => none
  | .priorityPreemptTrigger => none
  | .timeSliceExpiry => none
  | .preemption => none
  | .contextRestore => none
  | .launchCompletion => none
  | .freshBufferRewrap => none
  | .haltDrainDone => none
  | .dumpWrite => none
  | .identify => none
  | .summary => none
  | .lqCreate => none
  | .lqDelete => none
  | .worldAssign => none
  | .worldRoot => none
  | .invalidate => none
  | .bufReg => none
  | .bufUnreg => none
  | .meadowAssign => none
  | .preempt => none
  | .abort => none
  | .powerCeiling => none
  | .boost => none
  | .funcConfig => none
  | .chCreate => none
  | .chResync => none
  | .chDelete => none
  | .aperture => none
  | .domainConfig => none
  | .dbgRead => none
  | .dbgResume => none
  | .leaseEnd => none
  | .sweepAutoStart => none
  | .sweepDrainEnd => none
  | .sweepFilingDone => none
  | .updateActivate => none
  | .heartbeatTimeout => none
  | .thermalStepDown => none
  | .capExpiry => none
  | .drainRoundEnd => none
  | .remoteRequestTimeout => none
  | .emberRingTake => none
  | .releasePushComplete => none
  | .walkComplete => none
  | .interruptHoldoffExpiry => none
  | .limiterHoldEnd => none
  | .damperRestart => none
  | .powerLoss => none
  | .refusedEntryIssue => none
  | .streamFetchFault => none

/-- Where a slot lies in a control word: lowest bit and width (R9). -/
def slotPlace (sl : Slot) : Nat × Nat :=
  match sl with
  | .t => (448, 64)
  | .m => (384, 64)
  | .a => (328, 56)
  | .v1 => (264, 64)
  | .v0 => (200, 64)
  | .s => (152, 48)
  | .c => (112, 40)
  | .f => (80, 32)
  | .x => (48, 32)

/-- The slot field of a control word, as the low bits of 64. -/
def slotOf (w : BitVec 512) (sl : Slot) : BitVec 64 :=
  (w.extractLsb' (slotPlace sl).1 (slotPlace sl).2).setWidth 64

/-- The shared field of a control word (R11). -/
def sharedOf (w : BitVec 512) : BitVec 48 := w.extractLsb' 0 48

/-- The nine slots in the order of their places, from the top of the control word (R9). -/
def allSlots : List Slot := [.t, .m, .a, .v1, .v0, .s, .c, .f, .x]

/-- The ops of a control word, in the order of its slots from the top (R9). -/
def decodeBundle (w : BitVec 512) : List (Slot × Instr) :=
  allSlots.filterMap fun sl => (decode sl (slotOf w sl)).map fun i => (sl, i)

/-- A control word with one slot field set and the rest idle. -/
def placeSlot (sl : Slot) (w : BitVec 64) : BitVec 512 := (w.setWidth 512) <<< (slotPlace sl).1

/-- Parity of a word. -/
def parityOf (n : Nat) (w : BitVec n) : Bool := (List.range n).foldl (fun b i => b != w.getLsbD i) false

/-- The PAR bits a control word must carry (R11). -/
def parityBits (w : BitVec 512) : BitVec 8 :=
  (List.range 8).foldl (fun acc i =>
    let p := if i = 0 then parityOf 56 (w.extractLsb' 48 16 ++ w.extractLsb' 0 40)
             else parityOf 64 (w.extractLsb' (64 * i) 64)
    if p then acc ||| BitVec.twoPow 8 i else acc) 0

/-- A control word with its PAR field set (R11). -/
def withParity (w : BitVec 512) : BitVec 512 :=
  (w &&& ~~~((0xFF : BitVec 512) <<< 40)) ||| ((parityBits w).setWidth 512 <<< 40)

/-- What stands at a place of the index stream (R65). -/
inductive StreamForm where
  /-- A record: index, length in bytes, number of literals. -/
  | record (index len lits : Nat)
  | pad
  | reserved
  /-- More bytes are needed than were given. -/
  | short
  deriving DecidableEq, Repr

/-- The literal count that LL gives (R65). -/
def litCount (ll : Nat) : Nat := if ll = 3 then 4 else ll

/-- The form of the record whose bytes begin the list (R65). -/
def decodeRecord (bs : List Byte) : StreamForm :=
  match bs with
  | [] => .short
  | b0 :: rest =>
    let x := b0.toNat
    if x < 0x80 then .record x 1 0
    else if x < 0xC0 then
      match rest with
      | [] => .short
      | b1 :: _ =>
        let n := litCount (x / 16 % 4)
        .record (x % 16 * 256 + b1.toNat) (2 + 4 * n) n
    else if x < 0xE0 then
      match rest with
      | b1 :: b2 :: _ =>
        let n := litCount (x / 8 % 4)
        .record (x % 8 * 65536 + b1.toNat * 256 + b2.toNat) (3 + 4 * n) n
      | _ => .short
    else if x = 0xFF then .pad
    else .reserved

/-- A 32-bit little-endian word from the front of a byte list (R6). -/
def wordOfBytes (bs : List Byte) : W32 :=
  (bs.getD 3 0) ++ (bs.getD 2 0) ++ (bs.getD 1 0) ++ (bs.getD 0 0)

/-- The literals L0 up of a record with `n` of them (R65). -/
def recordLits (bs : List Byte) (len n : Nat) : List W32 :=
  (List.range n).map fun i => wordOfBytes (bs.drop (len - 4 * n + 4 * i))

/-- The instruction an opcode-table word stands for: F and X share 32-bit words, and a word an F op could
carry is read as F (log entry 16); 64 bits are read as V0, 512 as a bundle of one op. -/
def decodeTableWord (nbits w : Nat) : Option Instr :=
  let b := BitVec.ofNat 64 w
  if nbits = 32 then
    if 0 < w % 256 && w % 256 ≤ 10 && !(w.testBit 31) && w / 67108864 % 32 ≤ 2 then decode .f b else decode .x b
  else if nbits = 40 then decode .c b
  else if nbits = 48 then decode .s b
  else if nbits = 56 then decode .a b
  else if nbits = 64 then decode .v0 b
  else if nbits = 512 then
    match decodeBundle (BitVec.ofNat 512 w) with
    | [(_, i)] => some i
    | _ => none
  else none

end Sys2Proof
end

