-- ==== Sys2Proof/Config.lean ====
section
/-! DEFINITION. What the spec leaves open: constants with no body, applied to a fresh counter or to the operands
the value depends on, and the figures of R1 the model's rules use. -/

namespace Sys2Proof.Config

/-- A fresh natural number: representative latencies (R2, R264) and choices the spec leaves to the device. -/
opaque freeNat : Nat → Nat
/-- A fresh word: values the spec leaves undefined after the machine goes on (R115, R193, R267). -/
opaque freeWord : Nat → W32
/-- A fresh byte. -/
opaque freeByte : Nat → Byte
/-- F-slot results inside the error bound of R153: function number, format code, operand bits. -/
opaque sfuBits : Nat → Nat → Nat → Nat
/-- The filter revision that the stoker microcode fixes (R83), by die. -/
opaque filterRevision : Nat → BitVec 8
/-- The die's meadow calendar offset (R272), 0 to 20,479 after the reduction the accessor makes. -/
opaque moff : Nat → Nat
/-- The bytes that the security engine draws for world keys, in the order of the draws (R333). -/
opaque keyByte : Nat → Byte
/-- Bolulma's root public key, from the configuration's identity block (R398, R401). -/
opaque rootKey : List Byte
/-- What an update's payload holds for its part, as numbers: the price table, or the safe cap, the threshold block's
14 numbers and the health block (R400, R401). -/
opaque payloadWords : Nat → List Byte → List Nat
/-- The damper firmware's SHARE of a stop in a revolution (R251): revolution, hearth. -/
opaque share : Nat → Nat → Nat
/-- Bulk per revolution that the damper withholds from a die to hold measured power under the cap: revolution, die (R336). -/
opaque bulkLess : Nat → Nat → Nat
/-- The damper's thermal ceiling of the module in watts, by revolution; none where it sets none (R337). -/
opaque thermalCap : Nat → Option Nat
/-- The serial number, enterprise number and device revision of R366. -/
opaque identityByte : Nat → Byte
/-- The MCTP endpoint of the power block from which cap messages are accepted (R405). -/
opaque capEndpoint : Nat

/-- Hearths exposed (R1). -/
abbrev hearthCount : Nat := 512
/-- Group slots of a hearth (R234). -/
abbrev slotCount : Nat := 16
/-- Split entries of a group (R234). -/
abbrev splitCount : Nat := 4
/-- Embers a pool holds at most (R253). -/
abbrev poolCap : Nat := 64
/-- Entries of a hearth's decode table (R71). -/
abbrev decodeEntries : Nat := 2048
/-- T ops an engine queue holds (R204). -/
abbrev tQueue : Nat := 8
/-- Range-scoreboard entries of a hearth (R192). -/
abbrev boardEntries : Nat := 32
/-- Queued A ops of a group (R188). -/
abbrev aQueue : Nat := 64
/-- Operand-log entries of a group (R296). -/
abbrev logEntries : Nat := 16
/-- Bindings of a context (R184). -/
abbrev bindingCount : Nat := 4096
/-- Monitors a hearth holds (R121). -/
abbrev hearthMonitors : Nat := 32
/-- Monitors a home L2 holds (R284). -/
abbrev homeMonitors : Nat := 512
/-- Pending ordered contributions a stove L2 holds (R181). -/
abbrev contributionCap : Nat := 65536
/-- Requests an L1 accepts in a cycle (R265). -/
abbrev acceptWidth : Nat := 4
/-- Miss entries of an L1 (R266). -/
abbrev missEntries : Nat := 256

end Sys2Proof.Config
end

