-- ==== Sys2Proof/Machine/Crypto.lean ====
section
/-! DEFINITION. The published algorithms that the spec names without defining them: SHA3-512 and SHAKE (FIPS 202), ML-DSA-87
verification (FIPS 204), AES-256 (FIPS 197) and GMAC (SP 800-38D), for R1, R333, R334 and R398. PRESUMED, log entry 110. -/

namespace Sys2Proof.Machine

/-! ### Keccak (FIPS 202) -/

/-- Rotation counts of the lanes, lane (x, y) at x + 5y. -/
def keccakRot : List Nat :=
  [0, 1, 62, 28, 27, 36, 44, 6, 55, 20, 3, 10, 43, 25, 39, 41, 45, 15, 21, 8, 18, 2, 61, 56, 14]

/-- The constants of the 24 rounds. -/
def keccakConsts : List W64 :=
  [0x0000000000000001, 0x0000000000008082, 0x800000000000808A, 0x8000000080008000, 0x000000000000808B, 0x0000000080000001] ++
  [0x8000000080008081, 0x8000000000008009, 0x000000000000008A, 0x0000000000000088, 0x0000000080008009, 0x000000008000000A] ++
  [0x000000008000808B, 0x800000000000008B, 0x8000000000008089, 0x8000000000008003, 0x8000000000008002, 0x8000000000000080] ++
  [0x000000000000800A, 0x800000008000000A, 0x8000000080008081, 0x8000000000008080, 0x0000000080000001, 0x8000000080008008]

/-- One round on the 25 lanes. -/
def keccakRound (a : List W64) (rc : W64) : List W64 :=
  let col := (List.range 5).map fun x => (List.range 5).foldl (fun s y => s ^^^ a.getD (x + 5 * y) 0) 0
  let d := (List.range 5).map fun x => col.getD ((x + 4) % 5) 0 ^^^ (col.getD ((x + 1) % 5) 0).rotateLeft 1
  let t := a.mapIdx fun i w => w ^^^ d.getD (i % 5) 0
  let b := (List.range 25).map fun i =>
    let j := (i % 5 + 3 * (i / 5)) % 5 + 5 * (i % 5)
    (t.getD j 0).rotateLeft (keccakRot.getD j 0)
  let c := b.mapIdx fun i w => w ^^^ (~~~(b.getD ((i + 1) % 5 + 5 * (i / 5)) 0) &&& b.getD ((i + 2) % 5 + 5 * (i / 5)) 0)
  c.mapIdx fun i w => if i = 0 then w ^^^ rc else w

/-- Keccak-f[1600]. -/
def keccakF (a : List W64) : List W64 := keccakConsts.foldl keccakRound a

/-- Eight bytes as a lane. -/
def laneOfBytes (bs : List Byte) : W64 := bs.foldr (fun b w => w <<< 8 ||| b.setWidth 64) 0
/-- The bytes of the lanes. -/
def bytesOfLanes (a : List W64) : List Byte := a.flatMap fun (w : W64) => (List.range 8).map fun i => BitVec.setWidth 8 (w >>> (8 * i))

/-- A message with its suffix, filled up to whole blocks of `rate` bytes. -/
def keccakPad (rate : Nat) (suffix : Byte) (m : List Byte) : List Byte :=
  let n := rate - m.length % rate
  if n = 1 then m ++ [suffix ||| 0x80] else m ++ [suffix] ++ List.replicate (n - 2) 0 ++ [0x80]

/-- The sponge after a message. -/
def absorb (rate : Nat) (suffix : Byte) (m : List Byte) : List W64 :=
  let p := keccakPad rate suffix m
  (List.range (p.length / rate)).foldl (fun a i =>
    let block := (p.drop (rate * i)).take rate
    keccakF (a.mapIdx fun j w => if 8 * j < rate then w ^^^ laneOfBytes ((block.drop (8 * j)).take 8) else w)) (List.replicate 25 0)

/-- The first `blocks` blocks that a sponge gives. -/
def squeeze (rate : Nat) : Nat → List W64 → List Byte
  | 0, _ => []
  | n + 1, a => (bytesOfLanes a).take rate ++ squeeze rate n (keccakF a)

/-- SHA3-512. -/
def sha3of512 (m : List Byte) : List Byte := (squeeze 72 1 (absorb 72 0x06 m)).take 64
/-- SHAKE128, `blocks` blocks of 168 bytes. -/
def shake128 (m : List Byte) (blocks : Nat) : List Byte := squeeze 168 blocks (absorb 168 0x1F m)
/-- SHAKE256, `blocks` blocks of 136 bytes. -/
def shake256 (m : List Byte) (blocks : Nat) : List Byte := squeeze 136 blocks (absorb 136 0x1F m)

/-! ### ML-DSA-87 verification (FIPS 204) -/

/-- The modulus q. -/
def dsaQ : Nat := 8380417
/-- γ1, γ2, and β of ML-DSA-87. -/
def dsaGamma1 : Nat := 2 ^ 19
def dsaGamma2 : Nat := 261888
def dsaBeta : Nat := 120

/-- A number of 8 bits read from the other end. -/
def bitRev8 (n : Nat) : Nat := (List.range 8).foldl (fun r i => r + (n / 2 ^ i % 2) * 2 ^ (7 - i)) 0
/-- The m-th factor of the transform. -/
def dsaZeta (m : Nat) : Nat := 1753 ^ bitRev8 m % dsaQ

/-- One layer of the forward transform, on pairs `len` apart. -/
def nttLayer (w : List Nat) (len : Nat) : List Nat :=
  (List.range (128 / len)).flatMap fun k =>
    let z := dsaZeta (128 / len + k)
    let c := (w.drop (2 * len * k)).take (2 * len)
    let hi := (c.drop len).map fun x => z * x % dsaQ
    (List.zipWith (fun a b => (a + b) % dsaQ) (c.take len) hi) ++ List.zipWith (fun a b => (a + dsaQ - b) % dsaQ) (c.take len) hi
/-- The transform of a polynomial. -/
def dsaNtt (w : List Nat) : List Nat := [128, 64, 32, 16, 8, 4, 2, 1].foldl nttLayer w

/-- One layer of the inverse transform. -/
def nttBack (w : List Nat) (len : Nat) : List Nat :=
  (List.range (128 / len)).flatMap fun k =>
    let z := dsaQ - dsaZeta (2 * (128 / len) - 1 - k)
    let c := (w.drop (2 * len * k)).take (2 * len)
    (List.zipWith (fun a b => (a + b) % dsaQ) (c.take len) (c.drop len)) ++
      List.zipWith (fun a b => z * ((a + dsaQ - b) % dsaQ) % dsaQ) (c.take len) (c.drop len)
/-- The inverse transform. -/
def dsaInverse (w : List Nat) : List Nat :=
  ([1, 2, 4, 8, 16, 32, 64, 128].foldl nttBack w).map fun x => 8347681 * x % dsaQ

/-- A little-endian number. -/
def littleNat (bs : List Byte) : Nat := bs.foldr (fun b n => b.toNat + 256 * n) 0
/-- 256 fields of `k` bits. -/
def unpackBits (k : Nat) (bs : List Byte) : List Nat := let n := littleNat bs; (List.range 256).map fun i => n / 2 ^ (k * i) % 2 ^ k

/-- An entry of the matrix A, by rejection. -/
def dsaEntry (rho : List Byte) (r s : Nat) : List Nat :=
  let bs := shake128 (rho ++ [BitVec.ofNat 8 s, BitVec.ofNat 8 r]) 12
  (((List.range 672).map fun i =>
    (bs.getD (3 * i) 0).toNat + 256 * (bs.getD (3 * i + 1) 0).toNat + 65536 * ((bs.getD (3 * i + 2) 0).toNat % 128)).filter
      fun z => decide (z < dsaQ)).take 256

/-- The challenge polynomial with 60 coefficients of 1 or -1. -/
def dsaBall (seed : List Byte) : List Nat :=
  let bs := shake256 seed 8
  let signs := littleNat (bs.take 8)
  ((bs.drop 8).foldl (fun (r : Nat × List Nat) b =>
    if 256 ≤ r.1 || r.1 < b.toNat then r
    else
      let c := r.2.set r.1 (r.2.getD b.toNat 0)
      (r.1 + 1, c.set b.toNat (if signs / 2 ^ (r.1 + 60 - 256) % 2 = 1 then dsaQ - 1 else 1))) (196, List.replicate 256 0)).2

/-- The hint polynomials, none when their encoding is malformed. -/
def dsaHints (y : List Byte) : Option (List (List Nat)) :=
  let ends := (List.range 9).map fun i => if i = 0 then 0 else (y.getD (74 + i) 0).toNat
  let sets := (List.range 8).map fun i => ((y.take 75).take (ends.getD (i + 1) 0)).drop (ends.getD i 0) |>.map BitVec.toNat
  let ok := (List.range 8).all fun i => decide (ends.getD i 0 ≤ ends.getD (i + 1) 0) && decide (ends.getD (i + 1) 0 ≤ 75) &&
    (List.zipWith (fun a b => decide (a < b)) (sets.getD i []) ((sets.getD i []).drop 1)).all id
  if ok && ((y.take 75).drop (ends.getD 8 0)).all (· == 0) then some sets else none

/-- The high bits of a coefficient under a hint. -/
def dsaUseHint (hint : Bool) (r : Nat) : Nat :=
  let low := r % (2 * dsaGamma2)
  let neg := decide (dsaGamma2 < low)
  let top := if neg then r + (2 * dsaGamma2 - low) else r - low
  let wrapped := top = dsaQ - 1
  let r1 := if wrapped then 0 else top / (2 * dsaGamma2)
  let positive := !neg && low != 0 && !wrapped
  if !hint then r1 else if positive then (r1 + 1) % 16 else (r1 + 15) % 16

/-- ML-DSA-87: a public key of 2,592 bytes, a message with the empty context, and a signature of 4,627 bytes. -/
def dsaVerify (pk msg sig : List Byte) : Bool :=
  if pk.length ≠ 2592 || sig.length ≠ 4627 then false
  else
    let rho := pk.take 32
    let t1 := (List.range 8).map fun i => unpackBits 10 ((pk.drop (32 + 320 * i)).take 320)
    let seed := sig.take 64
    let z := (List.range 7).map fun i => (unpackBits 20 ((sig.drop (64 + 640 * i)).take 640)).map fun v => (dsaQ + dsaGamma1 - v) % dsaQ
    let small := z.all fun p => p.all fun x =>
      decide (x < dsaGamma1 - dsaBeta) || decide (dsaQ - x < dsaGamma1 - dsaBeta)
    match dsaHints (sig.drop 4544) with
    | none => false
    | some hints =>
      let mu := (shake256 ((shake256 pk 1).take 64 ++ [0, 0] ++ msg) 1).take 64
      let c := dsaNtt (dsaBall seed)
      let zs := z.map dsaNtt
      let w1 := (List.range 8).map fun r =>
        let az := (List.range 7).foldl (fun acc s =>
          List.zipWith (fun x y => (x + y) % dsaQ) acc (List.zipWith (fun x y => x * y % dsaQ) (dsaEntry rho r s) (zs.getD s [])))
          (List.replicate 256 0)
        let ct := List.zipWith (fun x y => x * y % dsaQ) c (dsaNtt ((t1.getD r []).map fun x => x * 2 ^ 13 % dsaQ))
        (dsaInverse (List.zipWith (fun x y => (x + dsaQ - y) % dsaQ) az ct)).mapIdx fun i x => dsaUseHint ((hints.getD r []).contains i) x
      let packed := w1.flatMap fun p => (List.range 128).map fun i => BitVec.ofNat 8 (p.getD (2 * i) 0 + 16 * p.getD (2 * i + 1) 0)
      small && (shake256 (mu ++ packed) 1).take 64 == seed

/-! ### AES-256 (FIPS 197) -/

/-- Twice a byte in the field of AES. -/
def aesDouble (a : Byte) : Byte := if a.getLsbD 7 then a <<< 1 ^^^ 0x1B else a <<< 1
/-- Product of two bytes in the field of AES. -/
def aesMul (a b : Byte) : Byte :=
  ((List.range 8).foldl (fun (r : Byte × Byte) i => (if b.getLsbD i then r.1 ^^^ r.2 else r.1, aesDouble r.2)) (0, a)).1
/-- The substitution of a byte: its inverse, and the affine map. -/
def aesSub (a : Byte) : Byte :=
  let sq := fun (x : Byte) => aesMul x x
  let inv := ((List.range 6).foldl (fun (r : Byte × Byte) _ => let p := sq r.2; (aesMul r.1 p, p)) (sq a, sq a)).1
  inv ^^^ inv.rotateLeft 1 ^^^ inv.rotateLeft 2 ^^^ inv.rotateLeft 3 ^^^ inv.rotateLeft 4 ^^^ 0x63

/-- Exclusive or of byte lists. -/
def xorBytes (a b : List Byte) : List Byte := List.zipWith (· ^^^ ·) a b

/-- The words of the key schedule after the first eight, latest first. -/
def aesSchedule (key : List Byte) : List (List Byte) :=
  let start := ((List.range 8).map fun i => (key.drop (4 * i)).take 4).reverse
  ((List.range 52).foldl (fun (r : List (List Byte) × Byte) n =>
    let i := n + 8
    let prev := r.1.headD []
    let t := if i % 8 = 0 then xorBytes ((prev.drop 1 ++ prev.take 1).map aesSub) [r.2, 0, 0, 0]
      else if i % 8 = 4 then prev.map aesSub else prev
    (xorBytes (r.1.getD 7 []) t :: r.1, if i % 8 = 0 then aesDouble r.2 else r.2)) (start, 1)).1

/-- The 15 round keys. -/
def aesKeys (key : List Byte) : List (List Byte) :=
  let ws := (aesSchedule key).reverse
  (List.range 15).map fun i => ((ws.drop (4 * i)).take 4).flatten

/-- Rows of the state shift. -/
def aesShift (s : List Byte) : List Byte := (List.range 16).map fun i => s.getD ((i + 4 * (i % 4)) % 16) 0
/-- One column is mixed. -/
def aesMix (c : List Byte) : List Byte :=
  (List.range 4).map fun i =>
    aesDouble (c.getD i 0) ^^^ (aesDouble (c.getD ((i + 1) % 4) 0) ^^^ c.getD ((i + 1) % 4) 0) ^^^ c.getD ((i + 2) % 4) 0 ^^^ c.getD ((i + 3) % 4) 0

/-- AES-256 of a block of 16 bytes. -/
def aes256 (key block : List Byte) : List Byte :=
  let ks := aesKeys key
  let s := (List.range 13).foldl (fun s n =>
    let s := aesShift (s.map aesSub)
    xorBytes ((List.range 4).flatMap fun i => aesMix ((s.drop (4 * i)).take 4)) (ks.getD (n + 1) [])) (xorBytes block (ks.getD 0 []))
  xorBytes (aesShift (s.map aesSub)) (ks.getD 14 [])

/-! ### GMAC (SP 800-38D) -/

/-- A big-endian number. -/
def bigNat (bs : List Byte) : Nat := bs.foldl (fun n b => 256 * n + b.toNat) 0
/-- 16 bytes, big-endian. -/
def bigBytes (n : Nat) : List Byte := (List.range 16).map fun i => BitVec.ofNat 8 (n / 256 ^ (15 - i))
/-- Product in the field of GHASH, its bits counted from the left. -/
def ghashMul (x y : BitVec 128) : BitVec 128 :=
  ((List.range 128).foldl (fun (r : BitVec 128 × BitVec 128) i =>
    (if x.getLsbD (127 - i) then r.1 ^^^ r.2 else r.1, if r.2.getLsbD 0 then r.2 >>> 1 ^^^ (0xE1 <<< 120) else r.2 >>> 1)) (0, y)).1
/-- GHASH of whole blocks. -/
def ghash (key : BitVec 128) (bs : List Byte) : BitVec 128 :=
  (List.range (bs.length / 16)).foldl (fun s i => ghashMul (s ^^^ BitVec.ofNat 128 (bigNat ((bs.drop (16 * i)).take 16))) key) 0

/-- AES-256-GMAC of data under an IV of 12 bytes. -/
def gmac (key iv data : List Byte) : List Byte :=
  let h := BitVec.ofNat 128 (bigNat (aes256 key (List.replicate 16 0)))
  let full := data ++ List.replicate ((16 - data.length % 16) % 16) 0 ++ bigBytes (8 * data.length * 2 ^ 64)
  xorBytes (aes256 key (iv ++ [0, 0, 0, 1])) (bigBytes (ghash h full).toNat)

end Sys2Proof.Machine
end

