-- ==== Sys2Proof/Machine/CoreState.lean ====
section
/-! DEFINITION. The state of the hearths: groups, splits, team parts, decode tables, and the ops in flight. -/

namespace Sys2Proof.Machine

/-- A register a bundle can name (R17): s0 to s31, a0 to a15, v0 to v63, k0 to k15. -/
inductive Reg where
  | s (n : Nat)
  | a (n : Nat)
  | v (n : Nat)
  | k (n : Nat)
  deriving DecidableEq, Repr

/-- States of a split entry, in the order of their codes 0 to 9 (R238). -/
inductive SplitState where
  | free | ready | held | join | barrier | ember | longwait | parked | trapped | swapped
  deriving DecidableEq, Repr

/-- A trap raised for a split, as the handler sees it (R287 to R290). -/
structure TrapEv where
  slot : Nat
  split : Nat
  code : Nat
  origin : Nat
  pc : Nat
  mask : LaneMask
  info0 : W64
  info1 : W64
  info2 : W64
  info3 : W64
  cycle : Nat
  /-- The iteration of the sequencer run that the op belonged to (R110). -/
  iter : Option Nat := none
  deriving DecidableEq, Repr

/-- A modulo-sequencer run (R109 to R113). -/
structure SeqRun where
  first : Nat
  last : Nat
  ii : Nat
  stages : Nat
  trip : Nat
  /-- Body cycle t of R110. -/
  t : Nat
  vrotStart : Nat
  /-- Operand code of the stop scalar of seqx. -/
  stop : Option Nat
  /-- Stream offset and next offset of each body record, first to last. -/
  body : List (Nat × Nat)
  deriving DecidableEq, Repr

/-- A split-table entry (R237), with its private scalars (R239) and what hangs on it. -/
structure SplitE where
  mask : LaneMask
  /-- Identities of the region records, top first; the first eight are inline (R243). -/
  ids : List Nat
  /-- Region-area entries of the spilled records, highest first (R242). -/
  spill : List Nat
  offset : Nat
  state : SplitState
  age : Nat
  waitarg : W32
  waitstart : Nat
  bank : List W64
  seqRun : Option SeqRun
  /-- Later traps held for a TRAPPED split (R288). -/
  held : List TrapEv
  /-- The mask the next bundle's active masks are ANDed with (REPLAY, R293). -/
  rmask : LaneMask
  /-- Cycle in which yld keeps the split from issuing (R122). -/
  noIssue : Option Nat
  /-- The split this one was divided from and the cycle of the division (R101). -/
  born : Option (Nat × Nat)
  /-- Parked by a stop (R305) or by the handler's selection (R292), not by a fetch. -/
  stopped : Bool
  /-- Parked by a fetch: the cycle at which it is tried again without an event (R297). -/
  refetch : Option Nat
  /-- State held before a swap, with its WAITARG (R238, R259). -/
  before : SplitState
  beforeArg : W32 := 0
  /-- Armed monitor: world and 256-byte physical line, and the cycle its timeout ends (R121, R284). -/
  monitor : Option (Nat × Option Nat)
  /-- Cycle of the split's most recent load, with the lines it touched (R121). -/
  loads : List (Nat × Nat)
  /-- Offset of the record whose op the split waits in. -/
  waitOff : Nat
  /-- A resumption lets the split pass the breakpoint it stands at (R305). -/
  passBrk : Bool
  /-- The checkpoint that the split's next bundle must follow has closed (R301). -/
  ckptOk : Bool
  /-- The dictionary index whose refill the split waits for (R74). -/
  missing : Option Nat := none
  /-- The entries of the body that the seq at which it waits has to load (R109). -/
  wants : List Nat := []
  /-- Within a sequencer run, a record that REPLAY issues once before the schedule goes on, with its iteration (R293). -/
  replay : Option (Nat × Option Nat) := none
  deriving DecidableEq, Repr

/-- An entry of the identity table (R240). -/
structure Ident where
  ident : Nat
  join : Nat
  owed : LaneMask
  present : LaneMask
  count : Nat
  deriving DecidableEq, Repr

/-- A deferred side, as the hardware put it into the region area (R242). -/
structure Side where
  hdr : Nat
  slo : Nat
  shi : Nat
  spill : List Nat
  ids : List Nat
  offset : Nat
  mask : LaneMask
  bank : List W64
  born : Option (Nat × Nat)
  /-- The side's entries are written in memory. -/
  stored : Bool
  deriving DecidableEq, Repr

/-- An order tag (R189, R191). -/
structure Tag where
  count : Nat
  /-- Trap code, stream offset and virtual address of the first failure. -/
  failed : Option (Nat × Nat × W64)
  deriving DecidableEq, Repr

/-- A held global store (R279): its bytes by physical location, in issue order. -/
structure Gated where
  seq : Nat
  split : Nat
  world : Nat
  va : W64
  /-- Target kind and physical address of R344. -/
  tgt : Nat
  dev : Nat
  pa : Nat
  nc : Bool
  bytes : List Byte
  /-- The engine op that wrote it; 0 for a store. -/
  eng : Nat := 0
  deriving DecidableEq, Repr

/-- Kinds of logged and ordered accesses (R161 to R187, R242, R123, R121, R198). -/
inductive AccKind where
  | ldG | stG | ldSc | stSc | ldPv | stPv | ldMd | ldGs
  | atom | atomCas | atomFadd | atomOfa | atomOclose
  | pf | acq | rel | fence | spawn | wmon | bind | regionWrite | regionRead | flueWait
  deriving DecidableEq, Repr

/-- An access after issue: its operand-log entry (R296) and what has become of it. -/
structure Access where
  id : Nat
  kind : AccKind
  h : Nat
  slot : Nat
  split : Nat
  off : Nat
  seq : Nat
  cycle : Nat
  sq : Bool
  /-- The op's active mask, for a trap it takes. -/
  mask : LaneMask
  ord : Nat
  scope : Nat
  func : Nat
  width : Nat
  sx : Bool
  /-- Lanes (or words, for scalar forms entry 0) still to be translated and carried out. -/
  todo : LaneMask
  /-- Lanes that wait for the host's answer. -/
  faulted : LaneMask
  /-- Pages of faulted lanes that the host has answered as mapped (R352). -/
  replay : List Nat
  addrs : List W64
  vals : List Nat
  got : List Nat
  dst : List Reg
  /-- Lanes carried out: the others keep their old value. -/
  done : LaneMask
  /-- Named tags of rel and fence, the barrier of ld.gs, or the flue of q.wt. -/
  arg : Nat
  /-- How far its release is: 0 not begun, 1 pushed to the homes and not yet confirmed, 2 done (R280). -/
  stage : Nat
  /-- Lanes whose remote request is outstanding. -/
  remote : LaneMask
  /-- It is translated and carried out no earlier than this cycle. -/
  ready : Nat
  /-- Every lane is bound: the cycle its result lands, at the earliest (R23). -/
  due : Option Nat
  /-- Lanes that have passed translation (R296). -/
  walked : LaneMask := 0
  /-- In the read log: a rollback has discarded the op, and its rerun takes these results and sends nothing again (R301,
  R304). -/
  orphan : Bool := false
  /-- Lanes of an orphan whose request was lost. -/
  lost : LaneMask := 0
  /-- Lines whose requests the L1 has accepted (R265). -/
  accepted : List Nat := []
  /-- Iteration of the sequencer run that issued it. -/
  iter : Option Nat := none
  deriving DecidableEq, Repr

/-- An accumulator tile: 128 rows of 128 words (R17). -/
abbrev Tile := List Vec

/-- A byte of scratchpad (space 0) or private memory (space 1) as it stood before an overwrite (R300); `after` once a
checkpoint is asked for and the write belongs to the next interval. -/
structure Undo where
  after : Bool
  space : Nat
  addr : Nat
  old : Byte
  deriving DecidableEq, Repr

/-- A flue (R199); q7 counts entries (R201). -/
structure Flue where
  base : Nat
  size : Nat
  p : Nat
  c : Nat
  pq : Nat
  cq : Nat
  /-- Entries of q7 that a failed sq.ld left: position, count, and its cause (its code, and INFO1 times 256), offset and address
  (R221, R287). -/
  bad : List (Nat × Nat × Nat × Nat × W64)
  deriving DecidableEq, Repr

/-- What a checkpoint saves of a group (R300 to R302). -/
structure GroupSave where
  v : List Vec
  k : List LaneMask
  sh : List W64
  a : List W64
  fflags : BitVec 5
  isat : Bool
  fctl : BitVec 3
  vrot : Nat
  seqIter : W64
  issues : W64
  splits : List SplitE
  idents : List Ident
  regionCtr : Nat
  areaFree : BitVec 256
  sides : List Side
  tags : List Tag
  tiles : List (Nat × Tile)
  stCount : Nat
  flues : List (Option Flue)
  seq : Nat
  /-- Cycle of the boundary. -/
  cycle : Nat
  deriving DecidableEq, Repr

/-- A resident group (R17, R235). -/
structure Group where
  h : Nat
  slot : Nat
  part : Nat
  /-- %GROUP. -/
  num : Nat
  splits : List SplitE
  v : List Vec
  k : List LaneMask
  /-- s16 to s31. -/
  sh : List W64
  a : List W64
  acc : List Tile
  /-- Tiles still being shadowed and the cycle each is done. -/
  shadowing : List (Nat × Nat)
  fflags : BitVec 5
  isat : Bool
  fctl : BitVec 3
  vrot : Nat
  seqIter : W64
  issues : W64
  /-- Pending registers (R24), each with the split for s0 to s15 and the op that will clear it. -/
  pend : List (Reg × Nat × Nat)
  tags : List Tag
  idents : List Ident
  regionCtr : Nat
  sides : List Side
  /-- Free entries of the region area (R242). -/
  areaFree : BitVec 256
  gated : List Gated
  /-- Sync objects held: object address and exclusive (R185). -/
  holds : List (W64 × Bool)
  /-- The checkpoint a rollback returns to; none before the first closes means the state at start. -/
  ckpt : Option GroupSave
  /-- A checkpoint is asked for: live tile mask, and the issue number of its boundary. -/
  ckptReq : Option (Nat × Nat)
  /-- The group as it stands at that boundary, with the results of earlier ops that have landed since. -/
  next : Option GroupSave
  ckptBytes : Nat
  /-- What the interval has already recorded: after the boundary asked for, kind, number (R300). -/
  recorded : List (Bool × Nat × Nat)
  /-- Overwritten bytes, latest first. -/
  undo : List Undo
  /-- Scratchpad granules read in the interval (R302). -/
  reads : List (Bool × Nat)
  /-- No bundle of the group before this cycle (R169). -/
  busyUntil : Nat
  /-- Cycle in which the latest result landed (R301). -/
  lastLand : Nat
  /-- k-th mma.st of the group so far (R224). -/
  stCount : Nat
  /-- The read log's returns of atomics, ordered contributions, spawns, acq and rel of the interval, which a rerun must not
  send again (R301; log entry 105). -/
  answers : List Access := []
  /-- q0 to q7 (R199). -/
  flues : List (Option Flue)
  /-- Shared blocks of the checkpoint buffer that the group holds (R300). -/
  blocks : Nat := 0
  /-- A record of the interval found no free block (R300). -/
  full : Bool := false
  deriving DecidableEq, Repr

/-- A group's share in a barrier (R117). -/
structure Arrival where
  group : Nat
  lanes : LaneMask
  counted : Bool
  /-- GEN at the group's most recent arrival. -/
  last : Option Nat
  /-- Lanes that have arrived a second time: split, lanes, and whether it then waits (R117). -/
  again : List (Nat × LaneMask × Bool)
  deriving DecidableEq, Repr

/-- A barrier object (R116). -/
structure Barrier where
  gen : Nat
  expect : Nat
  arrived : Nat
  arrivals : List Arrival
  deriving DecidableEq, Repr

/-- The AKI header of a launch's image (R62). -/
structure Image where
  base : Nat
  dictCount : Nat
  hotCount : Nat
  dictOff : Nat
  patOff : Nat
  patCount : Nat
  swCount : Nat
  tnCount : Nat
  swOff : Nat
  landOff : Nat
  tnOff : Nat
  streamOff : Nat
  streamLen : Nat
  entry : Nat
  vregs : Nat
  acc : Nat
  groups : Nat
  /-- A stove team. -/
  stove : Bool
  scratch : Nat
  priv : Nat
  deriving DecidableEq, Repr

/-- A run of the team trap handler (R289 to R292). -/
structure HandlerRun where
  offset : Nat
  bank : List W64
  slot : Nat
  split : Nat
  sbank : Bool
  action : Nat
  hsel : Bool
  origin : Nat
  code : Nat
  pc : W64
  mask : LaneMask
  info : List W64
  age : Nat
  ready : Nat
  /-- State code and WAITARG of what it waits for; state 1 when it does not wait. -/
  wait : Nat × W32
  waitOff : Nat
  /-- tret has ended the run; its action is applied at the boundary (R293). -/
  done : Bool
  /-- Events that the run has selected (R288, R289). -/
  shown : List TrapEv
  /-- Lanes of the handler that have not ended (R106, R291). -/
  lanes : LaneMask := LaneMask.all
  deriving DecidableEq, Repr

/-- One hearth's part of a team (R5). -/
structure Part where
  id : Nat
  launch : Nat
  team : Nat
  /-- Logical hearth of a stove team's part; 0 for a hearth team (R314). -/
  p : Nat
  h : Nat
  func : Nat
  world : Nat
  prio : Nat
  image : Image
  /-- Decode-table partition of the hearth. -/
  pid : Nat
  filt : Nat
  arg : W64
  /-- %PRIV_BASE of group 0 and the stride in bytes (R314). -/
  privBase : Nat
  privStride : Nat
  swap : Nat
  ovf : Nat
  ovfn : Nat
  handlerOff : Nat
  dbgen : BitVec 256
  brk : List Nat
  flags : Nat
  sampn : Nat
  sbuf : Nat
  sbufn : Nat
  dbuf : Nat
  dbufn : Nat
  scratch : List Host.Cell
  bars : List Barrier
  tn : List (List W64)
  tnPend : List Nat
  pats : List (List Nat)
  threshold : Nat
  waitClock : Nat
  handler : Option HandlerRun
  events : List TrapEv
  /-- Earliest start of the next handler run (R291). -/
  handlerAt : Nat
  /-- Race shadow: word, WRITER, EPOCH; 16 elsewhere (R307). -/
  shadow : List (Nat × Nat × Nat)
  epoch : Nat
  /-- Race records the next boundary writes: the 32 bytes of each. -/
  races : List (List Byte)
  /-- The team is stopped for the dump (R410): 0 no, 1 draining, 2 drained, 3 waiting for a page, and 4
  + the answer that refused it. -/
  halt : Nat
  /-- The dump: 0 none, 1 + the next byte of it, or 2 ^ 40 once it is over (R412, R414). -/
  dump : Nat
  /-- Engine entries of the dump: group number, op, the 32 bytes (R416). -/
  fates : List (Nat × Nat × List Byte)
  /-- Debug stops raised and not yet carried out (R305). -/
  stop : List TrapEv
  /-- The stop given to the host debugger, which has not resumed the team (R367). -/
  stopAt : Option TrapEv
  /-- Bindings of the context: object, region base, length (R184). -/
  bindings : List (W64 × Nat × Nat)
  placed : Nat
  /-- The team has started: its groups may issue (R233). -/
  started : Bool := false
  /-- Pages of 4 KiB of the hearth's scratchpad that it holds (R261; log entry 70). -/
  pages : List Nat := []
  deriving DecidableEq, Repr

/-- The filter's metadata of an entry (R81). -/
structure Meta where
  wset : W32
  fver : BitVec 16
  price : Nat
  rvec : BitVec 16
  reason : Nat
  xfer : Bool
  varlat : Bool
  index : Nat
  deriving DecidableEq, Repr

/-- An entry of a decode-table partition (R74, R76). -/
structure DEntry where
  tag : Option Nat
  busy : Bool
  valid : Bool
  pinned : Bool
  ref : Bool
  word : BitVec 512
  data : Meta
  deriving DecidableEq, Repr

/-- A decode-table partition (R71). -/
structure Partition where
  pid : Nat
  image : Nat
  filt : Nat
  world : Nat
  /-- SIZE code of R71. -/
  size : Nat
  base : Nat
  dictCount : Nat
  entries : List DEntry
  /-- Replaceable entries, least recently used first (R75). -/
  lru : List Nat
  /-- CLOCK hand (R76). -/
  hand : Nat
  preloaded : Bool
  /-- Refills in flight: entry, index and the cycle it completes. -/
  refills : List (Nat × Nat × Nat)
  deriving DecidableEq, Repr

/-- A page of index stream held in a hearth's stream buffer (R299). -/
structure StreamPage where
  world : Nat
  page : Nat
  bytes : List Host.Cell
  deriving DecidableEq, Repr

/-- One hearth (R1, R4). -/
structure Hearth where
  h : Nat
  /-- Physical position behind the logical number. -/
  pos : Nat
  present : Bool
  pool : Nat
  /-- The pool as the cycle began (R252). -/
  poolAt : Nat
  share : Nat
  /-- Claimant: slot and split (R255). -/
  claim : Option (Nat × Nat)
  partitions : List Partition
  /-- A price-table update (R86): 0 none, 1 waiting for the refills in flight, 2 reloading the pinned entries. -/
  rebuild : Nat
  stream : List StreamPage
  sampled : Nat
  /-- The prices and the generation in force until a price-table update is applied here (R86). -/
  oldPrices : Option (List Nat × BitVec 8) := none
  /-- The splits that issued in the latest cycle, primary and secondary (R74). -/
  issuers : List (Nat × Nat) := []
  /-- The world that last used each page of 4 KiB of the scratchpad (R331). -/
  owners : List (Nat × Nat) := []
  deriving DecidableEq, Repr

/-- One register write of a landing result. -/
inductive RegWrite where
  | lanes (reg : Nat) (mask : LaneMask) (val : Vec)
  | pred (reg : Nat) (mask : LaneMask) (val : LaneMask)
  | scalar (reg : Reg) (val : W64)
  | csr (num : Nat) (val : W64)
  /-- Word of a tensor entry (R198). -/
  | tensor (entry word : Nat) (val : W64)
  deriving DecidableEq, Repr

/-- A fixed-latency result on its way (R20 to R22). -/
structure Landing where
  h : Nat
  slot : Nat
  split : Nat
  due : Nat
  seq : Nat
  sq : Bool
  /-- Write-back bus 0 to 2 it holds, with the lanes it holds there. -/
  bus : Option Nat
  lanes : LaneMask
  writes : List RegWrite
  /-- Flags each lane raises when the result lands; empty for an op that raises none (R48, R49). -/
  fflags : List (BitVec 5)
  isat : LaneMask
  /-- A result of acc.mv: of variable latency, it waits for its write-back bus (R23). -/
  late : Bool := false
  deriving DecidableEq, Repr

/-- Kinds of queued engine ops (R188). -/
inductive EngKind where
  | cpGs | cpSg | cpGg | cpMs | gth | sct | collBc | collRed | collAg | collA2a
  | tnLd | sqLd | sqDrp | qAdvp | qAdvc
  deriving DecidableEq, Repr

/-- A queued A op (R188 to R191). -/
structure EngOp where
  id : Nat
  kind : EngKind
  h : Nat
  slot : Nat
  split : Nat
  off : Nat
  seq : Nat
  cycle : Nat
  func : Nat
  o0 : W64
  o1 : W64
  o2 : W64
  otag : Nat
  /-- Consumed tags, with the producers issued before (R189). -/
  ctags : List Nat
  waits : List Nat
  /-- Range-scoreboard entries held: start and length (R192). -/
  ranges : List (Nat × Nat)
  started : Bool
  /-- Pieces already moved. -/
  done : Nat
  due : Nat
  /-- What it waits for: 0 nothing, 1 a page, 2 another device, 3 the members of its collective, 4 a line fetched
  once more, 5 the end of a refresh window. -/
  wait : Nat
  /-- Cause and address of its failure, once it has failed. -/
  failed : Option (Nat × W64)
  /-- Pieces of a cp.ms passed by while their banks are refreshed (R272). -/
  late : List Nat := []
  deriving DecidableEq, Repr

/-- Kinds of T op (R216, R225, R230). -/
inductive MatKind where
  | mma | mmaQ | mmaSp | mmaSt | accZ | accLd | accSt | accCvt | accMv | accAdd | kat
  deriving DecidableEq, Repr

/-- A matrix operand as captured at issue (R214, R215). -/
inductive MatOperand where
  | none
  | regs (block : List Vec) (perPass : Nat)
  | desc (base rp tp rot : Nat)
  deriving DecidableEq, Repr

/-- A T op in an engine queue (R204 to R207). -/
structure MatOp where
  id : Nat
  kind : MatKind
  h : Nat
  slot : Nat
  split : Nat
  off : Nat
  seq : Nat
  cycle : Nat
  mask : LaneMask
  sat : Bool
  rate : Nat
  qg : Nat
  spn : Nat
  rep : Nat
  acc : Nat
  a : MatOperand
  b : MatOperand
  /-- Tensor entries as they stood at issue (R212). -/
  ea : List W64
  eb : List W64
  /-- acc.add source, acc.mv first row, kat pattern. -/
  arg : Nat
  /-- acc.mv destinations, kat routed signature. -/
  arg2 : Nat
  dst : List Nat
  steps : Nat
  left : Nat
  price : Nat
  /-- First step may start at this cycle. -/
  ready : Nat
  /-- Scale entries E claimed from q7, and the position of the first (R221). -/
  scales : Nat
  spos : Nat
  /-- k of R224. -/
  inst : Nat
  running : Bool
  failed : Option (Nat × W64 × W64)
  /-- Iteration of the sequencer run that issued it. -/
  iter : Option Nat := none
  deriving DecidableEq, Repr

/-- The bundle being issued: what its ops read (R10 to R12, R28). -/
structure Ctx where
  h : Nat
  slot : Nat
  /-- Split entry, or 4 for the team handler. -/
  split : Nat
  off : Nat
  nxt : Nat
  idx : Nat
  shared : BitVec 48
  lits : List W32
  smask : LaneMask
  rmask : LaneMask
  /-- Lanes a taken transfer of this bundle kills (R26). -/
  kill : LaneMask
  iter : Option Nat
  rho : Nat
  seq : Nat
  /-- Refusal reason of the entry, 0 when the filter accepted it (R80). -/
  reason : Nat
  /-- What the fetch of the record met: trap code, INFO0, INFO1 (R66). -/
  fetch : Nat × Nat × Nat
  /-- The bundle trapped at issue: none of it stands. -/
  voided : Bool
  deriving DecidableEq, Repr

/-- A sampled memory request that is not complete (R343): its access, its part, and what its record names. -/
structure MemSample where
  acc : Nat
  part : Nat
  cycle : Nat
  off : Nat
  who : Nat
  /-- The tier that serves the first request, once it is known. -/
  tier : Option Nat := none
  deriving DecidableEq, Repr

/-- The hearths and everything in flight on them. -/
structure Core where
  hearths : List Hearth
  groups : List Group
  parts : List Part
  land : List Landing
  accs : List Access
  engs : List EngOp
  mats : List MatOp
  ctx : Ctx
  /-- Next op number: issue order across the device. -/
  seq : Nat
  /-- Counts not yet folded into the functions' counters: 8 × function + die, event, number (R340). -/
  live : List (Nat × Nat × Nat)
  samples : List MemSample
  /-- Lanes of write-back bus WB2 and scalar write ports taken in this cycle, by hearth (R22, R23). -/
  ports : List (Nat × LaneMask × Nat) := []
  /-- Requests that an L1 has accepted in this cycle, by hearth (R265). -/
  requests : List (Nat × Nat) := []
  /-- Loads that a taken transfer of this cycle kills unless they land at its end: access, lanes, whole (R26). -/
  doomed : List (Nat × LaneMask × Bool) := []
  /-- The device's own copy of the counter of free values that core ops read. -/
  free : Nat
  deriving DecidableEq, Repr

end Sys2Proof.Machine
end

