-- ==== Sys2Proof/Machine/DevState.lean ====
section
/-! DEFINITION. The state of the device around the hearths: memories and caches, launching, the host interface,
power, service life, the fabric and the security engine. -/

namespace Sys2Proof.Machine

/-- A physical location: target kind, device of a remote one, address (R344). -/
structure Loc where
  tgt : Nat
  dev : Nat
  pa : Nat
  deriving DecidableEq, Repr

/-- The three memories, each a canonical list of cells (R344): device memory by 50-bit address, host memory by
PCIe address, meadow by die × 2^31 + offset. -/
structure Mems where
  dev : List Host.Cell
  host : List Host.Cell
  meadow : List Host.Cell
  deriving DecidableEq, Repr

/-- An L1 line of 128 bytes (R262). -/
structure L1Line where
  h : Nat
  world : Nat
  /-- Virtual line number. -/
  vline : Nat
  priv : Bool
  loc : Loc
  sectors : BitVec 4
  dirty : BitVec 128
  bytes : List Byte
  deriving DecidableEq, Repr

/-- A miss entry of an L1: a 128-byte line in flight (R266). -/
structure Miss where
  h : Nat
  world : Nat
  vline : Nat
  priv : Bool
  loc : Loc
  /-- The cycle its sectors arrive; none: it waits for another device. -/
  due : Option Nat
  /-- Tag of the request to that device. -/
  tag : Nat
  /-- An acquire has come since: no later request joins it, and its line does not enter the L1 (R280). -/
  stale : Bool
  deriving DecidableEq, Repr

/-- A 256-byte line in a stove L2 (R263, R264). A line whose home the stove is keeps its bytes in `Mems`; a copy of
another line holds its own. The list of lines stands in order of use, latest first (R381). -/
structure L2Copy where
  stove : Nat
  loc : Loc
  dirty : BitVec 256
  bytes : List Byte
  owner : Nat
  deriving DecidableEq, Repr

/-- A stove TLB entry (R349). -/
structure TlbEntry where
  stove : Nat
  world : Nat
  base : Nat
  size : Nat
  leaf : W64
  /-- Where the leaf entry stands. -/
  ptr : Loc
  deriving DecidableEq, Repr

/-- A pending ordered contribution (R179): its word, its key and its value. -/
structure Contrib where
  loc : Loc
  key : List Nat
  val : W32
  /-- Spilled to the launch's overflow area (R181). -/
  spilled : Bool
  deriving DecidableEq, Repr

/-- A monitored line at its home, oldest first (R284). -/
structure HomeMonitor where
  loc : Loc
  /-- Hearth, slot and split of each waiter of this device; remote waiters by device and tag. -/
  locals : List (Nat × Nat × Nat)
  remotes : List (Nat × Nat)
  /-- A write has reached the line since. -/
  rung : Bool
  deriving DecidableEq, Repr

/-- Caches, translations and what is kept at the homes. -/
structure Caches where
  l1 : List L1Line
  l2 : List L2Copy
  tlb : List TlbEntry
  contribs : List Contrib
  monitors : List HomeMonitor
  /-- Lost-line table: 256-byte lines, oldest first (R387). -/
  lost : List Loc
  /-- 256-byte lines whose data the next read finds uncorrectable (R387). -/
  poison : List Loc
  /-- Lines whose MAC failed and that are being fetched once more (R388). -/
  refetch : List Loc
  /-- Lines whose second check failed, with the issue number from which ops are no longer concerned (R388). -/
  macBad : List (Loc × Nat)
  /-- Lines written since a split's load, with the number of the write (R121). -/
  wrote : List (Loc × Nat)
  writes : Nat
  /-- Translation faults found and not yet reported (R351). -/
  faultq : List FaultReq
  /-- The hierarchy's own counter of free values. -/
  free : Nat
  /-- Miss entries in use (R266). -/
  misses : List Miss := []
  /-- Writes of a hearth's own groups that have not reached the line's home: hearth, line, number of the write (R121). -/
  near : List (Nat × Loc × Nat) := []
  /-- The worlds of the lost lines (R387). -/
  lostOf : List (Loc × Nat) := []
  deriving DecidableEq, Repr

/-- A launch record (R313). -/
structure LaunchRec where
  image : Nat
  arg : W64
  filt : Nat
  priv : Nat
  pstride : Nat
  teams : Nat
  swap : Nat
  ovf : Nat
  ovfn : Nat
  handler : Nat
  dep : Nat
  depval : Nat
  done : Nat
  crec : Nat
  ext : Nat
  queue : Nat
  prio : Nat
  world : Nat
  part : Nat
  msix : Nat
  flags : Nat
  sampn : Nat
  rsv : Bool
  deriving DecidableEq, Repr

/-- The extension of a launch record (R315). -/
structure LaunchExt where
  dbgen : BitVec 256
  brk : List Nat
  sbuf : Nat
  sbufn : Nat
  dbuf : Nat
  dbufn : Nat
  mdlist : List (Nat × Nat × Nat × Nat)
  fblist : List Nat
  rsv : Bool
  deriving DecidableEq, Repr

/-- Where a team of a launch stands. -/
inductive TeamState where
  | waiting
  | resident
  | swapped (ready : Bool)
  | preempted
  | halted
  | done
  deriving DecidableEq, Repr

/-- A saved part of a team: its own state, its groups and its ops not started (R257, R326). -/
structure SavedPart where
  part : Part
  groups : List Group
  accs : List Access
  engs : List EngOp
  mats : List MatOp
  /-- Cycle of the save. -/
  cycle : Nat := 0
  deriving DecidableEq, Repr

/-- A team of a launch. -/
structure Team where
  index : Nat
  state : TeamState
  saved : List SavedPart
  /-- Leaving the hearth: 1 swap-out, 2 pre-emption, 3 end (R257, R326, R410). -/
  leaving : Nat
  /-- No pre-emption under R322 before this cycle (R418). -/
  noPreempt : Nat
  /-- Admin command to complete when saved: function and CID. -/
  admin : Option (Nat × Nat)
  /-- The save's writes: 0 go on, 1 wait for a page, 2 cannot complete (R418). -/
  saveWait : Nat
  /-- Cycle of the latest placement or restore. -/
  since : Nat
  /-- The launch it made room for, which is placed first (R322). -/
  yields : Option Nat
  deriving DecidableEq, Repr

/-- An accepted launch (R319 to R321). -/
structure Launch where
  id : Nat
  func : Nat
  /-- %LAUNCH. -/
  num : Nat
  record : LaunchRec
  ext : LaunchExt
  image : Image
  teams : List Team
  /-- Cycle at which it became eligible. -/
  eligible : Option Nat
  aged : Bool
  /-- Meadow loads still to run. -/
  loads : List (Nat × Nat × Nat × Nat)
  /-- Cycle at which its last writes were released (R285). -/
  closed : Nat := 0
  /-- STATUS, CODE, CODE2, TEAM, PC of R317, once the launch ends. -/
  status : Option (Nat × Nat × Nat × Nat × Nat)
  failTags : Nat
  dropSamples : Nat
  dropRaces : Nat
  samples : Nat
  races : Nat
  lastDie : Option Nat
  /-- Dies on which it has had teams (R325). -/
  dies : List Nat := []
  /-- Cycle of the latest placement of one of its teams (R322). -/
  lastPlaced : Nat := 0
  /-- Its dependence counter is not read before this cycle (R320). -/
  poll : Nat := 0
  /-- Fresh buffers still to be rewrapped (R335). -/
  fresh : List Nat
  /-- Stage of completion (R317). -/
  stage : Nat
  /-- The write of this stage: 0 goes on, 1 waits for a page, 2 cannot complete. -/
  wait : Nat
  deriving DecidableEq, Repr

/-- A launch queue (R320, R360). -/
structure LQueue where
  func : Nat
  queue : Nat
  ring : Nat
  shadow : Nat
  d : Nat
  a : Nat
  /-- Spawned records appended and not yet accepted: their 128 bytes. -/
  spawned : List (List Byte)
  /-- The record being accepted; empty when there is none. -/
  cur : List Byte
  /-- Records held: launches accepted and not yet placed whole (by id). -/
  held : List Nat
  /-- Acceptance of the next record: 0 goes on, 1 waits for a page, 2 cannot read what it needs (R316). -/
  wait : Nat
  deriving DecidableEq, Repr

/-- An entry of a die's swap-monitor table (R258). -/
structure SwapMon where
  die : Nat
  launch : Nat
  team : Nat
  loc : Loc
  /-- Number of the last write when the watch began. -/
  since : Nat
  timeout : Option Nat
  deriving DecidableEq, Repr

/-- Launching. -/
structure Launching where
  queues : List LQueue
  launches : List Launch
  nextId : Nat
  swapMons : List SwapMon
  deriving DecidableEq, Repr

/-- An outstanding page fault (R351). -/
structure Fault351 where
  fid : Nat
  world : Nat
  page : Nat
  kind : Nat
  acc : Nat
  /-- Who waits for it: the waiter and its address. -/
  joined : List (Nat × W64)
  deriving DecidableEq, Repr

/-- A bounce-buffer channel (R368 to R371). -/
structure Channel where
  ch : Nat
  out : Bool
  slot : Nat
  count : Nat
  world : Nat
  vec : Nat
  ring : Nat
  shadow : Nat
  dp : Nat
  dc : Nat
  desync : Bool
  cause : Nat
  lost : Nat
  bytes : Nat
  /-- The copy of slot DC: 0 none begun, 1 it waits for a page, 2 go on, 3 its fault was refused, 4 go on in the next
  cycle; `bytes` counts what it has copied. -/
  copying : Nat
  /-- A CH_RESYNC or CH_DELETE that waits for the copy in flight: CID, new count or delete. -/
  waiting : Option (Nat × Option Nat)
  deriving DecidableEq, Repr

/-- An access through the BAR 2 window (R359). -/
structure WinReq where
  write : Bool
  off : Nat
  len : Nat
  data : W64
  /-- 0 goes on, 1 waits for a page or another device, 2 is refused. -/
  wait : Nat
  deriving DecidableEq, Repr

/-- A PCIe function's registers and queues (R353, R358, R340). -/
structure Func where
  func : Nat
  asqBase : W64
  acqBase : W64
  aqCtl : W64
  asqTail : W32
  asqHead : W32
  acqHead : W32
  acqProd : W32
  fqBase : W64
  fqCtl : W64
  fqProd : W32
  fqCons : W32
  badAns : Nat
  fqIrq : Nat
  vcsel : List W64
  vcval : List Nat
  vcovf : BitVec 8
  /-- MSI-X table words written, by word index. -/
  msix : List (Nat × W64)
  pba : List Nat
  apWorld : Nat
  apBase : Nat
  apLen : Nat
  winErrs : Nat
  /-- Window accesses not yet complete, in PCIe order. -/
  win : List WinReq
  /-- Completions of window reads: offset, 0 data, 1 Unsupported Request or 2 Completer Abort, and the data. -/
  winOut : List (Nat × Nat × W64)
  slice : Nat
  permit : Bool
  nextLaunch : Nat
  faults : List Fault351
  /-- Faults the ring or the table has no room for yet. -/
  waiting : List FaultReq
  channels : List Channel
  deriving DecidableEq, Repr

/-- The error and service block and the functions (R358, R390). -/
structure HostIf where
  funcs : List Func
  numVfs : Nat
  /-- Owner of each world (R330). -/
  owners : List (Option Nat)
  roots : List (Option W64)
  /-- Owner of each meadow unit: die, unit, world (R332). -/
  units : List (Nat × Nat × Nat)
  /-- MSI-X messages sent: function and vector, oldest first. -/
  irqs : List (Nat × Nat)
  /-- Invalidations in progress: function, CID, world, base, length, the issue number of its boundary. -/
  shoots : List (Nat × Nat × Nat × Nat × Nat × Nat)
  /-- The admin command the device has fetched and now carries out (R364). -/
  cmd : Option AdminCmd
  ready : Bool
  deriving DecidableEq, Repr

/-- A boost lease of a die (R338). -/
structure Lease where
  func : Nat
  /-- %PWR_LEVEL shows it from this boundary on. -/
  start : Nat
  begun : Bool
  /-- Cycle at which it expires. -/
  stop : Nat
  revoked : Bool
  deriving DecidableEq, Repr

/-- One die's power state (R249 to R255, R336 to R338, R404, R407). -/
structure Die where
  die : Nat
  level : Nat
  /-- Levels held back for temperature and for current. -/
  thermal : Nat
  tripped : Bool
  hot : Bool
  current : Nat
  holdEnd : Option Nat
  lease : Option Lease
  cooldown : Nat
  /-- Bulk injection is stopped by the limiter, since this cycle. -/
  cut : Option Nat
  cuts : List Nat
  /-- The limiter has been released and bulk waits for the boundary. -/
  resume : Bool
  /-- Level the limiter released itself at without firmware. -/
  capLevel : Option Nat
  /-- Bulk embers passing each of the 129 stops. -/
  ring : List Nat
  /-- Floor embers that a full pool has let pass, at each stop (R251). -/
  excess : List Nat := []
  /-- Bulk the damper injects per cycle of this revolution: the revolution's total. -/
  bulk : Nat
  surplus : Nat
  prices : List Nat
  gen : BitVec 8
  rev : Nat
  kats : Nat
  /-- Cycle of the next lowering for temperature (R407). -/
  stepAt : Nat
  deriving DecidableEq, Repr

/-- The damper and the module's limits (R337, R402 to R407). -/
structure Power where
  dies : List Die
  safeCap : Nat
  /-- Watts and expiry of the rack cap in force. -/
  rackCap : Option (Nat × Nat)
  lastSeq : Option W32
  /-- Rack time and the cycle it was set. -/
  rackClock : Option (Nat × Nat)
  /-- Cap accepted and applied at the next boundary. -/
  ceiling : Nat
  /-- The thermal ceiling in watts that the next boundary applies (R337). -/
  thermalCap : Option Nat := none
  heartbeat : Bool
  /-- The watchdog holds the dies until a fresh cap. -/
  watchdog : Option Nat
  restarting : Bool
  l0 : Bool
  powered : Bool
  /-- Revolutions begun, and cycles whose embers have been taken (R249, R251). -/
  turns : Nat
  taken : Nat
  deriving DecidableEq, Repr

/-- A predictive counter (R392): kind, unit, the 24 buckets newest first, and what it has filed. -/
structure Predict where
  kind : Nat
  unit : Nat
  buckets : List Nat
  advised : Bool
  acted : Bool
  deriving DecidableEq, Repr

/-- An update image as it was read from host memory: its 4,864-byte header and its payload (R398). -/
structure UpdateImage where
  header : List Byte
  body : List Byte
  deriving DecidableEq, Repr

/-- An update in progress (R399, R400). -/
structure Update where
  image : UpdateImage
  /-- Dies where it has taken effect. -/
  dies : List Nat
  deriving DecidableEq, Repr

/-- A group as it stood at boundary D, when a compute error rolled it back (R302): what its reruns bring it to again (R303). -/
structure Rolled where
  group : Group
  cycle : Nat
  /-- Bytes of scratchpad and of private memory that the rollback put back, as they stood at D. -/
  pad : List (Nat × Byte)
  priv : List (Nat × Byte)
  /-- The ops of the interval. -/
  land : List Landing
  accs : List Access
  engs : List EngOp
  mats : List MatOp
  /-- Traps, stops and the handler's run that the rollback withdrew (R304). -/
  events : List TrapEv
  stop : List TrapEv
  handler : Option HandlerRun
  deriving DecidableEq, Repr

/-- A rollback whose reruns are not over (R303): where the error was, and the groups that it took back. -/
structure Rerun where
  h : Nat
  slot : Nat
  unit : Nat
  saved : List Rolled
  deriving DecidableEq, Repr

/-- Service life (R383 to R401). -/
structure Service where
  errBase : W64
  errCtl : W64
  errProd : W32
  errCons : W32
  errIrq : Nat
  held : List (List Byte)
  dropped : Bool
  /-- Records filed per severity 0 to 7 (R408). -/
  bySev : List Nat
  seq : Nat
  flash : List (List Byte)
  repl : BitVec 7
  counters : List Predict
  sweepStove : Nat
  sweepPhase : Nat
  sweepResult : Nat
  sweepDue : Nat
  sweepFailed : BitVec 17
  sweeps : List (Nat × Nat)
  withdrawn : List Nat
  /-- Retired positions: stove, position (R385). -/
  retired : List (Nat × Nat)
  spareRows : List (Nat × Nat × Nat × Nat)
  updAddr : W64
  updState : Nat
  updReason : Nat
  /-- Retired positions that an activated configuration block gives the next reset (R385, R400). -/
  health : Option (List (Nat × Nat))
  update : Option Update
  svns : List Nat
  versions : List Nat
  banks : List Nat
  stackMask : BitVec 8
  channels : BitVec 12
  /-- Reruns in progress (R303). -/
  reruns : List Rerun
  rollbacks : Nat
  /-- The threshold block (R392, R401): advisory and action of the five counters, the sweep interval in cycles, and the three
  temperatures of R407. -/
  thresholds : List Nat := [1000, 10000, 1000, 10000, 10 ^ 8, 10 ^ 10, 8, 16, 4, 8, 69120000000000, 100, 105, 115]
  deriving DecidableEq, Repr

/-- A fabric port (R372, R376, R394). -/
structure Port where
  port : Nat
  lanes : Nat
  dead : Bool
  /-- The death has been flooded (R376). -/
  told : Bool
  retrains : Nat
  errors : Nat
  deriving DecidableEq, Repr

/-- A remote request outstanding (R373, R377). -/
structure Remote where
  tag : Nat
  dst : Nat
  port : Nat
  /-- The 128-byte line, or the word of an atomic. -/
  addr : Nat
  acc : Nat
  lanes : LaneMask
  write : Bool
  /-- TYPE of the request. -/
  type : Nat
  issued : Nat
  drain : Option Nat
  /-- The hearth whose release waits for it, from 1 on; 0 for the device's own agents (R375). -/
  agent : Nat := 0
  /-- Accesses of the hearth that have joined it, and their lanes (R266). -/
  joins : List (Nat × LaneMask) := []
  deriving DecidableEq, Repr

/-- A collective (R195 to R197): its key, the op that issued it here, the parameters every member must share, and the
pieces that have arrived: member device, block, byte offset, bytes. -/
structure Collect where
  key : Nat
  /-- Instances of the key that this device has issued before. -/
  inst : Nat
  eng : Option Nat
  /-- The op that issued it and that a rollback has discarded (R203). -/
  left : Option Nat
  /-- Source pieces already sent. -/
  sent : Nat
  /-- Some member has found it faulty (R197). -/
  bad : Bool
  params : List Byte
  parts : List (Nat × Nat × Nat × List Byte)
  deriving DecidableEq, Repr

/-- A 128-byte line that another device has sent for whoever asked; no bytes: the request aborted. -/
structure FarLine where
  acc : Nat
  dev : Nat
  addr : Nat
  bytes : List Byte
  /-- Cycle of arrival. -/
  since : Nat
  deriving DecidableEq, Repr

/-- The scale-up domain as this device sees it. -/
structure Fabric where
  device : Option Nat
  routes : List Nat
  ports : List Port
  remotes : List Remote
  nextTag : Nat
  seen : List (Nat × Nat × Nat)
  /-- Drains: the cycle an update arrived and the rounds ended. -/
  drains : List (Nat × Nat × Nat)
  out : List Flit
  collects : List Collect
  /-- Instances of a key that this device has issued and that are over (R197). -/
  collDone : List (Nat × Nat)
  /-- 128-byte lines that have arrived and are still of use. -/
  lines : List FarLine
  /-- Flits of `out` that event 0x20 has counted (R341). -/
  counted : Nat
  /-- Flits received and not yet counted (R341). -/
  heard : Nat
  linkErrors : Nat
  /-- Words of other devices that hold ordered contributions of a launch: launch, world, word (R180). -/
  ordered : List (Nat × Nat × Loc) := []
  deriving DecidableEq, Repr

/-- A registered buffer (R335). -/
structure Buffer where
  idx : Nat
  world : Nat
  base : Nat
  len : Nat
  version : Nat
  deriving DecidableEq, Repr

/-- What the metadata of a written line outside the package says: its world with the number of its keys' draw, its write count,
and its buffer's version when its MAC was made (R333, R334). -/
structure LineMeta where
  loc : Loc
  world : Nat
  draw : Nat
  count : Nat
  version : Nat
  deriving DecidableEq, Repr

/-- A buffer whose lines are being wrapped again, the engine's pointer, and the cycle of its latest step (R335). -/
structure Rewrap where
  idx : Nat
  ptr : Nat
  cycle : Nat
  deriving DecidableEq, Repr

/-- The security engine. -/
structure Security where
  buffers : List Buffer
  /-- Worlds that have keys, with the number of the draw; the service world has the first (R333). -/
  keys : List (Nat × Nat) := [(0, 0)]
  drawn : Nat := 1
  metas : List LineMeta := []
  rewrap : Option Rewrap := none
  deriving DecidableEq, Repr

end Sys2Proof.Machine
end

