-- ==== Sys2Proof/Machine/State.lean ====
section
/-! DEFINITION. The machine's state, the reasons a step can stop, and the state right after module reset. -/

namespace Sys2Proof.Machine

/-- A stream record as it goes into a bundle, with its iteration and rotation (R65, R110, R111), or what its fetch met. -/
structure Issued where
  off : Nat
  idx : Nat
  lits : List W32
  nxt : Nat
  iter : Option Nat
  rho : Nat
  fetch : Nat × Nat × Nat
  deriving DecidableEq, Repr

/-- One thing the current cycle still has to do. -/
inductive Work where
  /-- A step of the part that is due. -/
  | event (i : Instr)
  /-- A hearth chooses and issues its bundles of the cycle (R30, R247). -/
  | issue (h : Nat)
  /-- The records that the sequencer has picked for a split's bundle (R110). -/
  | bundle (h slot split : Nat) (recs : List Issued)
  deriving DecidableEq, Repr

/-- The whole machine. -/
structure State where
  /-- %CYCLE. -/
  cycle : Nat
  phase : Nat
  work : List Work
  /-- The environment's steps to come, each with the cycle at which it lands. -/
  inputs : List (Nat × Instr)
  core : Core
  mem : Mems
  cch : Caches
  lch : Launching
  hst : HostIf
  pow : Power
  svc : Service
  fab : Fabric
  sec : Security
  deriving DecidableEq, Repr

/-- Why a step stops with a fault. -/
inductive Fault where
  /-- The module has no power (R399, R407): nothing steps until the next power cycle. Raised by `step` alone; safe. -/
  | noPower
  deriving DecidableEq, Repr

/-- Why a step is refused. -/
inductive Refusal where
  /-- The arm of `exec` gives the row no meaning yet. Raised by `exec` alone; safe. -/
  | notModelled (mnemonic : String)
  deriving DecidableEq, Repr

namespace State

/-- A hearth after reset (R4, R71, R253). -/
def freshHearth (h : Nat) : Hearth :=
  { h := h, pos := h % 16, present := true, pool := 0, poolAt := 0, share := 63, claim := none, partitions := [],
    rebuild := 0, stream := [], sampled := 0 }

/-- Default prices of classes 0 to 63 (R84). -/
def defaultPrices : List Nat :=
  [0, 1, 2, 1, 1, 1, 2, 2, 18, 18, 20, 20, 20, 22, 2, 18] ++ List.replicate 48 0

/-- A die after reset: the level of the default safe cap, 1,500 W (R402). -/
def freshDie (d : Nat) : Die :=
  { die := d, level := 2, thermal := 0, tripped := false, hot := false, current := 0, holdEnd := none, lease := none,
    cooldown := 0, cut := none, cuts := [], resume := false, capLevel := none, ring := List.replicate 129 0,
    excess := List.replicate 129 0, bulk := 0, surplus := 0, prices := defaultPrices, gen := 0, rev := 0, kats := 0, stepAt := 0 }

/-- A function after reset (R353, R358, R340, R322). -/
def freshFunc (f : Nat) : Func :=
  { func := f, asqBase := 0, acqBase := 0, aqCtl := 0, asqTail := 0, asqHead := 0, acqHead := 0, acqProd := 0,
    fqBase := 0, fqCtl := 0, fqProd := 0, fqCons := 0, badAns := 0, fqIrq := 0,
    vcsel := List.replicate 8 0xF00, vcval := List.replicate 8 0, vcovf := 0, msix := [], pba := [],
    apWorld := 0, apBase := 0, apLen := 0, winErrs := 0, win := [], winOut := [], slice := 1600000, permit := f == 0, nextLaunch := 1,
    faults := [], waiting := [], channels := [] }

/-- A fabric port with its link up (R394). -/
def freshPort (p : Nat) : Port := { port := p, lanes := 8, dead := false, told := false, retrains := 0, errors := 0 }

/-- No bundle is being issued. -/
def freshCtx : Ctx :=
  { h := 0, slot := 0, split := 0, off := 0, nxt := 0, idx := 0, shared := 0, lits := [],
    smask := LaneMask.all, rmask := LaneMask.all, kill := 0, iter := none, rho := 0, seq := 0, reason := 0,
    fetch := (0, 0, 0),
    voided := false }

/-- What bring-up meets when nothing is wrong (R409). -/
def goodBoot : BootReport :=
  { copies := [2, 2, 2, 2, 2], stackMask := 0xFF, channels := 0xFFF, ports := 0xFFF }

/-- The machine right after module reset: nothing resident, every storage clear, bring-up next (R409). -/
def reset : State :=
  { cycle := 0, phase := 0, work := [.event (.moduleReset goodBoot)], inputs := [],
    core := { hearths := (List.range Config.hearthCount).map freshHearth, groups := [], parts := [], land := [],
              accs := [], engs := [], mats := [], ctx := freshCtx, seq := 0, live := [], samples := [], free := 0 },
    mem := { dev := [], host := [], meadow := [] },
    cch := { l1 := [], l2 := [], tlb := [], contribs := [], monitors := [], lost := [], poison := [],
             refetch := [], macBad := [], wrote := [],
             writes := 0, faultq := [], free := 0 },
    lch := { queues := [], launches := [], nextId := 1, swapMons := [] },
    hst := { funcs := (List.range 32).map freshFunc, numVfs := 31, owners := some 0 :: List.replicate 63 none,
             roots := List.replicate 64 none, units := [], irqs := [], shoots := [], cmd := none, ready := false },
    pow := { dies := (List.range 4).map freshDie, safeCap := 1500, rackCap := none, lastSeq := none,
             rackClock := none, ceiling := 6, heartbeat := true, watchdog := none, restarting := false, l0 := false,
             powered := true, turns := 0, taken := 0 },
    svc := { errBase := 0, errCtl := 0, errProd := 0, errCons := 0, errIrq := 0, held := [], dropped := false,
             bySev := List.replicate 8 0, seq := 0, flash := [], repl := 0, counters := [], sweepStove := 0, sweepPhase := 0,
             sweepResult := 0, sweepDue := 0, sweepFailed := 0, sweeps := [], withdrawn := [], retired := [],
             spareRows := [], updAddr := 0, updState := 0, updReason := 0, health := none, update := none,
             svns := List.replicate 7 0, versions := List.replicate 7 0, banks := List.replicate 7 0,
             stackMask := 0xFF, channels := 0xFFF, reruns := [], rollbacks := 0 },
    fab := { device := none, routes := [], ports := (List.range 12).map freshPort, remotes := [], nextTag := 0,
             seen := [], drains := [], out := [], collects := [], collDone := [], lines := [], counted := 0, heard := 0, linkErrors := 0 },
    sec := { buffers := [] } }

end State

end Sys2Proof.Machine
end

