-- ==== Sys2Proof/Machine/Mem.lean ====
section
/-! DEFINITION. Byte storage as canonical lists of cells, and little-endian words over it (R6). -/

namespace Sys2Proof.Machine

/-- A little-endian number from bytes (R6). -/
def leNat : List Byte → Nat
  | [] => 0
  | b :: bs => b.toNat + 256 * leNat bs

/-- The `n` little-endian bytes of a number (R6). -/
def natLe : Nat → Nat → List Byte
  | 0, _ => []
  | n + 1, x => BitVec.ofNat 8 x :: natLe n (x / 256)

/-- What an address holds; an unlisted one reads 0 (log entry 1). -/
def cellRead : List Host.Cell → Nat → Byte
  | [], _ => 0
  | (k, b) :: m, a => if k = a then b else cellRead m a

/-- Put one byte at an address; writing 0 removes its cell. -/
def cellWrite : List Host.Cell → Nat → Byte → List Host.Cell
  | [], a, b => if b = 0 then [] else [(a, b)]
  | (k, c) :: m, a, b =>
    if a < k then (if b = 0 then (k, c) :: m else (a, b) :: (k, c) :: m)
    else if a = k then (if b = 0 then m else (k, b) :: m)
    else (k, c) :: cellWrite m a b

/-- Every address of the list lies above `a`, ascending, and no byte is 0. -/
def cellsFrom : Option Nat → List Host.Cell → Bool
  | _, [] => true
  | lo, (k, b) :: m => (match lo with | none => true | some a => a < k) && b != 0 && cellsFrom (some k) m

/-- The canonical form: addresses strictly ascending, no cell that reads as an unlisted one. -/
def cellsWf (m : List Host.Cell) : Bool := cellsFrom none m

/-- The `n` bytes from an address. -/
def cellsRead (m : List Host.Cell) (a n : Nat) : List Byte := (List.range n).map fun i => cellRead m (a + i)

/-- Put bytes from an address on. -/
def cellsWrite : List Host.Cell → Nat → List Byte → List Host.Cell
  | m, _, [] => m
  | m, a, b :: bs => cellsWrite (cellWrite m a b) (a + 1) bs

/-- The memories hold canonical lists. -/
def Mems.wf (m : Mems) : Bool := cellsWf m.dev && cellsWf m.host && cellsWf m.meadow

/-- A 64-bit little-endian word of a byte list at an offset. -/
def le64 (bs : List Byte) (off : Nat) : W64 := BitVec.ofNat 64 (leNat ((bs.drop off).take 8))

/-- An `n`-byte little-endian number of a byte list at an offset. -/
def leAt (bs : List Byte) (off n : Nat) : Nat := leNat ((bs.drop off).take n)

/-- Put `n` little-endian bytes of `x` into a byte list at an offset. -/
def putAt (bs : List Byte) (off n x : Nat) : List Byte := bs.take off ++ natLe n x ++ bs.drop (off + n)

end Sys2Proof.Machine
end

