-- ==== Sys2Proof/Machine/Records.lean ====
section
/-! DEFINITION. What the device writes to the host's rings: interrupts, admin completions and events (R361, R363),
and error records (R389 to R391). -/

namespace Sys2Proof.Machine

/-! ### CRC-32C (R230) -/

/-- One bit of CRC-32C, reflected. -/
def crcBit (c : W32) : W32 := if c.getLsbD 0 then (c >>> 1) ^^^ 0x82F63B78#32 else c >>> 1
/-- One byte of CRC-32C. -/
def crcByte (c : W32) (b : Byte) : W32 :=
  (List.range 8).foldl (fun c _ => crcBit c) (c ^^^ b.setWidth 32)
/-- CRC-32C: initial value all ones, final inversion (R230). -/
def crc32c (bs : List Byte) : W32 := ~~~(bs.foldl crcByte (BitVec.allOnes 32))

/-! ### Writes that other agents see -/

/-- The 256-byte line of a location. -/
def Loc.line (l : Loc) : Loc := { l with pa := l.pa - l.pa % 256 }

/-- The 256-byte lines of a range of `n` bytes. -/
def Loc.linesOf (l : Loc) (n : Nat) : List Loc :=
  (List.range (ceilDiv (l.pa % 256 + n) 256)).map fun i => { l with pa := l.pa - l.pa % 256 + 256 * i }

/-- A write has reached the home of a line: monitors and the check of R121 look at its number (R284). -/
def Caches.mark (c : Caches) (l : Loc) : Caches :=
  { c with wrote := (l.line, c.writes + 1) :: c.wrote.filter fun w => w.1 != l.line, writes := c.writes + 1,
           monitors := c.monitors.map fun m => if m.loc == l.line then { m with rung := true } else m }

/-- The device writes host memory at system scope. -/
def State.hostWrite (s : State) (pa : Nat) (bs : List Byte) : State :=
  { s with mem := { s.mem with host := cellsWrite s.mem.host pa bs },
           cch := s.cch.mark { tgt := 1, dev := 0, pa := pa } }
/-- The device reads host memory at system scope. -/
def State.hostRead (s : State) (pa n : Nat) : List Byte := cellsRead s.mem.host pa n

/-- Change a function's block. -/
def State.modFunc (s : State) (f : Nat) (g : Func → Func) : State :=
  { s with hst := { s.hst with funcs := s.hst.funcs.modify f g } }
/-- A function's block. -/
def State.func (s : State) (f : Nat) : Func := s.hst.funcs.getD f (State.freshFunc f)

/-! ### Interrupts (R358, R361) -/

/-- MSI-X entries of a function. -/
def msixCount (f : Nat) : Nat := if f = 0 then 2048 else 256
/-- A 64-bit word of the MSI-X table. -/
def Func.msixWord (f : Func) (i : Nat) : W64 := ((f.msix.find? fun w => w.1 == i).map fun w => w.2).getD 0

/-- Raise a vector of a function: an MSI-X message, or its pending bit while the entry is masked. -/
def State.raiseIrq (s : State) (f vec : Nat) : State :=
  if msixCount f ≤ vec then s
  else if ((s.func f).msixWord (2 * vec + 1)).getLsbD 32 then
    s.modFunc f fun g => { g with pba := if g.pba.contains vec then g.pba else g.pba ++ [vec] }
  else { s with hst := { s.hst with irqs := s.hst.irqs ++ [(f, vec)] } }

/-! ### The admin completion ring (R361, R363) -/

/-- Entries of the submission and completion rings (R358). -/
def Func.asqSize (f : Func) : Nat := 2 ^ (f.aqCtl.toNat % 16 + 4)
def Func.acqSize (f : Func) : Nat := 2 ^ (f.aqCtl.toNat / 16 % 16 + 4)

/-- Write a completion entry. -/
def State.putCompletion (s : State) (f cid status : Nat) (result : W64) : State :=
  let g := s.func f
  let i := g.acqProd.toNat % g.acqSize
  let phase := 1 - g.acqProd.toNat / g.acqSize % 2
  let e := natLe 8 result.toNat ++ natLe 2 cid ++ natLe 2 g.asqHead.toNat ++ natLe 1 status ++ natLe 1 phase ++
    natLe 2 0
  ((s.hostWrite (g.acqBase.toNat + 16 * i) e).modFunc f fun g => { g with acqProd := g.acqProd + 1 }).raiseIrq f
    (bitsNat g.aqCtl.toNat 31 16)

/-- Post a completion, wherever the host's head stands; it is lost while the ring is disabled (log entry 27). -/
def State.postCompletion (s : State) (f cid status : Nat) (result : W64) : State :=
  if (s.func f).aqCtl.getLsbD 8 then s.putCompletion f cid status result else s

/-- An admin-queue event (R361). -/
def State.adminEvent (s : State) (f : Nat) (result : Nat) : State :=
  s.postCompletion f 0xFFFF 0 (BitVec.ofNat 64 result)

/-! ### Error records (R389 to R391) -/

/-- What an error record holds besides its number, flags and CRC. -/
structure ErrRec where
  sev : Nat
  unit : Nat
  kind : Nat
  flags : Nat
  die : Nat
  stove : Nat
  pos : Nat
  sub : Nat
  subn : Nat
  lane : Nat
  launch : Nat
  world : Nat
  func : Nat
  addr : Nat
  vaddr : Nat
  detail : List Byte
  deriving DecidableEq, Repr

/-- A record of the hub die with nothing more to say. -/
def hubRecord (sev unit kind : Nat) : ErrRec :=
  { sev := sev, unit := unit, kind := kind, flags := 0, die := 4, stove := 0xFF, pos := 0xFF, sub := 0, subn := 0,
    lane := 0xFFFF, launch := 0, world := 0xFF, func := 0xFF, addr := 0, vaddr := 0, detail := [] }

/-- The first 124 bytes of a record (R389). -/
def ErrRec.body (r : ErrRec) (seq cycle : Nat) : List Byte :=
  natLe 4 seq ++ natLe 1 r.sev ++ natLe 1 r.unit ++ natLe 1 r.kind ++ natLe 1 r.flags ++ natLe 8 cycle ++
  natLe 1 r.die ++ natLe 1 r.stove ++ natLe 1 r.pos ++ natLe 1 r.sub ++ natLe 2 r.subn ++ natLe 2 r.lane ++
  natLe 4 r.launch ++ natLe 1 r.world ++ natLe 1 r.func ++ natLe 2 1 ++ natLe 8 r.addr ++ natLe 8 r.vaddr ++
  ((r.detail ++ List.replicate 64 0).take 64) ++ List.replicate 12 0

/-- Records the ring holds. -/
def Service.errSize (v : Service) : Nat := 64 * 2 ^ (v.errCtl.toNat % 16)
/-- The ring takes a record now. -/
def Service.errRoom (v : Service) : Bool := v.errCtl.getLsbD 4 && decide ((v.errProd - v.errCons).toNat < v.errSize)

/-- Raise the error vector, at once for severity 3 and 4, otherwise at most once per 4,096 cycles (R391). -/
def State.errIrqRaise (s : State) (atOnce : Bool) : State :=
  if atOnce || s.svc.errIrq ≤ s.cycle then
    { (s.raiseIrq 0 (bitsNat s.svc.errCtl.toNat 47 32)) with svc := { s.svc with errIrq := s.cycle + 4096 } }
  else s

/-- Write a record's bytes to the ring (R391). -/
def State.putRecord (s : State) (body : List Byte) : State :=
  let v := s.svc
  let b := if v.dropped then putAt body 7 1 ((leAt body 7 1) ||| 1) else body
  let pa := v.errBase.toNat + 128 * (v.errProd.toNat % v.errSize)
  let s := s.hostWrite pa (b ++ natLe 4 (crc32c b).toNat)
  let s : State := { s with svc := { s.svc with errProd := v.errProd + 1, dropped := false } }
  s.errIrqRaise (leAt body 4 1 == 3 || leAt body 4 1 == 4)

/-- The fields whose equality lets a held record absorb a later event (R391). -/
def recordKey (b : List Byte) : List Byte := (b.drop 5).take 2 ++ (b.drop 16).take 8

/-- Hold a record on the hub die, or let a held one absorb it, or drop it (R391). -/
def Service.hold (v : Service) (body : List Byte) : Service :=
  let soft := leAt body 4 1 == 1 || leAt body 4 1 == 2
  let same := fun (h : List Byte) => soft && (leAt h 4 1 == 1 || leAt h 4 1 == 2) && recordKey h == recordKey body
  match v.held.findIdx? same with
  | some i => { v with held := v.held.modify i fun h => putAt h 30 2 (if leAt h 30 2 < 65535 then leAt h 30 2 + 1 else 65535) }
  | none => if v.held.length < 256 then { v with held := v.held ++ [body] } else { v with dropped := true }

/-- File an error record (R389 to R391, R401). -/
def State.file (s : State) (r : ErrRec) : State :=
  let body := r.body s.svc.seq s.cycle
  let s : State := { s with svc := { s.svc with
    seq := (s.svc.seq + 1) % 2 ^ 32,
    bySev := s.svc.bySev.modify r.sev (· + 1),
    flash := if r.sev = 3 ∨ r.sev = 4 then (s.svc.flash ++ [body ++ natLe 4 (crc32c body).toNat]).drop
               ((s.svc.flash.length + 1) - 1024) else s.svc.flash } }
  if r.sev < bitsNat s.svc.errCtl.toNat 7 5 then s
  else if s.svc.held.isEmpty && s.svc.errRoom then s.putRecord body
  else { s with svc := s.svc.hold body }

/-- Write held records while the ring has room (R391). -/
def State.drainRecords (s : State) : State :=
  s.svc.held.foldl (fun s b =>
    if s.svc.errRoom then
      { (s.putRecord b) with svc := { (s.putRecord b).svc with held := s.svc.held.drop 1 } }
    else s) s

/-- Raise a replacement reason once, with its record (R395). -/
def State.replace (s : State) (bit : Nat) (r : ErrRec) : State :=
  if s.svc.repl.getLsbD bit then s
  else
    ({ s with svc := { s.svc with repl := s.svc.repl ||| BitVec.twoPow 7 bit ||| 1 } } : State).file
      { r with sev := 5, kind := 7, flags := 2 }

/-- A reserved field of a register was written with a value other than 0 (R8). -/
def State.reservedWrite (s : State) (f off : Nat) (value : W64) : State :=
  s.file { hubRecord 0 0x14 12 with func := f, addr := off, detail := natLe 8 value.toNat }

end Sys2Proof.Machine
end

