-- ==== Sys2Proof/Machine/Cipher.lean ====
section
/-! DEFINITION. Lines outside the package (R333 to R335): world keys, counter blocks, write counts, MACs and buffer versions. The
memories of `Mems` hold what the device reads; what stands outside is computed from it here. -/

namespace Sys2Proof.Machine

/-- Base of DDR-5 (R344). -/
def ddrBase : Nat := 0x10000000000

/-- A line that leaves the package when it is written back to its memory: DDR-5 or host memory (R333). -/
def Loc.coded (l : Loc) : Bool := l.tgt == 1 || (l.tgt == 0 && decide (ddrBase ≤ l.pa))

/-! ### Keys and counter blocks (R333) -/

/-- The draw of a world's keys. -/
def Security.draw (x : Security) (world : Nat) : Option Nat := (x.keys.find? fun k => k.1 == world).map fun k => k.2
/-- The two AES-256 keys of a draw. -/
def dataKey (draw : Nat) : List Byte := (List.range 32).map fun i => Config.keyByte (64 * draw + i)
def macKey (draw : Nat) : List Byte := (List.range 32).map fun i => Config.keyByte (64 * draw + 32 + i)

/-- A world is created: its keys are drawn. -/
def Security.create (x : Security) (world : Nat) : Security :=
  { x with keys := (world, x.drawn) :: x.keys.filter fun k => k.1 != world, drawn := x.drawn + 1 }
/-- A world is deleted: its keys and its buffers go (R330). -/
def Security.delete (x : Security) (world : Nat) : Security :=
  { x with keys := x.keys.filter fun k => k.1 != world, buffers := x.buffers.filter fun b => b.world != world }

/-- Counter block `i` of a line: address bits [56:8], the block index, the write count and the world, from the top down (log
entry 110). -/
def counterBlock (pa i count world : Nat) : List Byte :=
  bigBytes (pa / 256 % 2 ^ 49 * 2 ^ 79 + i % 16 * 2 ^ 75 + count % 2 ^ 56 * 2 ^ 19 + world % 64 * 2 ^ 13)

/-- The key stream of a line's 256 bytes. -/
def LineMeta.stream (m : LineMeta) : List Byte :=
  (List.range 16).flatMap fun i => aes256 (dataKey m.draw) (counterBlock m.loc.pa i m.count m.world)

/-- A line's ciphertext, or the plain bytes of a ciphertext: counter mode is its own inverse. -/
def LineMeta.crypt (m : LineMeta) (bs : List Byte) : List Byte := xorBytes bs m.stream

/-! ### MACs and metadata (R334) -/

/-- A number as little-endian bytes. -/
def littleBytes (k n : Nat) : List Byte := (List.range k).map fun i => BitVec.ofNat 8 (n / 256 ^ i)

/-- The MAC over the ciphertext, the line address, the world, the write count and the version, cut to 64 bits (log entry 110 for
the IV and the order). -/
def LineMeta.mac (m : LineMeta) (cipher : List Byte) : List Byte :=
  let rest := littleBytes 8 (m.loc.pa / 256 * 256) ++ littleBytes 1 m.world ++ littleBytes 7 m.count ++ littleBytes 7 m.version
  (gmac (macKey m.draw) (littleBytes 7 m.count ++ littleBytes 5 (m.loc.pa / 256)) (cipher ++ rest)).take 8

/-- The 16 bytes of metadata. -/
def LineMeta.bytes (m : LineMeta) (cipher : List Byte) : List Byte := m.mac cipher ++ littleBytes 7 m.count ++ [0]

/-- What the engine knows of a line. -/
def Security.metaOf (x : Security) (l : Loc) : Option LineMeta := x.metas.find? fun m => m.loc == l.line

/-- The version of a line's buffer, 0 in none; during a rewrap the lines from the pointer on have the old one (R335). -/
def Security.versionOf (x : Security) (l : Loc) : Nat :=
  match x.buffers.find? fun b => l.tgt == 0 && decide (b.base ≤ l.pa) && decide (l.pa < b.base + b.len) with
  | none => 0
  | some b => match x.rewrap with
    | some r => if r.idx = b.idx && decide (r.ptr ≤ l.pa) then (b.version + 2 ^ 56 - 1) % 2 ^ 56 else b.version
    | none => b.version

/-- A line is written back to memory outside the package: its write count steps (R333). -/
def Security.stepLine (x : Security) (world : Nat) (l : Loc) : Security :=
  let old := ((x.metaOf l).map fun m => m.count).getD 0
  let m : LineMeta := { loc := l.line, world := world, draw := (x.draw world).getD 0, count := (old + 1) % 2 ^ 56, version := x.versionOf l }
  { x with metas := m :: x.metas.filter fun m => m.loc != l.line }
/-- A write of `n` bytes is written back to each of its lines. -/
def Security.wrote (x : Security) (l : Loc) (n world : Nat) : Security :=
  if l.coded then (l.linesOf n).foldl (fun x y => x.stepLine world y) x else x

/-- A line as the device left it passes its check for a world: the world's keys and the version are those of its MAC. A line that
the device has not written passes (log entry 110). -/
def Security.passes (x : Security) (l : Loc) (world : Nat) : Bool :=
  !l.coded || match x.metaOf l with
  | none => true
  | some m => m.world == world && some m.draw == x.draw world && m.version == x.versionOf l

/-- The world that a line belongs to: the one that wrote it. -/
def Security.worldOf (x : Security) (l : Loc) : Nat := ((x.metaOf l).map fun m => m.world).getD 0

/-- What the metadata of an image found at a line says, when its MAC is right under the version in force: ciphertext and 16 bytes
of metadata (R334). -/
def Security.check (x : Security) (l : Loc) (cipher md : List Byte) : Option LineMeta :=
  let w := x.worldOf l
  let m : LineMeta := { loc := l.line, world := w, draw := (x.draw w).getD 0, count := littleNat ((md.drop 8).take 7), version := x.versionOf l }
  if l.coded && md.length == 16 && md.getD 15 1 == 0 && cipher.length == 256 && md.take 8 == m.mac cipher then some m else none

end Sys2Proof.Machine
end

