-- ==== Sys2Proof/Machine/Ops.lean ====
section
/-! DEFINITION. The named operations on hearths, groups, splits and registers, taking a trap (R286 to R288) and
leaving the handler. -/

namespace Sys2Proof.Machine

/-! ### Where things stand -/

/-- The group in a hearth's slot. -/
def Core.group? (c : Core) (h slot : Nat) : Option Group := c.groups.find? fun g => g.h == h && g.slot == slot
/-- Change the group in a hearth's slot. -/
def Core.modGroup (c : Core) (h slot : Nat) (f : Group → Group) : Core :=
  { c with groups := c.groups.map fun g => if g.h == h && g.slot == slot then f g else g }
/-- A team part by its number. -/
def Core.part? (c : Core) (id : Nat) : Option Part := c.parts.find? fun p => p.id == id
/-- Change a team part. -/
def Core.modPart (c : Core) (id : Nat) (f : Part → Part) : Core :=
  { c with parts := c.parts.map fun p => if p.id == id then f p else p }
/-- A hearth. -/
def Core.hearth? (c : Core) (h : Nat) : Option Hearth := c.hearths[h]?
/-- Change a hearth. -/
def Core.modHearth (c : Core) (h : Nat) (f : Hearth → Hearth) : Core := { c with hearths := c.hearths.modify h f }
/-- A free split entry. -/
def freeSplit : SplitE :=
  { mask := 0, ids := [], spill := [], offset := 0, state := .free, age := 0, waitarg := 0, waitstart := 0,
    bank := List.replicate 16 0, seqRun := none, held := [], rmask := LaneMask.all, noIssue := none, born := none,
    stopped := false, refetch := none, before := .free, monitor := none, loads := [], waitOff := 0,
    passBrk := false, ckptOk := false }
/-- A split entry of a group. -/
def Group.split (g : Group) (n : Nat) : SplitE := g.splits.getD n freeSplit
/-- Change a split entry of a group. -/
def Group.modSplit (g : Group) (n : Nat) (f : SplitE → SplitE) : Group := { g with splits := g.splits.modify n f }
/-- Change a split entry. -/
def Core.modSplit (c : Core) (h slot n : Nat) (f : SplitE → SplitE) : Core := c.modGroup h slot fun g => g.modSplit n f
/-- The code of a split state (R238). -/
def SplitState.code : SplitState → Nat
  | .free => 0 | .ready => 1 | .held => 2 | .join => 3 | .barrier => 4 | .ember => 5 | .longwait => 6
  | .parked => 7 | .trapped => 8 | .swapped => 9
/-- A split entry enters a state at this cycle's boundary; a TRAPPED entry keeps its state (R288). -/
def SplitE.enter (e : SplitE) (cycle : Nat) (st : SplitState) (arg : W32) : SplitE :=
  if e.state = .trapped then e else { e with state := st, waitarg := arg, waitstart := cycle + 1 }
/-- Splits that hold lanes. -/
def Group.liveSplits (g : Group) : List Nat := (List.range 4).filter fun n => (g.split n).state != .free
/-- Every lane that some split, deferred side or region of the group still holds. -/
def Group.lanesAlive (g : Group) : LaneMask :=
  let a := g.splits.foldl (fun m e => m ||| e.mask) (0 : LaneMask)
  let b := g.sides.foldl (fun m e => m ||| e.mask) a
  g.idents.foldl (fun m e => m ||| e.owed) b
/-- Die, stove and hearth of a hearth number (R4). -/
def dieOf (h : Nat) : Nat := h / 128
def stoveOf (h : Nat) : Nat := h / 16
/-- Count an event of a function on a die (R340). -/
def Core.count (c : Core) (func die ev n : Nat) : Core := { c with live := c.live ++ [(8 * func + die, ev, n)] }
/-- Count an event of a group's function on its die. -/
def Core.countGroup (c : Core) (g : Group) (ev n : Nat) : Core :=
  match c.part? g.part with
  | some p => c.count p.func (dieOf g.h) ev n
  | none => c
/-- A fresh free value's number, and the core that has used it. -/
def Core.fresh (c : Core) : Nat × Core := (c.free, { c with free := c.free + 1 })

/-! ### Landing results -/

/-- Physical number of a vector register name under a rotation (R111). -/
def rotated (rho n : Nat) : Nat := if n < 48 then n else 48 + (n - 48 + rho) % 16

/-- The private bank a split number names: a split's own, or the handler's for number 4 (R292). -/
def bankOf (c : Core) (g : Group) (split : Nat) : List W64 :=
  if split = 4 then
    match c.part? g.part with
    | some p => match p.handler with | some r => r.bank | none => []
    | none => []
  else (g.split split).bank

/-- Write a private scalar of a split, and of the splits and sides divided from it in this cycle, which copy the
bank after this cycle's writes (R101, R239). -/
def writePrivate (c : Core) (g : Group) (cycle split n : Nat) (x : W64) : Core :=
  if split = 4 then
    c.modPart g.part fun p => { p with handler := p.handler.map fun r => { r with bank := r.bank.set n x } }
  else c.modGroup g.h g.slot fun g =>
    { g with
      splits := g.splits.mapIdx fun i e =>
        if i == split || e.born == some (split, cycle) then { e with bank := e.bank.set n x } else e
      sides := g.sides.map fun d => if d.born == some (split, cycle) then { d with bank := d.bank.set n x } else d }

/-- Write a scalar or address register (R17). -/
def writeScalar (c : Core) (g : Group) (cycle split : Nat) (r : Reg) (x : W64) : Core :=
  match r with
  | .s n => if n < 16 then writePrivate c g cycle split n x
            else c.modGroup g.h g.slot fun g => { g with sh := g.sh.set (n - 16) x }
  | .a n => c.modGroup g.h g.slot fun g => { g with a := g.a.set n x }
  | .v _ => c
  | .k _ => c

/-- Every split of a group that could still issue stops at its boundary for the handler (R292). -/
def SplitE.parkFor (e : SplitE) (cycle : Nat) : SplitE :=
  match e.state with
  | .ready => { e with state := .parked, waitstart := cycle + 1, waitarg := 0, stopped := true }
  | .held => { e with state := .parked, waitstart := cycle + 1, waitarg := 0, stopped := true }
  | .ember => { e with state := .parked, waitstart := cycle + 1, waitarg := 0, stopped := true }
  | _ => e

/-- The offsets of the records that a split's next bundle draws on: of a sequencer run, those of its body cycle whose
iterations are live (R110), or the one that REPLAY puts before it. -/
def SplitE.nextOffsets (e : SplitE) : List Nat :=
  match e.replay, e.seqRun with
  | some x, _ => [x.1]
  | none, none => [e.offset]
  | none, some r => (List.range r.stages).filterMap fun k =>
      let i := r.t / r.ii
      if k ≤ i && i - k < r.trip then (r.body[r.t % r.ii + k * r.ii]?).map fun b => b.1 else none

/-- The record at which a split stands: its next record, or that of the op it waits in (R290). -/
def SplitE.standsAt (e : SplitE) : Nat :=
  if e.state = .barrier || e.state = .longwait then e.waitOff else e.nextOffsets.headD e.offset

/-- The event of a split among those of a part and those that its handler's run has selected before. -/
def Part.eventFor (p : Part) (slot split : Nat) (shown : List TrapEv) : Option TrapEv :=
  (p.events ++ shown).find? fun e => e.slot == slot && e.split == split

/-- The handler selects a split: its context and trap registers are loaded afresh; a split that could issue is
parked, with origin 5; one with an event has it taken (R292). -/
def selectSplit (c : Core) (p : Part) (r : HandlerRun) (slot split cycle : Nat) : Core :=
  match c.group? p.h slot with
  | none => c
  | some g =>
    let e := g.split split
    let r' : HandlerRun := { r with slot := slot, split := split, bank := e.bank }
    let c := c.modSplit p.h slot split fun e => e.parkFor cycle
    match p.eventFor slot split r.shown with
    | some ev =>
      c.modPart p.id fun p =>
        { p with events := p.events.filter fun e => !(e == ev),
                 handler := some { r' with shown := r.shown.filter (fun e => !(e == ev)) ++ [ev], origin := ev.origin, code := ev.code, pc := BitVec.ofNat 64 ev.pc,
                                           mask := ev.mask, info := [ev.info0, ev.info1, ev.info2, ev.info3] } }
    | none =>
      c.modPart p.id fun p =>
        { p with handler := some { r' with origin := 5, code := 0, pc := BitVec.ofNat 64 e.standsAt, mask := e.mask,
                                           info := [0, 0, 0, 0] } }

/-- A value written whole to %TRAP_CAUSE (R289): SBANK, ACTION and HSEL, and a selection when GROUP or SPLIT
changes. -/
def writeCause (c : Core) (p : Part) (r : HandlerRun) (x cycle : Nat) : Core :=
  let r' : HandlerRun := { r with sbank := bitNat x 27, action := bitsNat x 26 24, hsel := bitNat x 11 }
  let slot := bitsNat x 19 16
  let split := bitsNat x 21 20
  if slot = r.slot && split = r.split then c.modPart p.id fun p => { p with handler := some r' }
  else
    match c.group? p.h slot with
    | some g => if g.part = p.id then selectSplit c p r' slot split cycle
                else c.modPart p.id fun p => { p with handler := some r' }
    | none => c.modPart p.id fun p => { p with handler := some r' }

/-- Put a value into a special register (R132, R133, R289, R290). -/
def putCsr (c : Core) (g : Group) (cycle split n : Nat) (x : W64) : Core :=
  match n with
  | 0x10 => c.modGroup g.h g.slot fun g => { g with fflags := x.setWidth 5 }
  | 0x11 => c.modGroup g.h g.slot fun g => { g with fctl := x.setWidth 3 }
  | 0x12 => c.modGroup g.h g.slot fun g => { g with isat := x.getLsbD 0 }
  | 0x2A => c.modGroup g.h g.slot fun g => { g with vrot := x.toNat % 16 }
  | _ =>
    match c.part? g.part with
    | none => c
    | some p =>
      if n = 0x23 then
        { c with parts := c.parts.map fun q =>
            if q.launch == p.launch && q.team == p.team then { q with threshold := x.toNat } else q }
      else
        match (if split = 4 then p.handler else none) with
        | none => c
        | some r =>
          if n = 0x30 then writeCause c p r x.toNat cycle
          else
            let r' : HandlerRun :=
              if n = 0x31 then { r with pc := x }
              else if n = 0x32 then
                { r with mask := if r.hsel then x ++ r.mask.extractLsb' 0 64 else r.mask.extractLsb' 64 64 ++ x }
              else { r with info := r.info.set (n - 0x34) x }
            c.modPart p.id fun p => { p with handler := some r' }

/-- Carry out one register write. A write to k0 is discarded (R17). -/
def RegWrite.apply (w : RegWrite) (c : Core) (g : Group) (cycle split : Nat) : Core :=
  match w with
  | .lanes n m v => c.modGroup g.h g.slot fun g => { g with v := g.v.modify n fun old => Vec.merge m old v }
  | .pred n m v =>
    if n = 0 then c
    else c.modGroup g.h g.slot fun g => { g with k := g.k.modify n fun old => (old &&& ~~~m) ||| (v &&& m) }
  | .scalar r x => writeScalar c g cycle split r x
  | .csr n x => putCsr c g cycle split n x
  | .tensor n j x => c.modPart g.part fun p => { p with tn := p.tn.modify n fun e => e.set j x }

/-- Carry out register writes in order. -/
def applyWrites (ws : List RegWrite) (c : Core) (g : Group) (cycle split : Nat) : Core :=
  ws.foldl (fun c w => w.apply c g cycle split) c

/-- OR flags into a group (R48). -/
def Group.flag (g : Group) (f : BitVec 5) (sat : Bool) : Group :=
  { g with fflags := g.fflags ||| f, isat := g.isat || sat }

/-- A result lands: its writes, then its flags (R20, R48). -/
def Landing.land (l : Landing) (c : Core) (cycle : Nat) : Core :=
  match c.group? l.h l.slot with
  | none => c
  | some g =>
    let c := applyWrites l.writes c g cycle l.split
    c.modGroup l.h l.slot fun g =>
      g.flag (l.fflags.foldl (· ||| ·) 0) (l.isat != 0)

/-- The lanes a write keeps after a kill; a write with none left goes (R26). -/
def RegWrite.cut (w : RegWrite) (kill : LaneMask) (whole : Bool) : Option RegWrite :=
  match w with
  | .lanes n m v => if m &&& ~~~kill = 0 then none else some (.lanes n (m &&& ~~~kill) v)
  | .pred n m v => if m &&& ~~~kill = 0 then none else some (.pred n (m &&& ~~~kill) v)
  | .scalar r x => if whole then none else some (.scalar r x)
  | .csr n x => if whole then none else some (.csr n x)
  | .tensor n j x => some (.tensor n j x)

/-- A squashable result of a split after a taken transfer at `cycle` of the lanes `kill` (R26). -/
def Landing.squash (l : Landing) (h slot split cycle : Nat) (kill : LaneMask) (whole : Bool) : Option Landing :=
  if l.h = h && l.slot = slot && l.split = split && l.sq && cycle < l.due then
    let ws := l.writes.filterMap fun w => w.cut kill whole
    if ws.isEmpty then none
    else some { l with writes := ws, lanes := l.lanes &&& ~~~kill, isat := l.isat &&& ~~~kill,
                       fflags := l.fflags.mapIdx fun i f => if kill.has i then 0 else f }
  else some l

/-- The load is a squashable one of a split. -/
def Access.squashable (a : Access) (h slot split : Nat) : Bool := a.h == h && a.slot == slot && a.split == split && a.sq

/-- It is due, and so may land at the end of the cycle. -/
def Access.landsBy (a : Access) (cycle : Nat) : Bool := match a.due with | some d => decide (d ≤ cycle) | none => false

/-- A killed load: its killed lanes are discarded (R26, R298). The single result of a scalar load goes only when the whole
split leaves (log entry 92). -/
def Access.cut (a : Access) (kill : LaneMask) (whole : Bool) : Option Access :=
  if whole then none
  else if a.kind = .ldSc then some a
  else if a.mask &&& ~~~kill = 0 then none
  else some { a with
    mask := a.mask &&& ~~~kill, todo := a.todo &&& ~~~kill, faulted := a.faulted &&& ~~~kill, done := a.done &&& ~~~kill }

/-- A register is one of a result's destinations: s0 to s15 are each split's own. -/
def sameDest (split : Nat) (dst : List Reg) (r : Reg) (n : Nat) : Bool :=
  dst.contains r && match r with | .s k => decide (16 ≤ k) || n == split | _ => true

/-- The pending bits of a result's destinations clear (R24). -/
def Group.clearPend (g : Group) (split : Nat) (dst : List Reg) : Group :=
  { g with pend := g.pend.filter fun e => !(sameDest split dst e.1 e.2.1) }

/-- The access is killed in those lanes (R26). -/
def Core.killLoad (c : Core) (a : Access) (kill : LaneMask) (whole : Bool) : Core :=
  match a.cut kill whole with
  | some b => { c with accs := c.accs.map fun x => if x.id == a.id then b else x }
  | none => { c with accs := c.accs.filter fun x => x.id != a.id }.modGroup a.h a.slot fun g => g.clearPend a.split a.dst

/-- A taken transfer of a split at this cycle kills the squashable ops that do not land by its end (R26); `whole` when
every lane of the split takes it. A load that is due is killed only if it does not land in this cycle. -/
def Core.squash (c : Core) (h slot split cycle : Nat) (kill : LaneMask) (whole : Bool) : Core :=
  let mine := c.accs.filter fun a => a.squashable h slot split
  let c := { c with ctx := { c.ctx with kill := if whole then LaneMask.all else kill },
                    land := c.land.filterMap fun l => Landing.squash l h slot split cycle kill whole,
                    doomed := c.doomed ++ (mine.filter fun a => a.landsBy cycle).map fun a => (a.id, kill, whole) }
  (mine.filter fun a => !(a.landsBy cycle)).foldl (fun c a => c.killLoad a kill whole) c

/-- The kills of loads that were due and have not landed in the cycle (R26). -/
def Core.killDoomed (c : Core) : Core :=
  c.doomed.foldl (fun c d => match c.accs.find? fun a => a.id == d.1 with
    | some a => c.killLoad a d.2.1 d.2.2
    | none => c) { c with doomed := [] }

/-! ### Traps -/

/-- A split that waits at a join leaves it: its lanes still owe the join, and arrive again when the split runs on (R102,
R288). -/
def Group.unjoin (g : Group) (n : Nat) : Group :=
  let e := g.split n
  if e.state = .join then
    { g with idents := g.idents.map fun i =>
        if e.ids.head? == some i.ident then { i with present := i.present &&& ~~~e.mask } else i }
  else g

/-- Give a trap to a split: it enters TRAPPED and its event joins the team's, or it is held behind one already
taken (R288). A trap inside the handler (split 4) is an event of the handler itself (R295). In a team that is halted
nothing traps (R411). -/
def Core.raise (c : Core) (g : Group) (ev : TrapEv) : Core :=
  if ((c.part? g.part).map fun p => p.halt != 0).getD false then c
  else if ev.split = 4 then c.modPart g.part fun p => { p with events := p.events ++ [ev] }
  else if (g.split ev.split).state = .trapped then
    c.modSplit g.h g.slot ev.split fun e => { e with held := e.held ++ [ev] }
  else
    let c := (c.modGroup g.h g.slot fun g => g.unjoin ev.split).modSplit g.h g.slot ev.split fun e =>
      { e with state := .trapped, waitarg := BitVec.ofNat 32 ev.code, waitstart := ev.cycle + 1, seqRun := e.seqRun }
    c.modPart g.part fun p =>
      { p with events := p.events ++ [ev], handlerAt := if p.events.isEmpty then ev.cycle + 13 else p.handlerAt }

/-- The codes of R287. -/
def trapIllegalEntry : Nat := 0x01
def trapReservedField : Nat := 0x02
def trapDictImage : Nat := 0x03
def trapBadTarget : Nat := 0x04
def trapIllegalSchedule : Nat := 0x05
def trapQueueImbalance : Nat := 0x06
def trapPrivateLimit : Nat := 0x07
def trapPageFault : Nat := 0x08
def trapAccess : Nat := 0x09
def trapMisalign : Nat := 0x0A
def trapMemAbort : Nat := 0x0B
def trapStackOverflow : Nat := 0x0C
def trapExecFault : Nat := 0x0D
def trapInstr : Nat := 0x0E
def trapDebugStop : Nat := 0x0F
def trapStarvation : Nat := 0x10
def trapWorld : Nat := 0x11
def trapKat : Nat := 0x12
def trapCheckpoint : Nat := 0x13
def trapMeadowWrite : Nat := 0x14
def trapSeqError : Nat := 0x15
def trapOrdered : Nat := 0x16
def trapMonitor : Nat := 0x17

/-- What a trap says of itself: code, lanes, details (R287). -/
structure TrapInfo where
  code : Nat
  mask : LaneMask
  info0 : Nat
  info1 : Nat
  info2 : Nat
  info3 : Nat
  deriving DecidableEq, Repr

/-- A trap with two details (R287). -/
def trapOf (code : Nat) (mask : LaneMask) (i0 i1 : Nat) : TrapInfo :=
  { code := code, mask := mask, info0 := i0, info1 := i1, info2 := 0, info3 := 0 }

/-- The event of a trap of the bundle at issue. -/
def TrapInfo.event (t : TrapInfo) (x : Ctx) (origin cycle : Nat) : TrapEv :=
  { slot := x.slot, split := x.split, code := t.code, origin := origin, pc := x.off, mask := t.mask,
    info0 := BitVec.ofNat 64 t.info0, info1 := BitVec.ofNat 64 t.info1, info2 := BitVec.ofNat 64 t.info2,
    info3 := BitVec.ofNat 64 t.info3, cycle := cycle, iter := x.iter }

/-- TAKING AN EXCEPTION: the issuing split takes a trap (R286 to R288). At issue (origin 0) none of the record
stands and the split stays at it, as for a wait on a tag that has failed (origin 4); after the bundle (origin 1) the
split stops where the bundle has brought it. -/
def takeTrap (s : State) (t : TrapInfo) (origin : Nat) : Core :=
  let x := s.core.ctx
  match s.core.group? x.h x.slot with
  | none => s.core
  | some g =>
    let c := if origin = 0 || origin = 4 then
        { (if x.split = 4 then s.core
           else s.core.modSplit x.h x.slot x.split fun e => { e with offset := x.off }) with
          ctx := { x with voided := true } }
      else s.core
    c.raise g (t.event x origin s.cycle)

/-! ### What a slot op sees at issue -/

/-- The issuing bundle's group and team part, with the whole state as it stands. -/
structure View where
  st : State
  x : Ctx
  g : Group
  p : Part
  deriving Repr

/-- The view of the bundle being issued; none when no group stands where it issues. -/
def view (s : State) : Option View :=
  match s.core.group? s.core.ctx.h s.core.ctx.slot with
  | none => none
  | some g =>
    match s.core.part? g.part with
    | none => none
    | some p => some { st := s, x := s.core.ctx, g := g, p := p }

/-- A predicate register; k0 reads all-ones (R17). -/
def Group.pred (g : Group) (n : Nat) : LaneMask := if n = 0 then LaneMask.all else g.k.getD n 0

/-- The active mask of an op: its guard within the issuing split's mask (R28), and within %TRAP_MASK for a
replayed record (R293). -/
def View.active (v : View) (hd : Hdr) : LaneMask :=
  let k := v.g.pred hd.gpred.toNat
  (if hd.gpol then ~~~k else k) &&& v.x.smask &&& v.x.rmask

/-- The current cycle. -/
def View.cycle (v : View) : Nat := v.st.cycle

/-- What an op does at issue: the hearths after it, or a trap with its origin. -/
inductive OpResult where
  | ok (c : Core)
  | trap (t : TrapInfo) (origin : Nat)
  deriving Repr

/-- Place numbers of RESERVED_FIELD (R287). -/
def placeOf : Slot → Nat
  | .t => 0 | .m => 1 | .a => 2 | .v1 => 3 | .v0 => 4 | .s => 5 | .c => 6 | .f => 7 | .x => 8

/-- RESERVED_FIELD for a field whose lowest bit is `bit`: below 64 in the slot at `place`, from 64 in the shared field
(place 9), from 128 in operand data (place 11) (R287). -/
def View.reserved (v : View) (place : Nat) (act : LaneMask) (bit : Nat) : TrapInfo :=
  trapOf trapReservedField act
    ((if bit < 64 then place else if bit < 128 then 9 else 11) + bit % 64 * 256) v.x.idx

/-- Slots whose squashable ops land after the end of c, so a transfer of their own bundle kills them before they
act (R26, R157); an M op is a load then. -/
def killable (sl : Slot) : Bool := sl == .v0 || sl == .v1 || sl == .f || sl == .x || sl == .m

/-- The lanes an op acts on: those its guard leaves, less those that a transfer of its own bundle takes from a squashable
op (R26, R28); a killed op checks nothing more, so it takes no trap (log entry 92). -/
def View.lanesOf (v : View) (sl : Slot) (hd : Hdr) : LaneMask :=
  if hd.sq && killable sl then v.active hd &&& ~~~v.x.kill else v.active hd

/-- A slot op at issue: with an empty active mask nothing; with a reserved value RESERVED_FIELD (R28, R29); else
its effect, or the trap it takes. T-slot traps have origin 1, the others origin 0 (R286). -/
def slotOp (s : State) (sl : Slot) (hd : Hdr) (bad : View → Option Nat) (eff : View → LaneMask → OpResult) : Core :=
  match view s with
  | none => s.core
  | some v =>
    let act := v.lanesOf sl hd
    if act = 0 then s.core
    else match bad v with
      | some bit => takeTrap s (v.reserved (placeOf sl) act bit) (if sl = .t then 1 else 0)
      | none =>
        match eff v act with
        | .ok c => c
        | .trap t o => takeTrap s t o

/-- A meaning that changes the hearths alone. -/
def coreOp (s : State) (f : State → Core) : Host.Outcome State Fault Refusal := .next { s with core := f s }

/-- Send a fixed-latency result on its way: written at the end of cycle c + `lat` (R20). -/
def View.sendTo (v : View) (c : Core) (lat : Nat) (sq : Bool) (bus : Option Nat) (lanes : LaneMask)
    (ws : List RegWrite) (fl : List (BitVec 5)) (sat : LaneMask) : Core :=
  { c with land := c.land ++ [{ h := v.x.h, slot := v.x.slot, split := v.x.split, due := v.cycle + lat, seq := v.x.seq,
                                sq := sq, bus := bus, lanes := lanes, writes := ws, fflags := fl, isat := sat }] }

end Sys2Proof.Machine
end

