-- ==== Sys2Proof/Machine/Hier.lean ====
section
/-! DEFINITION. The global path: physical locations, page-table walks and the stove TLBs (R344 to R350), the L1s and
L2s (R262 to R264, R381), and what release and acquire do to them (R280). -/

namespace Sys2Proof.Machine

/-! ### Locations (R264, R344) -/

/-- Home stove 0 to 31 of a device-memory address (R264). -/
def homeStove (pa : Nat) : Nat := bitsNat pa 12 8 ^^^ bitsNat pa 17 13 ^^^ bitsNat pa 22 18 ^^^ bitsNat pa 27 23

/-- A stove is the home of a line. -/
def Loc.homeAt (l : Loc) (stove : Nat) : Bool := l.tgt == 0 && homeStove l.pa == stove

/-- Bytes of HBM4 in service: 48 GB a stack, in powers of 1,000 (R1, R7, log entry 24). -/
def Service.hbmBytes (v : Service) : Nat := (LaneMask.count (v.stackMask.setWidth 128)) * 48 * 10 ^ 9
/-- Bytes of installed and of usable DDR-5: 256 GB a channel, fifteen sixteenths (R1, R7, R334, log entry 24). -/
def Service.ddrBytes (v : Service) : Nat := (LaneMask.count (v.channels.setWidth 128)) * 256 * 10 ^ 9
def Service.ddrUsable (v : Service) : Nat := v.ddrBytes / 16 * 15

/-- A physical range lies in the extent of R344. -/
def Service.installed (v : Service) (tgt pa n : Nat) : Bool :=
  match tgt with
  | 0 => decide (pa + n ≤ v.hbmBytes) || (decide (ddrBase ≤ pa) && decide (pa + n ≤ ddrBase + v.ddrUsable))
  | 3 => decide (pa + n ≤ 4 * 2 ^ 31)
  | _ => true

/-- The memory that holds a kind of location. -/
def Mems.space (m : Mems) (tgt : Nat) : List Host.Cell :=
  match tgt with
  | 0 => m.dev
  | 1 => m.host
  | _ => m.meadow
/-- Change the memory that holds a kind of location. -/
def Mems.modSpace (m : Mems) (tgt : Nat) (f : List Host.Cell → List Host.Cell) : Mems :=
  match tgt with
  | 0 => { m with dev := f m.dev }
  | 1 => { m with host := f m.host }
  | _ => { m with meadow := f m.meadow }

/-- Bytes at a location of this device. -/
def State.homeRead (s : State) (l : Loc) (n : Nat) : List Byte := cellsRead (s.mem.space l.tgt) l.pa n

/-- A write of `n` bytes reaches the home of its lines; one that is written whole leaves the lost-line table (R387). -/
def Caches.wroteLine (c : Caches) (l : Loc) (n : Nat) : Caches :=
  let whole := fun (x : Loc) => decide (l.pa ≤ x.pa) && decide (x.pa + 256 ≤ l.pa + n)
  let c := (l.linesOf n).foldl Caches.mark c
  { c with lost := c.lost.filter fun x => !((l.linesOf n).any fun y => y == x && whole y) }

/-- Bytes of a world reach the home of their line, on this device; a line outside the package is written back with them (R333; log
entry 110). -/
def State.homeWrite (s : State) (l : Loc) (bs : List Byte) (world : Nat) : State :=
  { s with mem := s.mem.modSpace l.tgt fun m => cellsWrite m l.pa bs, cch := s.cch.wroteLine l bs.length, sec := s.sec.wrote l bs.length world }

/-- Write the bytes of a line whose mask bit is set, run by run, from index `i` on. -/
def State.homeWriteMask (s : State) (l : Loc) (mask : Nat → Bool) (bs : List Byte) (world : Nat) : State :=
  if (List.range bs.length).all mask then s.homeWrite l bs world
  else (List.range bs.length).foldl (fun s i => if mask i then s.homeWrite { l with pa := l.pa + i } [bs.getD i 0] world else s) s

/-! ### Requests to other devices (R372 to R374) -/

/-- A live port toward a device for a line: the route mask's live ports by line address (R372, log entry 25). -/
def Fabric.portFor (f : Fabric) (dst pa : Nat) : Option Nat :=
  let live := (List.range 12).filter fun p =>
    bitNat (f.routes.getD dst 0) p && (match f.ports[p]? with | some q => !q.dead | none => false)
  if f.device.isNone || live.isEmpty then none else live[pa / 128 % live.length]?

/-- The line of a location that has arrived for whoever asked as `id`; no bytes when the request aborted. -/
def Fabric.lineFor (f : Fabric) (id : Nat) (l : Loc) : Option (List Byte) :=
  (f.lines.find? fun x => x.acc == id && x.dev == l.dev && x.addr == l.pa - l.pa % 128).map fun x => x.bytes

/-- Send a request to another device; none when it is unreachable. -/
def State.sendRemote (s : State) (type dst world op pa : Nat) (mask : BitVec 128) (data ext : List Byte) (acc : Nat)
    (lanes : LaneMask) (write : Bool) (agent : Nat := 0) : Option State :=
  match s.fab.portFor dst pa with
  | none => none
  | some p =>
    let f : Flit := { type := BitVec.ofNat 8 type, vc := 0, src := s.fab.device.getD 0, dst := dst,
                      tag := BitVec.ofNat 16 s.fab.nextTag, world := world, op := BitVec.ofNat 8 op,
                      addr := BitVec.ofNat 64 pa, mask := mask, data := data, ext := ext }
    let r : Remote := { tag := s.fab.nextTag, dst := dst, port := p, addr := pa, acc := acc, lanes := lanes, write := write, type := type,
                        issued := s.cycle, drain := none, agent := agent }
    some { s with fab := { s.fab with out := s.fab.out ++ [f], remotes := s.fab.remotes ++ [r],
                                      nextTag := (s.fab.nextTag + 1) % 65536 } }

/-- An aborted remote write that no release awaits is filed (R377). -/
def remoteAbortRecord (pa world : Nat) : ErrRec := { hubRecord 3 0x13 11 with addr := pa, world := world }

/-- The port of a write that has none: its device is unreachable. -/
def noPort : Nat := 12

/-- A write to an unreachable device: it aborts at once (R377). -/
def State.lostWrite (s : State) (dst pa agent : Nat) : State :=
  let r : Remote := { tag := s.fab.nextTag, dst := dst, port := noPort, addr := pa, acc := 0, lanes := 0, write := true, type := 2,
                      issued := s.cycle, drain := none, agent := agent }
  { s with fab := { s.fab with remotes := s.fab.remotes ++ [r], nextTag := (s.fab.nextTag + 1) % 65536 } }

/-- Write bytes of one 128-byte line at another device, by mask, for an agent. -/
def State.remoteWrite (s : State) (world : Nat) (l : Loc) (mask : Nat → Bool) (bs : List Byte) (agent : Nat := 0) : State :=
  let base := l.pa - l.pa % 128
  let off := l.pa % 128
  let m : BitVec 128 := LaneMask.build fun i => decide (off ≤ i) && decide (i - off < bs.length) && mask (i - off)
  match s.sendRemote 2 l.dev world 0 base m ((List.replicate off 0 ++ bs ++ List.replicate 128 0).take 128) []
      0 0 true agent with
  | some s => s
  | none => s.lostWrite l.dev base agent

/-- Bytes go to the home of their line, wherever it is (within one 128-byte line when it is remote). -/
def State.sendHome (s : State) (world : Nat) (l : Loc) (mask : Nat → Bool) (bs : List Byte) (agent : Nat := 0) : State :=
  if l.tgt = 2 then s.remoteWrite world l mask bs agent else s.homeWriteMask l mask bs world

/-- Count an event caused by an agent of a world (R340, R341). -/
def State.countWorld (s : State) (world die ev n : Nat) : State :=
  match s.hst.owners.getD world none with
  | some f => { s with core := s.core.count f die ev n }
  | none => s

/-- Count a line read or written in device memory (R341). -/
def State.countLine (s : State) (world die : Nat) (l : Loc) : State :=
  if l.tgt = 0 then s.countWorld world die (if l.pa < ddrBase then 0x0E else 0x0F) 1 else s

/-! ### The stove L2 (R263, R264, R381) -/

/-- The set of a line: pa[18:8] (R381). -/
def l2Set (l : Loc) : Nat := bitsNat l.pa 18 8

/-- Write a copy's dirty bytes to their home (R264). -/
def State.writeBackL2 (s : State) (e : L2Copy) : State :=
  if e.dirty = 0 then s
  else (s.sendHome e.owner e.loc (fun i => e.dirty.getLsbD i) e.bytes).countLine e.owner (e.stove / 8) e.loc

/-- The L2 keeps a line of this kind: device and host memory (log entry 25). -/
def Loc.cached (l : Loc) : Bool := l.tgt == 0 || l.tgt == 1

/-- Bring a line into a stove's L2 as its most recently used line, by `n` requests; a full set loses its least recently used
line, written back (R341, R381). -/
def State.touchL2 (s : State) (stove : Nat) (l : Loc) (owner : Nat) (n : Nat := 1) : State :=
  let l := l.line
  let die := stove / 8
  let s := if n = 0 then s else s.countWorld owner die 0x0B n
  match s.cch.l2.find? fun e => e.stove == stove && e.loc == l with
  | some e =>
    { s with cch := { s.cch with l2 := e :: s.cch.l2.filter fun e => !(e.stove == stove && e.loc == l) } }
  | none =>
    let e : L2Copy := { stove := stove, loc := l, dirty := 0, owner := owner,
                        bytes := if l.homeAt stove then [] else s.homeRead l 256 }
    let s := (s.countWorld owner die 0x0C 1).countLine owner die l
    let set := s.cch.l2.filter fun e => e.stove == stove && l2Set e.loc == l2Set l
    if set.length < 16 then { s with cch := { s.cch with l2 := e :: s.cch.l2 } }
    else
      match set.getLast? with
      | none => s
      | some v =>
        let s := (s.writeBackL2 v).countWorld v.owner die 0x0D 1
        { s with cch := { s.cch with l2 := e :: s.cch.l2.filter fun x => !(x.stove == stove && x.loc == v.loc) } }

/-- Read bytes of one 256-byte line through a stove's L2. -/
def State.readL2 (s : State) (stove : Nat) (l : Loc) (owner n : Nat) (reqs : Nat := 1) : State × List Byte :=
  let s := s.touchL2 stove l owner reqs
  match s.cch.l2.find? fun e => e.stove == stove && e.loc == l.line with
  | some e => (s, if l.homeAt stove then s.homeRead l n else (e.bytes.drop (l.pa % 256)).take n)
  | none => (s, s.homeRead l n)

/-- Write bytes of one 256-byte line into a stove's L2; at their home they are in memory at once. -/
def State.writeL2 (s : State) (stove : Nat) (l : Loc) (owner : Nat) (mask : Nat → Bool) (bs : List Byte) (reqs : Nat := 1)
    (agent : Nat := 0) : State :=
  if l.tgt = 2 then s.remoteWrite owner l mask bs agent
  else
    let s := s.touchL2 stove l owner reqs
    if l.homeAt stove then s.homeWriteMask l mask bs owner
    else
      let off := l.pa % 256
      let upd := fun (e : L2Copy) =>
        { e with
          bytes := e.bytes.mapIdx fun i b => if off ≤ i && i - off < bs.length && mask (i - off) then bs.getD (i - off) 0 else b
          dirty := (List.range bs.length).foldl (fun d i => if mask i then d ||| BitVec.twoPow 256 (off + i) else d) e.dirty }
      { s with cch := { s.cch with l2 := s.cch.l2.map fun e => if e.stove == stove && e.loc == l.line then upd e else e } }

/-- The bytes that a release or an acquire covers: every global byte, or the lines that hold bound regions (R280). -/
abbrev Cover := Loc → Bool
/-- Every global byte. -/
def allBytes : Cover := fun _ => true

/-- Push a stove's dirty bytes to their homes: a release at device scope or wider (R280). -/
def State.pushL2 (s : State) (stove : Nat) (cov : Cover := allBytes) : State :=
  let mine := fun (e : L2Copy) => e.stove == stove && cov e.loc
  let s := (s.cch.l2.filter fun e => mine e && e.dirty != 0).foldl (fun s e => s.writeBackL2 e) s
  { s with cch := { s.cch with l2 := s.cch.l2.map fun e => if mine e then { e with dirty := 0 } else e } }

/-- Drop a stove's copies of lines it is not home for, written back first: an acquire at device scope or wider
(R280). -/
def State.dropL2 (s : State) (stove : Nat) (cov : Cover := allBytes) : State :=
  let s := s.pushL2 stove cov
  { s with cch := { s.cch with l2 := s.cch.l2.filter fun e => e.stove != stove || e.loc.homeAt stove || !(cov e.loc) } }

/-! ### The L1 (R262, R350) -/

/-- The 128-byte line of a location. -/
def Loc.line128 (l : Loc) : Loc := { l with pa := l.pa - l.pa % 128 }

/-- A line of a hearth by its virtual tag. -/
def Caches.findL1 (c : Caches) (h world vline : Nat) (priv : Bool) : Option L1Line :=
  c.l1.find? fun e => e.h == h && e.world == world && e.vline == vline && e.priv == priv

/-- Write a line's dirty bytes to the stove's L2, or to their home when the L2 does not keep them. -/
def State.writeBackL1 (s : State) (e : L1Line) : State :=
  if e.dirty = 0 then s else s.writeL2 (stoveOf e.h) e.loc e.world (fun i => e.dirty.getLsbD i) e.bytes 1 (e.h + 1)

/-- Remove a line of a hearth, written back. -/
def State.dropL1Line (s : State) (e : L1Line) : State :=
  let s := s.writeBackL1 e
  { s with cch := { s.cch with l1 := s.cch.l1.filter fun x => !(x.h == e.h && x.loc == e.loc) } }

/-- A line with no sector yet. -/
def emptyL1 (h world vline : Nat) (pv : Bool) (loc : Loc) : L1Line :=
  { h := h, world := world, vline := vline, priv := pv, loc := loc.line128, sectors := 0, dirty := 0,
    bytes := List.replicate 128 0 }

/-- Make room for a line: in a full set a free choice loses its line (R262, log entry 13). -/
def State.roomL1 (s : State) (h vline : Nat) : State :=
  let set := s.cch.l1.filter fun x => x.h == h && x.vline % 128 == vline % 128
  if set.length < 8 then s
  else match set[Config.freeNat s.cch.free % set.length]? with
    | some v => let t := s.dropL1Line v; { t with cch := { t.cch with free := s.cch.free + 1 } }
    | none => s

/-- A line of a hearth under a virtual tag: a line the hearth holds under another tag moves (R350). -/
def State.openL1 (s : State) (h world vline : Nat) (pv : Bool) (loc : Loc) : State :=
  let s := match s.cch.findL1 h world vline pv with
    | some e => if e.loc = loc.line128 then s else s.dropL1Line e
    | none => s
  if (s.cch.findL1 h world vline pv).isSome then s
  else match s.cch.l1.find? fun e => e.h == h && e.loc == loc.line128 with
    | some e =>
      let moved : L1Line := { e with world := world, vline := vline, priv := pv }
      let t : State := { s with cch := { s.cch with l1 := s.cch.l1.filter fun x => !(x.h == h && x.loc == e.loc) } }
      let t := t.roomL1 h vline
      { t with cch := { t.cch with l1 := moved :: t.cch.l1 } }
    | none =>
      let s := s.roomL1 h vline
      { s with cch := { s.cch with l1 := emptyL1 h world vline pv loc :: s.cch.l1 } }

/-- Change a hearth's line. -/
def Caches.modL1 (c : Caches) (h : Nat) (loc : Loc) (f : L1Line → L1Line) : Caches :=
  { c with l1 := c.l1.map fun e => if e.h == h && e.loc == loc.line128 then f e else e }

/-- Put bytes into a line at an offset, where the mask allows. -/
def putMasked (old : List Byte) (off : Nat) (mask : Nat → Bool) (bs : List Byte) : List Byte :=
  old.mapIdx fun i b => if off ≤ i && i - off < bs.length && mask (i - off) then bs.getD (i - off) 0 else b

/-- The L1 holds the sector of a location. -/
def Caches.hasSector (c : Caches) (h : Nat) (l : Loc) : Bool :=
  c.l1.any fun e => e.h == h && e.loc == l.line128 && e.sectors.getLsbD (l.pa % 128 / 32)

/-- A hearth's own write that its L1 and its stove's L2 hold (R121). -/
def Caches.note (c : Caches) (h : Nat) (l : Loc) : Caches :=
  { c with near := (h, l.line, c.writes + 1) :: c.near.filter fun x => !(x.1 == h && x.2.1 == l.line), writes := c.writes + 1 }

/-- Bring a 32-byte sector into a hearth's L1; `reqs` requests to the L2 count for it. -/
def State.fillL1 (s : State) (h world vline : Nat) (priv : Bool) (loc : Loc) (owner : Nat) (reqs : Nat := 1) : State :=
  let s := s.openL1 h world vline priv loc
  let sec := loc.pa % 128 / 32
  match s.cch.findL1 h world vline priv with
  | none => s
  | some e =>
    if e.sectors.getLsbD sec then s
    else
      let l := { loc with pa := loc.pa - loc.pa % 32 }
      let r := (s.countWorld owner (dieOf h) 0x0A 1).readL2 (stoveOf h) l owner 32 reqs
      { r.1 with cch := r.1.cch.modL1 h loc fun e =>
          { e with sectors := e.sectors ||| BitVec.twoPow 4 sec,
                   bytes := putMasked e.bytes (32 * sec) (fun i => !(e.dirty.getLsbD (32 * sec + i))) r.2 } }

/-- Read bytes of one 32-byte sector through a hearth's L1. -/
def State.readL1 (s : State) (h world vline : Nat) (priv : Bool) (loc : Loc) (n : Nat) (reqs : Nat := 1) : State × List Byte :=
  let s := s.fillL1 h world vline priv loc world reqs
  match s.cch.findL1 h world vline priv with
  | some e => (s, (e.bytes.drop (loc.pa % 128)).take n)
  | none => (s, s.homeRead loc n)

/-- A store of a private word or a near atomic: the line is brought in and its bytes become dirty (R262, R275). -/
def State.dirtyL1 (s : State) (h world vline : Nat) (priv : Bool) (loc : Loc) (bs : List Byte) : State :=
  let s := s.fillL1 h world vline priv loc world
  let off := loc.pa % 128
  { s with cch := s.cch.modL1 h loc fun e =>
      { e with bytes := putMasked e.bytes off (fun _ => true) bs,
               dirty := (List.range bs.length).foldl (fun d i => d ||| BitVec.twoPow 128 (off + i)) e.dirty } }

/-- A released store updates the sectors of the line that the hearth holds, and the bytes of a near atomic's result; it allocates
nothing (R262, R275). -/
def State.updateL1 (s : State) (h : Nat) (loc : Loc) (mask : Nat → Bool) (bs : List Byte) : State :=
  let off := loc.pa % 128
  { s with cch := s.cch.modL1 h loc fun e =>
      { e with bytes := putMasked e.bytes off (fun i => mask i && (e.sectors.getLsbD ((off + i) / 32) || e.dirty.getLsbD (off + i))) bs } }

/-- Write a hearth's near-atomic bytes back: a release at stove scope or wider that covers them (R275). -/
def State.flushNear (s : State) (h : Nat) (cov : Cover := allBytes) : State :=
  let mine := fun (e : L1Line) => e.h == h && !e.priv && cov e.loc
  let s := (s.cch.l1.filter fun e => mine e && e.dirty != 0).foldl (fun s e => s.writeBackL1 e) s
  { s with cch := { s.cch with l1 := s.cch.l1.map fun e => if mine e then { e with dirty := 0 } else e } }

/-- Drop a hearth's copies of global bytes: an acquire at stove scope or wider. A near atomic's result stays, and the lines in
flight are of no use to later requests (R275, R280). -/
def State.dropL1 (s : State) (h : Nat) (cov : Cover := allBytes) : State :=
  let mine := fun (e : L1Line) => e.h == h && !e.priv && cov e.loc
  { s with cch := { s.cch with
      l1 := (s.cch.l1.filter fun e => !(mine e) || e.dirty != 0).map fun e => if mine e then { e with sectors := 0 } else e
      misses := s.cch.misses.map fun m => if m.h = h && !m.priv && m.due.isNone && cov m.loc then { m with stale := true } else m } }

/-- The bytes of a location as a hearth's near atomics have left them, over what the stove L2 gives (R275, R277). -/
def Caches.nearBytes (c : Caches) (h : Nat) (l : Loc) (bs : List Byte) : List Byte :=
  match c.l1.find? fun e => e.h == h && !e.priv && e.loc == l.line128 && e.dirty != 0 with
  | none => bs
  | some e => bs.mapIdx fun i b => let k := l.pa % 128 + i; if k < 128 && e.dirty.getLsbD k then e.bytes.getD k 0 else b

/-- Carry out a release of a hearth's earlier released stores at a scope (R277, R280). -/
def State.release (s : State) (h scope : Nat) (cov : Cover := allBytes) : State :=
  let s := if 3 ≤ scope then s.flushNear h cov else s
  if 4 ≤ scope then s.pushL2 (stoveOf h) cov else s
/-- Carry out an acquire of a hearth at a scope (R277, R280). -/
def State.acquire (s : State) (h scope : Nat) (cov : Cover := allBytes) : State :=
  let s := if 3 ≤ scope then s.dropL1 h cov else s
  if 4 ≤ scope then s.dropL2 (stoveOf h) cov else s

/-! ### Miss entries (R266) -/

/-- The entry of a hearth for a line that a later request may join. -/
def Caches.missFor (c : Caches) (h : Nat) (l : Loc) : Option Miss :=
  c.misses.find? fun m => m.h == h && m.loc == l.line128 && !m.stale
/-- The hearth has an entry free. -/
def Caches.missRoom (c : Caches) (h : Nat) : Bool := decide ((c.misses.filter fun m => m.h == h).length < Config.missEntries)

/-- How a request to an L1 stands. -/
inductive Asked where
  /-- The L1 has the sector, or it arrives in this cycle. -/
  | here
  /-- A new entry is in flight. -/
  | sent (s : State)
  /-- It has joined an entry, or waits for a free one. -/
  | waits

/-- A request for a line of this device or of the host, which its L2 serves (R263, R266). -/
def State.askLine (s : State) (h world vline : Nat) (priv : Bool) (l : Loc) : Asked :=
  if s.cch.hasSector h l then .here
  else match s.cch.missFor h l with
  | some m => match m.due with
    | some d => if d ≤ s.cycle then .here else .waits
    | none => .waits
  | none =>
    if s.cch.missRoom h then
      let m : Miss := { h := h, world := world, vline := vline, priv := priv, loc := l.line128,
                        due := some (s.cycle + 1 + Config.freeNat s.cch.free), tag := 0, stale := false }
      .sent (({ s with cch := { s.cch with misses := s.cch.misses ++ [m], free := s.cch.free + 1 } } : State).countWorld world (dieOf h) 0x0B 1)
    else .waits

/-- The entries whose lines have arrived are free in the next cycle. -/
def Caches.freeMisses (c : Caches) (cycle : Nat) : Caches :=
  { c with misses := c.misses.filter fun m => match m.due with | some d => decide (cycle < d) | none => true }

/-- A scope as it acts in a team part: the team of a stove team meets at the stove L2 (R277). -/
def Part.scopeOf (p : Part) (n : Nat) : Nat := if n = 2 && p.image.stove then 3 else n

/-! ### Page-table walks (R345 to R348) -/

/-- A leaf's fields (R345). -/
def leafX (e : W64) : Bool := e.getLsbD 63
def leafW (e : W64) : Bool := e.getLsbD 62
def leafApl (e : W64) : Nat := bitsNat e.toNat 61 60
def leafTgt (e : W64) : Nat := bitsNat e.toNat 59 58
def leafDev (e : W64) : Nat := bitsNat e.toNat 57 50
def leafPa (e : W64) : Nat := bitsNat e.toNat 49 12 * 4096
def leafNC (e : W64) : Bool := e.getLsbD 8

/-- A page's size at a level (R345). -/
def pageSize (level : Nat) : Nat := 2 ^ (9 * level + 3)
/-- The index of a virtual address at a level (R345). -/
def levelIndex (va level : Nat) : Nat := va / pageSize level % 512

/-- A table entry is malformed (R346). -/
def tableBad (v : Service) (e : W64) (level : Nat) : Bool :=
  level ≤ 1 || bitsNat e.toNat 63 60 != 0 || bitsNat e.toNat 57 50 != 0 || bitsNat e.toNat 11 2 != 0 ||
  decide (2 ≤ leafTgt e) || !(v.installed (leafTgt e) (leafPa e) 4096)

/-- A leaf entry is malformed (R346). -/
def leafBad (v : Service) (own : Option Nat) (e : W64) (level : Nat) : Bool :=
  4 ≤ level || bitsNat e.toNat 7 2 != 0 || leafPa e % pageSize level != 0 ||
  (leafTgt e == 2 && (decide (192 ≤ leafDev e) || own == some (leafDev e))) ||
  (leafTgt e != 2 && leafDev e != 0) || (leafTgt e == 3 && (leafW e || leafX e)) ||
  !(v.installed (leafTgt e) (leafPa e) (pageSize level))

/-- What a walk finds: a leaf with its level and place, or a fault with its KIND and level. -/
inductive WalkRes where
  | leaf (level : Nat) (entry : W64) (ptr : Loc)
  | fault (kind level : Nat)
  deriving DecidableEq, Repr

/-- The 8 bytes of a table entry. -/
def State.tableEntry (s : State) (l : Loc) : W64 := BitVec.ofNat 64 (leNat (s.homeRead l 8))

/-- Walk from the table that `e` names, at `level`. -/
def State.walkFrom (s : State) (va : Nat) : Nat → W64 → WalkRes
  | 0, _ => .fault 4 1
  | level + 1, table =>
    let ptr : Loc := { tgt := leafTgt table, dev := 0, pa := leafPa table + 8 * levelIndex va (level + 1) }
    let e := s.tableEntry ptr
    if !(e.getLsbD 0) then .fault 1 (level + 1)
    else if e.getLsbD 1 then
      (if leafBad s.svc s.fab.device e (level + 1) then .fault 4 (level + 1) else .leaf (level + 1) e ptr)
    else if tableBad s.svc e (level + 1) then .fault 4 (level + 1)
    else s.walkFrom va level e

/-- Walk a world's tables (R345). -/
def State.walk (s : State) (world va : Nat) : WalkRes :=
  match s.hst.roots.getD world none with
  | none => .fault 1 5
  | some root => s.walkFrom va 5 root

/-- What an access needs of a leaf (R348). -/
inductive Need where
  | read
  | write
  | exec
  deriving DecidableEq, Repr

/-- The fault of a leaf for an access: KIND 2 or 3, none when it passes; meadow pages are met by the caller. -/
def needFault (n : Need) (e : W64) : Option Nat :=
  match n with
  | .read => none
  | .write => if leafTgt e != 3 && !(leafW e) then some 2 else none
  | .exec => if leafX e then none else some 3

/-- What a translation gives. -/
inductive Trans where
  | ok (s : State) (loc : Loc) (leaf : W64)
  | fault (kind level : Nat)
  deriving Repr

/-- The location of an address in a page. -/
def locIn (e : W64) (base va : Nat) : Loc := { tgt := leafTgt e, dev := leafDev e, pa := leafPa e + (va - base) }

/-- Set A, and D for a write, in a leaf entry, by an atomic OR at its home (R346). -/
def State.setAD (s : State) (ptr : Loc) (e : W64) (n : Need) (world : Nat) : State × W64 :=
  let ad : W64 := 0x200 ||| (if n == .write && leafTgt e != 3 then 0x400 else 0)
  if e ||| ad = e then (s, e) else (s.homeWrite ptr (natLe 8 (s.tableEntry ptr ||| ad).toNat) world, e ||| ad)

/-! ### Contiguous runs (R347) -/

/-- CONTIG of a leaf (R345). -/
def leafContig (e : W64) : Bool := e.getLsbD 11

/-- Members of a contiguous run of leaves at a level: 16 of 4 KiB, 64 of 1 GiB. -/
def runLength (level : Nat) : Nat := if level = 1 then 16 else if level = 3 then 64 else 1

/-- A leaf with another page's physical address. -/
def leafAt (e : W64) (pa : Nat) : W64 := (e &&& ~~~0x3FFFFFFFFF000#64) ||| BitVec.ofNat 64 (pa % 2 ^ 50)

/-- What a leaf maps: an entry, where it stands, and the pages that it serves. -/
structure Mapped where
  base : Nat
  size : Nat
  leaf : W64
  ptr : Loc
  deriving DecidableEq, Repr

/-- Member `j` of the run that holds the page of `va`, as it maps that page (log entry 109). -/
def State.runMember (s : State) (va level : Nat) (ptr : Loc) (j : Nat) : W64 × Loc :=
  let i := levelIndex va level % runLength level
  let at' : Loc := { ptr with pa := ptr.pa - 8 * i + 8 * j }
  let m := s.tableEntry at'
  (leafAt m (leafPa m + 2 ^ 50 + i * pageSize level - j * pageSize level), at')

/-- Two leaves agree but for A and D. -/
def leafAgrees (a b : W64) : Bool := (a ^^^ b) &&& ~~~0x600#64 == 0

/-- What the leaf that a walk found maps. A run whose members agree is one page, held in one entry; a page of a run whose members
differ translates through any of them (R347, log entry 109). -/
def State.mapped (s : State) (va level : Nat) (e : W64) (ptr : Loc) : State × Mapped :=
  let n := runLength level
  let size := pageSize level
  let page : Mapped := { base := va - va % size, size := size, leaf := e, ptr := ptr }
  if !(leafContig e) || n == 1 then (s, page)
  else
    let i := levelIndex va level % n
    let members := (List.range n).map (s.runMember va level ptr)
    if leafPa e % (n * size) == i * size && members.all (fun m => leafAgrees m.1 e) then
      (s, { base := va - va % (n * size), size := n * size, leaf := leafAt e (leafPa e - i * size), ptr := ptr })
    else
      let fit := members.filter fun m => m.1.getLsbD 0 && m.1.getLsbD 1 && leafContig m.1 && !(leafBad s.svc s.fab.device m.1 level)
      let m := fit.getD (Config.freeNat s.core.free % fit.length) (e, ptr)
      ({ s with core := { s.core with free := s.core.free + 1 } }, { page with leaf := m.1, ptr := m.2 })

/-- Translate an address for an access through a stove's TLB (R346 to R349). The TLB's 8,192 entries lose their
oldest one (log entry 13). -/
def State.translate (s : State) (stove world va : Nat) (n : Need) : Trans :=
  let hit := s.cch.tlb.find? fun e => e.stove == stove && e.world == world && e.base ≤ va && va < e.base + e.size
  let hit := hit.filter fun e => (needFault n e.leaf).isNone
  match hit with
  | some e =>
    let r := s.setAD e.ptr e.leaf n world
    let s := r.1
    .ok { s with cch := { s.cch with tlb := s.cch.tlb.map fun x => if x = e then { e with leaf := r.2 } else x } }
      (locIn e.leaf e.base va) e.leaf
  | none =>
    match s.walk world va with
    | .fault k l => .fault k l
    | .leaf level e ptr =>
      let w := s.mapped va level e ptr
      let m := w.2
      match needFault n m.leaf with
      | some k => .fault k level
      | none =>
        let r := w.1.setAD m.ptr m.leaf n world
        let own := r.1.cch.tlb.filter fun x => x.stove == stove
        let keep := if own.length < 8192 then r.1.cch.tlb else
          match own.getLast? with
          | some old => r.1.cch.tlb.filter fun x => !(x == old)
          | none => r.1.cch.tlb
        .ok { r.1 with cch := { r.1.cch with tlb :=
              { stove := stove, world := world, base := m.base, size := m.size, leaf := r.2, ptr := m.ptr } :: keep } }
          (locIn m.leaf m.base va) m.leaf

/-- Where an address lies, without a trace: by the tables as they stand. -/
def State.place (s : State) (stove world va : Nat) (n : Need) : Option Loc :=
  match s.translate stove world va n with
  | .ok _ l _ => some l
  | .fault _ _ => none

/-- Bytes of virtual memory as the homes hold them, page by page, without a trace. -/
def State.peekPages (s : State) (stove world : Nat) (n : Need) : Nat → Nat → Nat → Option (List Byte)
  | 0, _, _ => some []
  | fuel + 1, va, len =>
    if len = 0 then some []
    else
      let k := min len (4096 - va % 4096)
      match s.place stove world va n with
      | none => none
      | some l =>
        if l.tgt = 2 then none
        else (s.peekPages stove world n fuel (va + k) (len - k)).map fun r => s.homeRead l k ++ r

/-- Bytes of virtual memory as they stand at the homes: instruction fetches, the landing map, the switch table and
other reads that leave no trace (log entry 21). -/
def State.peek (s : State) (stove world va len : Nat) (n : Need) : Option (List Byte) :=
  s.peekPages stove world n (len / 4096 + 2) va len

/-! ### Data that cannot be had (R387, R388) -/

/-- How the data of a line answers a read. -/
inductive LineState where
  | good
  | abort (reason : Nat)
  | waits
  deriving DecidableEq, Repr

/-- The state of a line for an access issued with the number `seq`. -/
def Caches.lineState (c : Caches) (l : Loc) (seq : Nat) : LineState :=
  let l := l.line
  if c.refetch.contains l then .waits
  else if c.macBad.any fun e => e.1 == l && decide (seq < e.2) then .abort 2
  else if c.lost.contains l || c.poison.contains l then .abort 1
  else .good

/-- The state of a line for an access of a world: a line whose MAC is not of that world and version fails twice (R334, R335,
R388). -/
def State.lineState (s : State) (l : Loc) (seq world : Nat) : LineState :=
  match s.cch.lineState l seq with
  | .good => if s.sec.passes l world then .good else .abort 2
  | x => x

end Sys2Proof.Machine
end

