-- ==== Sys2Proof/Machine/Operands.lean ====
section
/-! DEFINITION. Every operand form of a bundle: scalar codes, literal routes, vector registers under rotation,
predicates, and the reserved-value checks that several slots share (R12, R17, R18, R87, R111). -/

namespace Sys2Proof.Machine

/-- A scalar operand code names an s or a register (R87). -/
def isSA (code : Nat) : Bool := code < 0x30
/-- A scalar operand code names a predicate (R87). -/
def isK (code : Nat) : Bool := 0x30 ≤ code && code < 0x40

/-- The register an R87 code names. -/
def codeReg (code : Nat) : Reg :=
  if code < 0x20 then .s code else if code < 0x30 then .a (code - 0x20) else .k (code - 0x30)

/-- The value of an s or a register as the issuing split sees it (R17, R87). -/
def View.scalar (v : View) (code : Nat) : W64 :=
  if code < 16 then (bankOf v.st.core v.g v.x.split).getD code 0
  else if code < 32 then v.g.sh.getD (code - 16) 0
  else v.g.a.getD (code - 32) 0

/-- Lowest bit of a slot's literal route in the shared field (R11). -/
def routePlace : Slot → Nat
  | .t => 29 | .m => 26 | .a => 23 | .v1 => 20 | .v0 => 17 | .s => 14 | .c => 11 | .f => 8 | .x => 5

/-- The literal route code of a slot (R12). -/
def View.route (v : View) (sl : Slot) : Nat := (v.x.shared.toNat >>> routePlace sl) % 8

/-- A literal of the record (R12). -/
def View.lit (v : View) (n : Nat) : W32 := v.x.lits.getD n 0

/-- The literal port value of a slot as 64 bits: one literal sign-extended, or a pair as it stands (R12, R87). -/
def View.literal (v : View) (sl : Slot) : W64 :=
  match v.route sl with
  | 1 => (v.lit 0).signExtend 64
  | 2 => (v.lit 1).signExtend 64
  | 3 => (v.lit 2).signExtend 64
  | 4 => (v.lit 3).signExtend 64
  | 5 => v.lit 1 ++ v.lit 0
  | 6 => v.lit 3 ++ v.lit 2
  | _ => 0

/-- A slot's literal route gives one 32-bit literal (R12). -/
def View.route32 (v : View) (sl : Slot) : Bool := 1 ≤ v.route sl && v.route sl ≤ 4
/-- A slot's literal route gives a 64-bit pair (R12). -/
def View.route64 (v : View) (sl : Slot) : Bool := v.route sl == 5 || v.route sl == 6
/-- A slot receives a literal. -/
def View.routed (v : View) (sl : Slot) : Bool := v.route sl != 0

/-- A route names a literal the record does not carry, or is 7 (R13). -/
def routeBad (code nlits : Nat) : Bool :=
  code == 7 || (1 ≤ code && code ≤ 4 && nlits < code) || (code == 5 && nlits < 2) || (code == 6 && nlits < 4)

/-- A vector register by its name, under the bundle's rotation (R111). -/
def View.vec (v : View) (n : Nat) : Vec := v.g.v.getD (rotated v.x.rho n) Vec.zero

/-- Vector registers allocated to the group (R17). -/
def View.vregs (v : View) : Nat := v.g.v.length

/-- `span` registers from `n` are not all allocated, or `n` is not a multiple of the span (R18). -/
def View.vecBad (v : View) (n span : Nat) : Bool := v.vregs < n + span || n % span != 0

/-- An accumulator tile is not allocated to the group (R18). -/
def View.tileBad (v : View) (n : Nat) : Bool := v.g.acc.length ≤ n

/-- The write of a named vector register under the bundle's rotation. -/
def View.vwrite (v : View) (n : Nat) (m : LaneMask) (x : Vec) : RegWrite := .lanes (rotated v.x.rho n) m x

/-- The check that holds whose field is lowest (R287, log entry 17). Bits below 64 are the slot's own, 64 and more
those of the shared field, 128 stands for operand data. -/
def firstBad (l : List (Bool × Nat)) : Option Nat := ((l.filter fun c => c.1).map fun c => c.2).min?

/-- The literal route of a slot, as a field of the shared word (R11). -/
def routeBit (sl : Slot) : Nat := 64 + routePlace sl

/-- A reserved value in the data an op reads: a switch entry, a descriptor, a tensor entry (R287, place 11). -/
def operandBit : Nat := 128

/-- A squashable bit where it is reserved (R27). -/
def sqBad (hd : Hdr) : Bool × Nat := (hd.sq, 8)

/-- A scalar result sign-extended from 32 bits when WIDTH = 01 (R124). -/
def sext32 (x : W64) : W64 := (x.setWidth 32).signExtend 64

/-- The element at a width and position of a lane (R34). -/
def elemOf (x : W32) (w i : Nat) : Nat := (x.toNat >>> (w * i)) % 2 ^ w

/-- A lane from the elements of width `w` that `f` gives (R34). -/
def laneOf (w : Nat) (f : Nat → Nat) : W32 :=
  BitVec.ofNat 32 ((List.range (32 / w)).foldl (fun acc i => acc + (f i % 2 ^ w) <<< (w * i)) 0)

end Sys2Proof.Machine
end

