-- ==== Sys2Proof/Machine/Image.lean ====
section
/-! DEFINITION. The kernel image: its header (R62), the index stream and its records (R65, R66), the landing map
(R67), patterns, switch entries and tensor initialisers (R68 to R70), and dictionary entries (R14, R64). -/

namespace Sys2Proof.Machine

/-! ### The header (R62) -/

/-- The image a header describes. -/
def parseImage (base : Nat) (bs : List Byte) : Image :=
  { base := base, dictCount := leAt bs 8 4, hotCount := leAt bs 12 4, dictOff := leAt bs 16 8, patOff := leAt bs 24 8,
    patCount := leAt bs 32 2, swCount := leAt bs 34 2, tnCount := leAt bs 36 2, swOff := leAt bs 40 8,
    landOff := leAt bs 48 8, tnOff := leAt bs 56 8, streamOff := leAt bs 80 8, streamLen := leAt bs 88 4,
    entry := leAt bs 92 4, vregs := leAt bs 96 1, acc := leAt bs 97 1, groups := leAt bs 98 1,
    stove := leAt bs 99 1 == 1, scratch := leAt bs 100 4, priv := leAt bs 104 4 }

/-- A number lies between two bounds. -/
def within (lo hi x : Nat) : Bool := decide (lo ≤ x) && decide (x ≤ hi)

/-- The header keeps every rule that its own 128 bytes show (R62, R63). -/
def headerOk (bs : List Byte) : Bool :=
  leAt bs 0 4 == 0x314B4441 && leAt bs 4 2 == 1 && decide (leAt bs 6 2 < 2) && within 1 524288 (leAt bs 8 4) &&
  decide (leAt bs 12 4 ≤ 128) && decide (leAt bs 32 2 ≤ 256) && decide (leAt bs 34 2 ≤ 256) &&
  decide (leAt bs 36 2 ≤ 64) && leAt bs 38 2 == 0 && within 1 (2 ^ 30) (leAt bs 88 4) &&
  within 16 64 (leAt bs 96 1) && leAt bs 96 1 % 8 == 0 && decide (leAt bs 97 1 ≤ 4) && within 1 16 (leAt bs 98 1) &&
  decide (leAt bs 99 1 ≤ 1) && decide (leAt bs 100 4 ≤ 1048576) && leAt bs 108 20 == 0 &&
  [16, 24, 40, 48, 56, 80].all (fun o => leAt bs o 8 % 64 == 0) && (leAt bs 72 8 == 0 || leAt bs 64 8 % 64 == 0)

/-! ### Bytes of the image -/

/-- Bytes of an image by its offset, as the homes hold them (log entry 21). -/
def State.imageBytes (s : State) (stove world : Nat) (im : Image) (off n : Nat) (need : Need) : Option (List Byte) :=
  s.peek stove world (im.base + off) n need

/-- The landing bit of a stream offset (R67, R94); of a page that does not translate 0 (log entry 21). -/
def State.landingIn (s : State) (stove world : Nat) (im : Image) (off : Nat) : Bool :=
  decide (off < im.streamLen) &&
  match s.imageBytes stove world im (im.landOff + off / 8) 1 .read with
  | some bs => bitNat (leNat bs) (off % 8)
  | none => false

/-- A target is legal for a team part (R94). -/
def State.landing (s : State) (p : Part) (off : Nat) : Bool := s.landingIn (stoveOf p.h) p.world p.image off

/-- A switch-table entry: DENSE, MEDIUM, RELAXED and the reserved word (R69). -/
def State.switchEntry (s : State) (p : Part) (e : Nat) : Option (Nat × Nat × Nat × Nat) :=
  (s.imageBytes (stoveOf p.h) p.world p.image (p.image.swOff + 16 * e) 16 .read).map fun bs =>
    (leAt bs 0 4, leAt bs 4 4, leAt bs 8 4, leAt bs 12 4)

/-- The kernel's patterns, copied at team start (R68); of a page that does not translate lane 0 throughout (log entry 21). -/
def State.patterns (s : State) (stove world : Nat) (im : Image) : List (List Nat) :=
  (List.range im.patCount).map fun i =>
    match s.imageBytes stove world im (im.patOff + 128 * i) 128 .read with
    | some bs => bs.map fun b => b.toNat % 128
    | none => List.replicate 128 0

/-- The tensor table at team start (R70); of a page that does not translate zeros (log entry 21). -/
def State.tensorTable (s : State) (stove world : Nat) (im : Image) : List (List W64) :=
  (List.range 64).map fun i =>
    if i < im.tnCount then
      match s.imageBytes stove world im (im.tnOff + 64 * i) 64 .read with
      | some bs => (List.range 8).map fun j => le64 bs (8 * j)
      | none => List.replicate 8 0
    else List.replicate 8 0

/-! ### Dictionary entries (R14, R64) -/

/-- The control word of dictionary entry `i`. -/
def State.dictEntry (s : State) (stove world : Nat) (im : Image) (i : Nat) : Option (BitVec 512) :=
  (s.imageBytes stove world im (im.dictOff + 64 * i) 64 .exec).map fun bs => BitVec.ofNat 512 (leNat bs)

/-- The parity of an entry holds (R11, R14). -/
def parityOk (w : BitVec 512) : Bool := w.extractLsb' 40 8 == parityBits w

/-- The switch-point bit of a control word (R11). -/
def hcwSpf (w : BitVec 512) : Bool := w.getLsbD 38
/-- The checkpoint bit of a control word (R11, R15). -/
def hcwCke (w : BitVec 512) : Bool := w.getLsbD 39

/-! ### Stream records (R65, R66) -/

/-- A stream record: the offset of its first byte, its index, its literals and the offset after it. -/
structure Record where
  off : Nat
  idx : Nat
  lits : List W32
  nxt : Nat
  deriving DecidableEq, Repr

/-- What decoding at an offset finds. -/
inductive Decoded where
  | ok (r : Record)
  /-- A trap as that record's issue: code, INFO0, INFO1, offset (R66). -/
  | bad (code info0 info1 off : Nat)
  /-- The byte at this stream offset cannot be had at once. -/
  | absent (off : Nat)
  deriving DecidableEq, Repr

/-- The bytes that can be had at once among the `n` from an offset. -/
def bytesFrom (byte : Nat → Option Byte) : Nat → Nat → List Byte
  | _, 0 => []
  | off, n + 1 => match byte off with | some b => b :: bytesFrom byte (off + 1) n | none => []

/-- Decode the record at an offset of a stream of `len` bytes, skipping pads (R65, R66); `fuel` bounds the pads. -/
def decodeAt (byte : Nat → Option Byte) (len : Nat) : Nat → Nat → Decoded
  | 0, off => .bad trapExecFault off 2 off
  | fuel + 1, off =>
    if len ≤ off then .bad trapExecFault off 2 off
    else
      let bs := bytesFrom byte off (Nat.min 19 (len - off))
      match decodeRecord bs with
      | .pad => decodeAt byte len fuel (off + 1)
      | .reserved => .bad trapReservedField 10 0 off
      | .short => if len ≤ off + bs.length then .bad trapExecFault off 3 off else .absent (off + bs.length)
      | .record idx l n =>
        if len < off + l then .bad trapExecFault off 3 off
        else if bs.length < l then .absent (off + bs.length)
        else .ok { off := off, idx := idx, lits := recordLits bs l n, nxt := off + l }

/-- A byte of the stream in a hearth's stream buffer (R299). -/
def Hearth.streamByte (hr : Hearth) (world va : Nat) : Option Byte :=
  (hr.stream.find? fun p => p.world == world && p.page == va / 4096).map fun p => cellRead p.bytes (va % 4096)

/-- The record of a team part at an offset, from the hearth's stream buffer; an index beyond the dictionary traps
ILLEGAL_ENTRY with reason 7 (R66). -/
def recordIn (hr : Hearth) (p : Part) (off : Nat) : Decoded :=
  let im := p.image
  match decodeAt (fun o => hr.streamByte p.world (im.base + im.streamOff + o)) im.streamLen (im.streamLen + 1) off with
  | .ok r => if im.dictCount ≤ r.idx then .bad trapIllegalEntry (r.idx + 7 * 2 ^ 20) 0 r.off else .ok r
  | d => d

/-- A byte of the stream as a hearth's stream buffer holds it, or else as the homes do. -/
def State.streamAt (s : State) (p : Part) (o : Nat) : Option Byte :=
  match (s.core.hearth? p.h).bind fun hr => hr.streamByte p.world (p.image.base + p.image.streamOff + o) with
  | some b => some b
  | none => match s.imageBytes (stoveOf p.h) p.world p.image (p.image.streamOff + o) 1 .exec with
    | some [b] => some b
    | _ => none

/-- The record at an offset: the landing of a swp and the body of a seq (R16, R109). -/
def State.recordAt (s : State) (p : Part) (off : Nat) : Decoded :=
  decodeAt (s.streamAt p) p.image.streamLen (p.image.streamLen + 1) off

/-- The control word of the record at an offset has its switch-point bit (R16). -/
def State.spfAt (s : State) (p : Part) (off : Nat) : Bool :=
  match s.recordAt p off with
  | .ok r => match s.dictEntry (stoveOf p.h) p.world p.image r.idx with | some w => hcwSpf w | none => false
  | _ => false

end Sys2Proof.Machine
end

