-- ==== Sys2Proof/Machine/Regions.lean ====
section
/-! DEFINITION. Regions of a group: identities (R240, R241), the deferred stack and its region area (R242 to R244),
and the splits that division makes and joins bring together (R100 to R106). -/

namespace Sys2Proof.Machine

/-! ### The region area's free set (R242) -/

/-- Free entries, lowest first. -/
def areaList (a : BitVec 256) : List Nat := (List.range 256).filter a.getLsbD
/-- How many entries are free. -/
def areaRoom (a : BitVec 256) : Nat := (areaList a).length
/-- Take entries. -/
def areaTake (a : BitVec 256) (l : List Nat) : BitVec 256 := l.foldl (fun a i => a &&& ~~~(BitVec.twoPow 256 i)) a
/-- Give entries back. -/
def areaGive (a : BitVec 256) (l : List Nat) : BitVec 256 := l.foldl (fun a i => a ||| BitVec.twoPow 256 i) a

/-- Take the `n` lowest free entries of a group. -/
def Group.takeArea (g : Group) (n : Nat) : Group × List Nat :=
  let l := (areaList g.areaFree).take n
  ({ g with areaFree := areaTake g.areaFree l }, l)
/-- Give entries of a group back. -/
def Group.giveArea (g : Group) (l : List Nat) : Group := { g with areaFree := areaGive g.areaFree l }

/-! ### The identity table (R240, R241) -/

/-- The entry of a live identity. -/
def Group.ident? (g : Group) (v : Nat) : Option Ident := g.idents.find? fun i => i.ident == v
/-- Change the entry of a live identity. -/
def Group.modIdent (g : Group) (v : Nat) (f : Ident → Ident) : Group :=
  { g with idents := g.idents.map fun i => if i.ident == v then f i else i }
/-- Count one more record of each identity. -/
def Group.incIdents (g : Group) (l : List Nat) : Group :=
  l.foldl (fun g v => g.modIdent v fun i => { i with count := i.count + 1 }) g
/-- Count one record of each identity less; an entry with none left is free (R240). -/
def Group.decIdents (g : Group) (l : List Nat) : Group :=
  let g := l.foldl (fun g v => g.modIdent v fun i => { i with count := i.count - 1 }) g
  { g with idents := g.idents.filter fun i => i.count != 0 }
/-- The identity a divided brd takes; none when the table is full (R241). -/
def Group.newIdent (g : Group) : Option Nat :=
  if 128 ≤ g.idents.length then none
  else ((List.range 128).map fun i => (g.regionCtr + i) % 65536).find? fun v => !(g.idents.any fun i => i.ident % 128 == v % 128)

/-! ### Region records of a split (R243) -/

/-- Records beyond the eighth. -/
def spillCount (ids : List Nat) : Nat := ids.length - 8

/-- Entries of a side's or split's spilled records are cut to the records it still has; the head goes first. -/
def trimSpill (ids spill : List Nat) : List Nat := spill.drop (spill.length - spillCount ids)

/-- Push a record onto a split; the ninth moves record 7 to a new entry, which is returned (R243). -/
def Group.pushRecord (g : Group) (n v : Nat) : Group × List Nat :=
  let e := g.split n
  let r := if 8 ≤ e.ids.length then g.takeArea 1 else (g, [])
  ((r.1.modSplit n fun e => { e with ids := v :: e.ids, spill := r.2 ++ e.spill }).incIdents [v], r.2)

/-- Pop a split's top record: the group, the identity, and the entry of the record that comes back inline. -/
def Group.popRecord (g : Group) (n : Nat) : Group × Option Nat × List Nat :=
  let e := g.split n
  match e.ids with
  | [] => (g, none, [])
  | v :: ids =>
    let back := e.spill.take (e.spill.length - spillCount ids)
    let g := g.modSplit n fun e => { e with ids := ids, spill := trimSpill ids e.spill }
    ((g.giveArea back).decIdents [v], some v, back)

/-- Discard every record of an identity, wherever it stands (R104). -/
def Group.discard (g : Group) (v : Nat) : Group :=
  let cut := fun (ids spill : List Nat) => trimSpill (ids.filter (· != v)) spill
  let lost := fun (ids spill : List Nat) => spill.take (spill.length - spillCount (ids.filter (· != v)))
  let gone := (g.splits.flatMap fun e => lost e.ids e.spill) ++ g.sides.flatMap fun d => lost d.ids d.spill
  let g := g.giveArea gone
  { g with
    splits := g.splits.map fun e => { e with ids := e.ids.filter (· != v), spill := cut e.ids e.spill }
    sides := g.sides.map fun d => { d with ids := d.ids.filter (· != v), spill := cut d.ids d.spill }
    idents := g.idents.filter fun i => i.ident != v }

/-- Take lanes off the owed mask of an identity; one that owes nothing is discarded (R104, R106). -/
def Group.forgive (g : Group) (v : Nat) (m : LaneMask) : Group :=
  let g := g.modIdent v fun i => { i with owed := i.owed &&& ~~~m, present := i.present &&& ~~~m }
  match g.ident? v with
  | some i => if i.owed = 0 then g.discard v else g
  | none => g

/-- Free a split entry: its records and their entries go with it (R240). -/
def Group.freeEntry (g : Group) (n : Nat) : Group :=
  let e := g.split n
  let g := (g.giveArea e.spill).decIdents e.ids
  g.modSplit n fun _ => freeSplit

/-- The lowest free split entry. -/
def Group.freeSlot? (g : Group) : Option Nat := (List.range 4).find? fun n => (g.split n).state == .free

/-! ### Making and restoring splits -/

/-- A split or side to be made: its offset, mask and region records. -/
structure NewPart where
  offset : Nat
  mask : LaneMask
  ids : List Nat
  deriving DecidableEq, Repr

/-- The entry a new part starts in, READY at the next cycle with AGE 0 (R101, R244). -/
def startSplit (cycle : Nat) (np : NewPart) (spill : List Nat) (bank : List W64) (born : Nat × Nat) : SplitE :=
  { freeSplit with mask := np.mask, ids := np.ids, spill := spill, offset := np.offset, state := .ready,
                   waitstart := cycle + 1, bank := bank, noIssue := some cycle, born := some born }

/-- Place a part made from a split: in the lowest free entry, else on top of the deferred stack (R101). The entries
to be written to the region area are returned. -/
def Group.place (g : Group) (cycle src : Nat) (bank : List W64) (np : NewPart) : Group × List Nat :=
  let g := g.incIdents np.ids
  match g.freeSlot? with
  | some n =>
    let r := g.takeArea (spillCount np.ids)
    (r.1.modSplit n fun _ => startSplit cycle np r.2 bank (src, cycle), r.2)
  | none =>
    let r := g.takeArea (3 + spillCount np.ids)
    let d : Side := { hdr := r.2.getD 0 0, slo := r.2.getD 1 0, shi := r.2.getD 2 0, spill := r.2.drop 3,
                      ids := np.ids, offset := np.offset, mask := np.mask, bank := bank, born := some (src, cycle),
                      stored := false }
    ({ r.1 with sides := d :: r.1.sides }, r.2)

/-- Place several parts, first to last. -/
def Group.placeAll (g : Group) (cycle src : Nat) (bank : List W64) (l : List NewPart) : Group × List Nat :=
  l.foldl (fun r np => let q := r.1.place cycle src bank np; (q.1, r.2 ++ q.2)) (g, [])

/-- Entries that `n` parts of a split with these records need, with `free` split entries to take (R243). -/
def entriesNeeded (ids : List Nat) (free n : Nat) : Nat := spillCount ids * n + 3 * (n - free)

/-- The top side enters a split entry: the entry, filled from the copy kept on chip, and the entries to read
(R244). -/
def Group.restoreTop (g : Group) (cycle n : Nat) : Group × List Nat :=
  match g.sides with
  | [] => (g, [])
  | d :: ds =>
    let np : NewPart := { offset := d.offset, mask := d.mask, ids := d.ids }
    let born := match d.born with | some b => if b.2 = cycle then b else (9, cycle) | none => (9, cycle)
    let g := { g with sides := ds }.giveArea [d.hdr, d.slo, d.shi]
    (g.modSplit n fun _ => startSplit cycle np d.spill d.bank born, [d.hdr, d.slo, d.shi])

/-! ### What the entries hold in memory (R242) -/

/-- The bytes of a spilled record. -/
def spillBytes (link ident : Nat) : List Byte := natLe 2 link ++ natLe 2 ident ++ List.replicate 60 0

/-- The bytes of entry `e` among spilled records. -/
def spillEntry (ids spill : List Nat) (e : Nat) : Option (List Byte) :=
  (spill.findIdx? (· == e)).map fun j => spillBytes (spill.getD (j + 1) 0xFFFF) ((ids.drop 8).getD j 0)

/-- The header of a side; `link` names the next side down. -/
def sideHeader (d : Side) (link : Nat) : List Byte :=
  let inl := d.ids.take 8
  natLe 2 link ++ natLe 1 inl.length ++ natLe 1 (spillCount d.ids) ++ natLe 4 d.offset ++ natLe 16 d.mask.toNat ++
  (List.range 8).flatMap (fun j => natLe 2 (inl.getD j 0)) ++ natLe 2 d.slo ++ natLe 2 d.shi ++
  natLe 2 (d.spill.headD 0xFFFF) ++ List.replicate 18 0

/-- What the hardware puts into entry `e` of a group's region area. -/
def Group.areaBytes (g : Group) (e : Nat) : Option (List Byte) :=
  let ofSide := fun (i : Nat) (d : Side) =>
    if e = d.hdr then some (sideHeader d (match g.sides[i + 1]? with | some b => b.hdr | none => 0xFFFF))
    else if e = d.slo then some ((d.bank.take 8).flatMap fun x => natLe 8 x.toNat)
    else if e = d.shi then some ((d.bank.drop 8).flatMap fun x => natLe 8 x.toNat)
    else spillEntry d.ids d.spill e
  match (g.sides.mapIdx ofSide).findSome? id with
  | some b => some b
  | none => g.splits.findSome? fun s => spillEntry s.ids s.spill e

/-! ### Ops in flight -/

/-- An access of the issuing bundle, with nothing filled in. -/
def Ctx.access (x : Ctx) (kind : AccKind) (cycle : Nat) (act : LaneMask) : Access :=
  { id := 0, kind := kind, h := x.h, slot := x.slot, split := x.split, off := x.off, seq := x.seq, cycle := cycle,
    sq := false, mask := act, ord := 0, scope := 0, func := 0, width := 0, sx := false, todo := act, faulted := 0,
    replay := [], addrs := [], vals := [], got := [], dst := [], done := 0, arg := 0, stage := 0, remote := 0,
    ready := cycle, due := none, iter := x.iter }

/-- Kinds whose effect outside the group a rerun must not repeat (R301, R304; log entry 105). -/
def AccKind.answered : AccKind → Bool
  | .atom | .atomCas | .atomFadd | .atomOfa | .atomOclose | .spawn | .acq | .rel => true
  | _ => false

/-- What a discarded run of the op has left in the read log (R301). -/
def Core.logged? (c : Core) (a : Access) : Option Access :=
  if !a.kind.answered then none
  else (c.group? a.h a.slot).bind fun g => g.answers.find? fun b =>
    b.orphan && b.kind == a.kind && b.split == a.split && b.off == a.off

/-- Put an access in flight, under the next op number. A rerun goes on with the access of the discarded run: its lanes that
were carried out or sent are so already (R301). -/
def Core.startAccess (c : Core) (a : Access) : Core :=
  match c.logged? a with
  | none => { c with accs := c.accs ++ [{ a with id := c.seq }], seq := c.seq + 1 }
  | some b =>
    { c.modGroup a.h a.slot fun g => { g with answers := g.answers.filter fun x => x.id != b.id } with
      accs := c.accs ++ [{ a with id := b.id, done := b.done, got := b.got, remote := b.remote, lost := b.lost }]
      seq := c.seq + 1 }

/-- The header of a group's top deferred side; 0xFFFF when it has none (R242). -/
def Group.topLink (g : Group) : Nat := match g.sides with | d :: _ => d.hdr | [] => 0xFFFF

/-- The region area is to be written or read for a split (R245): `arg` is 0 for a side that is restored, which remembers the LINK
that its header was written with, and else how many records were popped. -/
def Core.regionAccess (c : Core) (x : Ctx) (cycle split : Nat) (kind : AccKind) (arg : Nat) (l : List Nat) : Core :=
  if l.isEmpty then c
  else
    let vals := match c.group? x.h x.slot with
      | some g => if kind = .regionRead then [g.topLink] else l.map fun e => leNat ((g.areaBytes e).getD [])
      | none => []
    c.startAccess { x.access kind cycle 1 with
      split := split, addrs := l.map fun e => BitVec.ofNat 64 e, todo := BitVec.ofNat 128 (2 ^ l.length - 1),
      arg := arg, vals := vals }

/-! ### Changing where a split stands -/

/-- Put a group back in its slot. -/
def Core.putGroup (c : Core) (g : Group) : Core := c.modGroup g.h g.slot fun _ => g

/-- The issuing split's next record, or the handler's. -/
def Core.goTo (c : Core) (x : Ctx) (part off : Nat) : Core :=
  if x.split = 4 then c.modPart part fun p => { p with handler := p.handler.map fun r => { r with offset := off } }
  else c.modSplit x.h x.slot x.split fun e => { e with offset := off }

/-- A transfer of the whole split: taken unless it leads to the next record (R26, R95). -/
def View.transfer (v : View) (c : Core) (off : Nat) : Core :=
  let c := c.goTo v.x v.p.id off
  if off = v.x.nxt then c else c.squash v.x.h v.x.slot v.x.split v.st.cycle v.x.smask true

/-- The issuing split waits in a state, past the op; the handler's run waits in its own register (R238). -/
def View.waitIn (v : View) (c : Core) (st : SplitState) (arg : W32) : Core :=
  if v.x.split = 4 then
    c.modPart v.p.id fun p => { p with handler := p.handler.map fun r => { r with wait := (st.code, arg), waitOff := v.x.off } }
  else c.modSplit v.x.h v.x.slot v.x.split fun e => { e.enter v.st.cycle st arg with waitOff := v.x.off }

end Sys2Proof.Machine
end

