-- ==== Sys2Proof/Machine/Scalar.lean ====
section
/-! DEFINITION. The S slot: scalar arithmetic, bit fields, special registers and predicates (R124 to R134). -/

namespace Sys2Proof.Machine

/-! ### The shape every S op shares (R124) -/

/-- The second source: a register or the routed literal (R124). -/
def View.sb (v : View) (f : SFields) : W64 := if f.bsel = 1 then v.literal .s else v.scalar f.sb.toNat

/-- Reserved values of the two-source forms: SB or the literal (R124). -/
def sbChecks (v : View) (f : SFields) : List (Bool × Nat) :=
  [(f.bsel == 0 && !isSA f.sb.toNat, 26), (f.bsel == 1 && f.sb != 0, 26),
   (decide (f.bsel.toNat ≥ 2), 36),
      (f.bsel == 1 && !v.routed .s, routeBit .s)]

/-- Reserved values of a scalar destination and first source. -/
def sdsaChecks (f : SFields) : List (Bool × Nat) := [(!isSA f.sd.toNat, 14), (!isSA f.sa.toNat, 20)]

/-- An unused SB and BSEL. -/
def noSb (f : SFields) : List (Bool × Nat) := [(f.sb != 0, 26), (f.bsel != 0, 36)]

/-- A scalar result of an S op lands at the end of its issue cycle (R124). -/
def View.putS (v : View) (f : SFields) (x : W64) : OpResult :=
  .ok (v.sendTo v.st.core 0 f.hdr.sq none 0 [.scalar (codeReg f.sd.toNat) x] [] 0)

/-- A predicate result of an S op, in the active lanes (R134). -/
def View.putK (v : View) (f : SFields) (act k : LaneMask) : OpResult :=
  .ok (v.sendTo v.st.core 0 f.hdr.sq none 0 [.pred (f.sd.toNat - 0x30) act k] [] 0)

/-- A result computed at 64 bits, or at 32 bits and sign-extended (R124). -/
def atWidth (f : SFields) (op64 : W64 → W64 → W64) (op32 : W32 → W32 → W32) (a b : W64) : W64 :=
  if f.width = 1 then (op32 (a.setWidth 32) (b.setWidth 32)).signExtend 64 else op64 a b

/-- A two-operand op of R125. -/
def binaryS (s : State) (f : SFields) (funcMax : Nat) (op64 : W64 → W64 → W64) (op32 : W32 → W32 → W32) : Core :=
  slotOp s .s f.hdr
    (fun v => firstBad (sdsaChecks f ++ [(f.bsel == 0 && !isSA f.sb.toNat, 26), (f.bsel == 1 && f.sb != 0, 26),
      (decide (funcMax < f.func.toNat), 32), (decide (f.bsel.toNat ≥ 2), 36),
      (f.bsel == 1 && !v.routed .s, routeBit .s),
      (decide (f.width.toNat ≥ 2), 38), (f.aux != 0, 40)]))
    (fun v _ => v.putS f (atWidth f op64 op32 (v.scalar f.sa.toNat) (v.sb f)))

/-- A one-operand op of R129. -/
def unaryS (s : State) (f : SFields) (op64 : W64 → W64) (op32 : W32 → W32) : Core :=
  slotOp s .s f.hdr
    (fun _ => firstBad (sdsaChecks f ++ [(f.sb != 0, 26), (f.func != 0, 32), (f.bsel != 0, 36),
      (decide (f.width.toNat ≥ 2), 38), (f.aux != 0, 40)]))
    (fun v _ => v.putS f (atWidth f (fun a _ => op64 a) (fun a _ => op32 a) (v.scalar f.sa.toNat) 0))

/-- Leading zero bits of a word. -/
def clzNat (w x : Nat) : Nat := if x = 0 then w else w - 1 - x.log2
/-- Trailing zero bits among the low `n`. -/
def ctzTo (x : Nat) : Nat → Nat → Nat
  | 0, k => k
  | n + 1, k => if x.testBit k then k else ctzTo x n (k + 1)
/-- One bits among the low `n`. -/
def popTo (x : Nat) : Nat → Nat
  | 0 => 0
  | n + 1 => popTo x n + (if x.testBit n then 1 else 0)
/-- The low `n` bits reversed. -/
def revTo (x w : Nat) : Nat → Nat
  | 0 => 0
  | n + 1 => revTo x w n + (if x.testBit n then 2 ^ (w - 1 - n) else 0)

/-! ### Two-operand ops (R125) -/

/-- R125 add. -/
def execAdd (f : SFields) (s : State) : Host.Outcome State Fault Refusal :=
  coreOp s fun s => binaryS s f 0 (· + ·) (· + ·)
/-- R125 sub. -/
def execSub (f : SFields) (s : State) : Host.Outcome State Fault Refusal :=
  coreOp s fun s => binaryS s f 0 (· - ·) (· - ·)
/-- R125 mul. -/
def execMul (f : SFields) (s : State) : Host.Outcome State Fault Refusal :=
  coreOp s fun s => binaryS s f 0 (· * ·) (· * ·)
/-- High half of a product, signed or unsigned (R125). -/
def mulHigh (n : Nat) (uns : Bool) (a b : BitVec n) : BitVec n :=
  if uns then BitVec.ofNat n (a.toNat * b.toNat / 2 ^ n) else BitVec.ofInt n (a.toInt * b.toInt / (2 ^ n : Nat))
/-- R125 mulh, unsigned with FUNC = 1. -/
def execMulh (f : SFields) (s : State) : Host.Outcome State Fault Refusal :=
  coreOp s fun s => binaryS s f 1 (mulHigh 64 (f.func == 1)) (mulHigh 32 (f.func == 1))
/-- R125 and. -/
def execAnd (f : SFields) (s : State) : Host.Outcome State Fault Refusal :=
  coreOp s fun s => binaryS s f 0 (· &&& ·) (· &&& ·)
/-- R125 or. -/
def execOr (f : SFields) (s : State) : Host.Outcome State Fault Refusal :=
  coreOp s fun s => binaryS s f 0 (· ||| ·) (· ||| ·)
/-- R125 xor. -/
def execXor (f : SFields) (s : State) : Host.Outcome State Fault Refusal :=
  coreOp s fun s => binaryS s f 0 (· ^^^ ·) (· ^^^ ·)
/-- R125 shl, by b mod n. -/
def execShl (f : SFields) (s : State) : Host.Outcome State Fault Refusal :=
  coreOp s fun s => binaryS s f 0 (fun a b => a <<< (b.toNat % 64)) (fun a b => a <<< (b.toNat % 32))
/-- R125 shr, by b mod n. -/
def execShr (f : SFields) (s : State) : Host.Outcome State Fault Refusal :=
  coreOp s fun s => binaryS s f 0 (fun a b => a >>> (b.toNat % 64)) (fun a b => a >>> (b.toNat % 32))
/-- R125 sar, by b mod n. -/
def execSar (f : SFields) (s : State) : Host.Outcome State Fault Refusal :=
  coreOp s fun s => binaryS s f 0 (fun a b => a.sshiftRight (b.toNat % 64)) (fun a b => a.sshiftRight (b.toNat % 32))
/-- R125 rot, right by b mod n. -/
def execRot (f : SFields) (s : State) : Host.Outcome State Fault Refusal :=
  coreOp s fun s => binaryS s f 0 (fun a b => a.rotateRight (b.toNat % 64)) (fun a b => a.rotateRight (b.toNat % 32))
/-- R125 min, signed. -/
def execMin (f : SFields) (s : State) : Host.Outcome State Fault Refusal :=
  coreOp s fun s => binaryS s f 0 (fun a b => if a.toInt ≤ b.toInt then a else b)
    (fun a b => if a.toInt ≤ b.toInt then a else b)
/-- R125 max, signed. -/
def execMax (f : SFields) (s : State) : Host.Outcome State Fault Refusal :=
  coreOp s fun s => binaryS s f 0 (fun a b => if a.toInt ≤ b.toInt then b else a)
    (fun a b => if a.toInt ≤ b.toInt then b else a)
/-- R125 minn, unsigned. -/
def execMinn (f : SFields) (s : State) : Host.Outcome State Fault Refusal :=
  coreOp s fun s => binaryS s f 0 (fun a b => if a.toNat ≤ b.toNat then a else b)
    (fun a b => if a.toNat ≤ b.toNat then a else b)
/-- R125 maxn, unsigned. -/
def execMaxn (f : SFields) (s : State) : Host.Outcome State Fault Refusal :=
  coreOp s fun s => binaryS s f 0 (fun a b => if a.toNat ≤ b.toNat then b else a)
    (fun a b => if a.toNat ≤ b.toNat then b else a)

/-! ### Compare, select, move (R126 to R128) -/

/-- The condition a FUNC code of cmp names (R126). -/
def cmpHolds {n : Nat} (func : Nat) (a b : BitVec n) : Bool :=
  match func with
  | 0 => a == b
  | 1 => a != b
  | 2 => a.toInt < b.toInt
  | 3 => a.toInt ≥ b.toInt
  | 4 => a.toInt > b.toInt
  | 5 => a.toInt ≤ b.toInt
  | 6 => a.toNat < b.toNat
  | 7 => a.toNat ≥ b.toNat
  | 8 => a.toNat > b.toNat
  | _ => a.toNat ≤ b.toNat

/-- cmp at its width (R126). -/
def cmpAt (f : SFields) (a b : W64) : Bool :=
  if f.width = 1 then cmpHolds f.func.toNat (a.setWidth 32) (b.setWidth 32) else cmpHolds f.func.toNat a b

/-- R126 cmp. -/
def execCmp (f : SFields) (s : State) : Host.Outcome State Fault Refusal :=
  coreOp s fun s => slotOp s .s f.hdr
    (fun v => firstBad ([(!isSA f.sa.toNat, 20), (f.bsel == 0 && !isSA f.sb.toNat, 26), (f.bsel == 1 && f.sb != 0, 26),
      (decide (10 ≤ f.func.toNat), 32), (decide (f.bsel.toNat ≥ 2), 36),
      (f.bsel == 1 && !v.routed .s, routeBit .s),
      (decide (f.width.toNat ≥ 2), 38), (f.aux != 0, 40)]))
    (fun v act =>
      let r := cmpAt f (v.scalar f.sa.toNat) (v.sb f)
      if isK f.sd.toNat then v.putK f act (if r then LaneMask.all else 0) else v.putS f (if r then 1 else 0))

/-- The condition operand of sel (R127). -/
def View.cond (v : View) (code : Nat) (act : LaneMask) : Bool :=
  if isK code then (v.g.pred (code - 0x30) &&& act) != 0 else v.scalar code != 0

/-- R127 sel. -/
def execSel (f : SFields) (s : State) : Host.Outcome State Fault Refusal :=
  coreOp s fun s => slotOp s .s f.hdr
    (fun _ => firstBad (sdsaChecks f ++ [(!isSA f.sb.toNat, 26), (f.func != 0, 32), (f.bsel != 0, 36),
      (decide (f.width.toNat ≥ 2), 38), (decide (64 ≤ f.aux.toNat), 46)]))
    (fun v act => v.putS f (atWidth f (fun a b => if v.cond f.aux.toNat act then a else b)
      (fun a b => if v.cond f.aux.toNat act then a else b) (v.scalar f.sa.toNat) (v.scalar f.sb.toNat)))

/-- R128 mov. -/
def execMov (f : SFields) (s : State) : Host.Outcome State Fault Refusal :=
  coreOp s fun s => unaryS s f id id

/-- R128 li: the routed literal. -/
def execLi (f : SFields) (s : State) : Host.Outcome State Fault Refusal :=
  coreOp s fun s => slotOp s .s f.hdr
    (fun v => firstBad [(!isSA f.sd.toNat, 14), (f.sa != 0, 20), (f.sb != 0, 26), (f.func != 0, 32),
      (f.bsel != 1, 36), (f.bsel == 1 && !v.routed .s, routeBit .s), (decide (f.width.toNat ≥ 2), 38), (f.aux != 0, 40)])
    (fun v _ => v.putS f (if f.width = 1 then sext32 (v.literal .s) else v.literal .s))

/-- R128 lea: a + (b << sh). -/
def execLea (f : SFields) (s : State) : Host.Outcome State Fault Refusal :=
  coreOp s fun s => slotOp s .s f.hdr
    (fun v => firstBad (sdsaChecks f ++ [(f.bsel == 0 && !isSA f.sb.toNat, 26), (f.bsel == 1 && f.sb != 0, 26),
      (f.func != 0, 32), (decide (f.bsel.toNat ≥ 2), 36),
      (f.bsel == 1 && !v.routed .s, routeBit .s), (f.width != 0, 38),
      (decide (8 ≤ f.aux.toNat), 43)]))
    (fun v _ => v.putS f (v.scalar f.sa.toNat + (v.sb f) <<< (f.aux.toNat % 8)))

/-! ### Bit ops and fields (R129 to R131) -/

/-- R129 clz. -/
def execClz (f : SFields) (s : State) : Host.Outcome State Fault Refusal :=
  coreOp s fun s => unaryS s f (fun a => BitVec.ofNat 64 (clzNat 64 a.toNat)) (fun a => BitVec.ofNat 32 (clzNat 32 a.toNat))
/-- R129 ctz. -/
def execCtz (f : SFields) (s : State) : Host.Outcome State Fault Refusal :=
  coreOp s fun s => unaryS s f (fun a => BitVec.ofNat 64 (ctzTo a.toNat 64 0)) (fun a => BitVec.ofNat 32 (ctzTo a.toNat 32 0))
/-- R129 popc. -/
def execPopc (f : SFields) (s : State) : Host.Outcome State Fault Refusal :=
  coreOp s fun s => unaryS s f (fun a => BitVec.ofNat 64 (popTo a.toNat 64)) (fun a => BitVec.ofNat 32 (popTo a.toNat 32))
/-- R129 brev. -/
def execBrev (f : SFields) (s : State) : Host.Outcome State Fault Refusal :=
  coreOp s fun s => unaryS s f (fun a => BitVec.ofNat 64 (revTo a.toNat 64 64)) (fun a => BitVec.ofNat 32 (revTo a.toNat 32 32))

/-- The mask of a bit field of R130. -/
def fieldMask (pos len : Nat) : W64 := BitVec.ofNat 64 ((2 ^ len - 1) * 2 ^ pos)

/-- Reserved values of bfx and bfi (R130). -/
def fieldBad (f : SFields) : Option Nat :=
  firstBad (sdsaChecks f ++ [(f.aux.toNat < 64 && decide (64 < f.aux.toNat + f.sb.toNat + 1), 26), (f.func != 0, 32),
    (f.bsel != 0, 36), (f.width != 0, 38), (decide (64 ≤ f.aux.toNat), 46)])

/-- R130 bfx: the field, zero-extended. -/
def execBfx (f : SFields) (s : State) : Host.Outcome State Fault Refusal :=
  coreOp s fun s => slotOp s .s f.hdr (fun _ => fieldBad f)
    (fun v _ => v.putS f ((v.scalar f.sa.toNat >>> f.aux.toNat) &&& fieldMask 0 (f.sb.toNat + 1)))

/-- R130 bfi: the field inserted into the old SD. -/
def execBfi (f : SFields) (s : State) : Host.Outcome State Fault Refusal :=
  coreOp s fun s => slotOp s .s f.hdr (fun _ => fieldBad f)
    (fun v _ =>
      let m := fieldMask f.aux.toNat (f.sb.toNat + 1)
      v.putS f ((v.scalar f.sd.toNat &&& ~~~m) ||| ((v.scalar f.sa.toNat <<< f.aux.toNat) &&& m)))

/-- Reserved values of sext and zext (R131). -/
def extBad (f : SFields) : Option Nat :=
  firstBad (sdsaChecks f ++ [(f.sb != 0, 26), (f.func != 0, 32), (f.bsel != 0, 36), (f.width != 0, 38),
    (decide (64 ≤ f.aux.toNat), 46)])

/-- R131 sext from width AUX + 1. -/
def execSext (f : SFields) (s : State) : Host.Outcome State Fault Refusal :=
  coreOp s fun s => slotOp s .s f.hdr (fun _ => extBad f)
    (fun v _ => v.putS f (BitVec.ofInt 64 (toSigned (f.aux.toNat + 1) (v.scalar f.sa.toNat).toNat)))

/-- R131 zext from width AUX + 1. -/
def execZext (f : SFields) (s : State) : Host.Outcome State Fault Refusal :=
  coreOp s fun s => slotOp s .s f.hdr (fun _ => extBad f)
    (fun v _ => v.putS f (v.scalar f.sa.toNat &&& fieldMask 0 (f.aux.toNat + 1)))

/-! ### Predicates (R134) -/

/-- Reserved values of the predicate ops of one or two k sources (R134). -/
def kopBad (f : SFields) (sdK two : Bool) : Option Nat :=
  firstBad [(if sdK then !isK f.sd.toNat else !isSA f.sd.toNat, 14), (!isK f.sa.toNat, 20),
    (if two then !isK f.sb.toNat else f.sb != 0, 26), (f.func != 0, 32), (f.bsel != 0, 36), (f.width != 0, 38),
    (f.aux != 0, 40)]

/-- The predicate an S operand code names. -/
def View.kcode (v : View) (code : BitVec 6) : LaneMask := v.g.pred (code.toNat - 0x30)

/-- R134 kset: two scalars as high and low half, or a literal as the low half. -/
def execKset (f : SFields) (s : State) : Host.Outcome State Fault Refusal :=
  coreOp s fun s => slotOp s .s f.hdr
    (fun v => firstBad [(!isK f.sd.toNat, 14), (if f.bsel == 1 then f.sa != 0 else !isSA f.sa.toNat, 20),
      (f.bsel == 0 && !isSA f.sb.toNat, 26), (f.bsel == 1 && f.sb != 0, 26), (f.func != 0, 32),
      (decide (f.bsel.toNat ≥ 2), 36),
      (f.bsel == 1 && !v.routed .s, routeBit .s), (f.width != 0, 38), (f.aux != 0, 40)])
    (fun v act => v.putK f act
      (if f.bsel = 1 then (v.literal .s).setWidth 128 else v.scalar f.sa.toNat ++ v.scalar f.sb.toNat))

/-- R134 kand. -/
def execKand (f : SFields) (s : State) : Host.Outcome State Fault Refusal :=
  coreOp s fun s => slotOp s .s f.hdr (fun _ => kopBad f true true)
    (fun v act => v.putK f act (v.kcode f.sa &&& v.kcode f.sb))
/-- R134 kor. -/
def execKor (f : SFields) (s : State) : Host.Outcome State Fault Refusal :=
  coreOp s fun s => slotOp s .s f.hdr (fun _ => kopBad f true true)
    (fun v act => v.putK f act (v.kcode f.sa ||| v.kcode f.sb))
/-- R134 kxor. -/
def execKxor (f : SFields) (s : State) : Host.Outcome State Fault Refusal :=
  coreOp s fun s => slotOp s .s f.hdr (fun _ => kopBad f true true)
    (fun v act => v.putK f act (v.kcode f.sa ^^^ v.kcode f.sb))
/-- R134 knot. -/
def execKnot (f : SFields) (s : State) : Host.Outcome State Fault Refusal :=
  coreOp s fun s => slotOp s .s f.hdr (fun _ => kopBad f true false)
    (fun v act => v.putK f act (~~~ v.kcode f.sa))
/-- R134 kpop: lanes of the active mask set in the predicate. -/
def execKpop (f : SFields) (s : State) : Host.Outcome State Fault Refusal :=
  coreOp s fun s => slotOp s .s f.hdr (fun _ => kopBad f false false)
    (fun v act => v.putS f (BitVec.ofNat 64 (v.kcode f.sa &&& act).count))
/-- R134 kfirst: the lowest such lane, or 128. -/
def execKfirst (f : SFields) (s : State) : Host.Outcome State Fault Refusal :=
  coreOp s fun s => slotOp s .s f.hdr (fun _ => kopBad f false false)
    (fun v act => v.putS f (BitVec.ofNat 64 ((v.kcode f.sa &&& act).lowest.getD 128)))

/-! ### Special registers (R92, R132, R133) -/

/-- Access class of a special register for the issuing code (R132, R133): none when the number is reserved or the
register is not for it; else whether it can be written. -/
def csrAccess (n : Nat) (handler : Bool) : Option Bool :=
  if n ≤ 0x09 then some false
  else if n ≤ 0x0F then none
  else if n ≤ 0x12 then some true
  else if n = 0x18 || n = 0x19 then some false
  else if n ≤ 0x1F then none
  else if n ≤ 0x22 then some false
  else if n = 0x23 then some true
  else if n = 0x28 || n = 0x29 || n = 0x2B then some false
  else if n = 0x2A then some true
  else if handler && ((0x30 ≤ n && n ≤ 0x32) || (0x34 ≤ n && n ≤ 0x37)) then some true
  else none

/-- Bits of a special register that are not reserved (R43, R46, R47, R133, R289, R290). -/
def csrWritable (n : Nat) : Nat :=
  match n with
  | 0x10 => 0x1F
  | 0x11 => 0x7
  | 0x12 => 0x1
  | 0x23 => 0x1FFFFF
  | 0x2A => 0xF
  | 0x30 => 0xFFFF0F3FFFFF
  | 0x31 => 0xFFFFFFFF
  | _ => 0xFFFFFFFFFFFFFFFF

/-- The team handler's run of a part, when the bundle belongs to it. -/
def View.run (v : View) : Option HandlerRun := if v.x.split = 4 then v.p.handler else none

/-- %MD_CAL at the issue cycle (R273). -/
def mdCal (die cycle : Nat) : Nat :=
  let off := Config.moff die % 20480
  let pos := (cycle + off) % 20480
  off * 65536 + (if pos % 2560 < 960 then 32768 else 0) + pos

/-- The power state of a hearth's die. -/
def State.die (s : State) (h : Nat) : Die := s.pow.dies.getD (dieOf h) (State.freshDie 0)

/-- The die as a hearth's stoker sees it: until a price-table update is applied to the hearth, the prices and the generation
before it are in force there (R86). -/
def State.dieFor (s : State) (h : Nat) : Die :=
  let d := s.die h
  match (s.core.hearth? h).bind fun hr => hr.oldPrices with
  | some (ps, gen) => { d with prices := ps, gen := gen }
  | none => d

/-- %PWR_LEVEL of a die (R133). -/
def Die.pwrLevel (d : Die) : Nat :=
  (match d.lease with | some l => if l.begun then 8 else 0 | none => 0) + d.level

/-- %PRIV_BASE of a group (R314). -/
def privBaseOf (p : Part) (g : Group) : Nat :=
  let n := (p.team * (if p.image.stove then 16 else 1) + p.p) * p.image.groups + g.num
  p.privBase + p.privStride * n

/-- State code the handler sees in %TRAP_CAUSE (R289). -/
def HandlerRun.stateCode (r : HandlerRun) (c : Core) (h : Nat) : Nat :=
  match c.group? h r.slot with
  | none => 0
  | some g => (g.split r.split).state.code

/-- %TRAP_CAUSE as the handler reads it (R289). -/
def trapCause (c : Core) (p : Part) (r : HandlerRun) : Nat :=
  p.events.length % 65536 * 2 ^ 32 + (if r.sbank then 2 ^ 27 else 0) + r.action * 2 ^ 24 + r.split * 2 ^ 20
    + r.slot * 2 ^ 16 + r.stateCode c p.h * 2 ^ 12 + (if r.hsel then 2 ^ 11 else 0) + r.origin * 2 ^ 8 + r.code

/-- The half of the trap mask that HSEL shows (R289, R290). -/
def HandlerRun.maskHalf (r : HandlerRun) : W64 :=
  if r.hsel then r.mask.extractLsb' 64 64 else r.mask.extractLsb' 0 64

/-- The launch the part runs, for %LAUNCH. -/
def View.launchNum (v : View) : Nat :=
  match v.st.lch.launches.find? fun l => l.id == v.p.launch with
  | some l => l.num
  | none => 0

/-- A special register's value (R133, R289, R290). -/
def View.csr (v : View) (n : Nat) (act : LaneMask) : W64 :=
  let s := v.st
  let hearth := (s.core.hearth? v.x.h).getD (State.freshHearth 0)
  match n with
  | 0x00 => BitVec.ofNat 64 v.g.num
  | 0x01 => BitVec.ofNat 64 v.p.team
  | 0x02 => BitVec.ofNat 64 v.launchNum
  | 0x03 => BitVec.ofNat 64 (if v.x.split = 4 then 0 else v.x.split)
  | 0x04 => BitVec.ofNat 64 (act.lowest.getD 0)
  | 0x05 => BitVec.ofNat 64 (v.x.h % 16)
  | 0x06 => BitVec.ofNat 64 (v.x.h / 16 % 8)
  | 0x07 => BitVec.ofNat 64 (v.x.h / 128)
  | 0x08 => BitVec.ofNat 64 (s.fab.device.getD 0)
  | 0x09 => BitVec.ofNat 64 v.p.world
  | 0x10 => v.g.fflags.setWidth 64
  | 0x11 => v.g.fctl.setWidth 64
  | 0x12 => if v.g.isat then 1 else 0
  | 0x18 => BitVec.ofNat 64 (privBaseOf v.p v.g)
  | 0x19 => BitVec.ofNat 64 v.p.image.priv
  | 0x20 => BitVec.ofNat 64 (mdCal (dieOf v.x.h) s.cycle)
  | 0x21 => BitVec.ofNat 64 (s.die v.x.h).pwrLevel
  | 0x22 => BitVec.ofNat 64 ((if hearth.claim.isSome then 128 else 0) + hearth.poolAt)
  | 0x23 => BitVec.ofNat 64 v.p.threshold
  | 0x28 => BitVec.ofNat 64 s.cycle
  | 0x29 => v.g.issues
  | 0x2A => BitVec.ofNat 64 v.g.vrot
  | 0x2B => match v.x.iter with | some i => BitVec.ofNat 64 i | none => v.g.seqIter
  | 0x30 => match v.run with | some r => BitVec.ofNat 64 (trapCause s.core v.p r) | none => 0
  | 0x31 => match v.run with | some r => r.pc | none => 0
  | 0x32 => match v.run with | some r => r.maskHalf | none => 0
  | 0x34 => match v.run with | some r => r.info.getD 0 0 | none => 0
  | 0x35 => match v.run with | some r => r.info.getD 1 0 | none => 0
  | 0x36 => match v.run with | some r => r.info.getD 2 0 | none => 0
  | 0x37 => match v.run with | some r => r.info.getD 3 0 | none => 0
  | _ => 0

/-- Reserved values of csr.rd (R132). -/
def csrRdBad (v : View) (f : SFields) : Option Nat :=
  firstBad [(!isSA f.sd.toNat, 14), (f.sa != 0, 20), (f.sb != 0, 26), (f.func != 0, 32), (f.bsel != 0, 36),
    (f.width != 0, 38), ((csrAccess f.aux.toNat (v.x.split == 4)).isNone, 40)]

/-- R132 csr.rd. -/
def execCsrRd (f : SFields) (s : State) : Host.Outcome State Fault Refusal :=
  coreOp s fun s => slotOp s .s f.hdr (fun v => csrRdBad v f)
    (fun v act => v.putS f (v.csr f.aux.toNat act))

/-- The operand of the csr write forms (R132). -/
def View.csrArg (v : View) (f : SFields) : W64 := if f.bsel = 1 then v.literal .s else v.scalar f.sa.toNat

/-- A special-register write takes effect at the end of its cycle, for bundles issued from c+1 (R132). -/
def View.putCsr (v : View) (f : SFields) (x : W64) : OpResult :=
  .ok (v.sendTo v.st.core 0 f.hdr.sq none 0 [.csr f.aux.toNat x] [] 0)

/-- Reserved values of the csr write forms, the value to be written given (R132, R43): `raw` is what the op offers
for the register's reserved bits, `new` what the register would hold. -/
def csrWrBad (v : View) (f : SFields) (raw new : W64) : Option Nat :=
  let n := f.aux.toNat
  firstBad [(f.sd != 0, 14), (if f.bsel == 1 then f.sa != 0 else !isSA f.sa.toNat, 20), (f.sb != 0, 26),
    (f.func != 0, 32), (decide (f.bsel.toNat ≥ 2), 36),
      (f.bsel == 1 && !v.routed .s, routeBit .s), (f.width != 0, 38),
    (csrAccess n (v.x.split == 4) != some true, 40),
    (decide (raw.toNat &&& csrWritable n ≠ raw.toNat), 40),
    (n == 0x23 && decide (new.toNat < 1024 ∨ 1048576 < new.toNat), 40)]

/-- R132 csr.wr. -/
def execCsrWr (f : SFields) (s : State) : Host.Outcome State Fault Refusal :=
  coreOp s fun s => slotOp s .s f.hdr
    (fun v => csrWrBad v f (v.csrArg f) (v.csrArg f))
    (fun v _ => v.putCsr f (v.csrArg f))

/-- R132 csr.set. -/
def execCsrSet (f : SFields) (s : State) : Host.Outcome State Fault Refusal :=
  coreOp s fun s => slotOp s .s f.hdr
    (fun v => csrWrBad v f (v.csrArg f) (v.csr f.aux.toNat 0 ||| v.csrArg f))
    (fun v act => v.putCsr f (v.csr f.aux.toNat act ||| v.csrArg f))

/-- R132 csr.clr. -/
def execCsrClr (f : SFields) (s : State) : Host.Outcome State Fault Refusal :=
  coreOp s fun s => slotOp s .s f.hdr
    (fun v => csrWrBad v f 0 (v.csr f.aux.toNat 0 &&& ~~~ v.csrArg f))
    (fun v act => v.putCsr f (v.csr f.aux.toNat act &&& ~~~ v.csrArg f))

end Sys2Proof.Machine
end

