-- ==== Sys2Proof/Machine/Flags.lean ====
section
/-! DEFINITION. Number formats, rounding and the floating-point flags (R37 to R53), over exact numbers. -/

namespace Sys2Proof.Machine

/-! ### Flags (R45, R46) -/

/-- Sticky floating-point flags. -/
abbrev FlagSet := BitVec 5
def flagNX : FlagSet := 1
def flagUF : FlagSet := 2
def flagOF : FlagSet := 4
def flagDZ : FlagSet := 8
def flagIV : FlagSet := 16

/-! ### Formats (R37, R39, R41) -/

/-- A floating-point format: exponent and mantissa bits, bias, and whether it has infinities (R39). -/
structure FloatFmt where
  ebits : Nat
  mbits : Nat
  bias : Nat
  inf : Bool
  deriving DecidableEq, Repr

/-- The floating-point format of a code (R37, R39). -/
def floatFmt (code : Nat) : Option FloatFmt :=
  match code with
  | 0 => some { ebits := 8, mbits := 23, bias := 127, inf := true }
  | 1 => some { ebits := 5, mbits := 10, bias := 15, inf := true }
  | 2 => some { ebits := 8, mbits := 7, bias := 127, inf := true }
  | 3 => some { ebits := 4, mbits := 3, bias := 7, inf := false }
  | 4 => some { ebits := 5, mbits := 2, bias := 15, inf := true }
  | _ => none

/-- F32. -/
def f32 : FloatFmt := { ebits := 8, mbits := 23, bias := 127, inf := true }
/-- F16. -/
def f16 : FloatFmt := { ebits := 5, mbits := 10, bias := 15, inf := true }

/-- Width of a format code in bits; 0 for a reserved code (R37). -/
def fmtWidth (code : Nat) : Nat :=
  match code with
  | 0 => 32 | 1 => 16 | 2 => 16 | 3 => 8 | 4 => 8
  | 8 => 32 | 9 => 16 | 10 => 8 | 11 => 4 | 12 => 32 | 13 => 16 | 14 => 8 | 15 => 4 | 16 => 8 | 17 => 4
  | _ => 0

/-- The code names a floating-point format. -/
def isFloat (code : Nat) : Bool := code ≤ 4
/-- The code names a signed integer format. -/
def isSigned (code : Nat) : Bool := 8 ≤ code && code ≤ 11
/-- The code names an unsigned integer format. -/
def isUnsigned (code : Nat) : Bool := 12 ≤ code && code ≤ 15
/-- The code names an integer format. -/
def isInteger (code : Nat) : Bool := 8 ≤ code && code ≤ 15

/-- Bounds of an integer format (R41). -/
def intBounds (code : Nat) : Int × Int :=
  let w := fmtWidth code
  if isSigned code then (-((2 ^ (w - 1) : Nat) : Int), ((2 ^ (w - 1) : Nat) : Int) - 1)
  else (0, ((2 ^ w : Nat) : Int) - 1)

/-- The value of an integer element (R41). -/
def intVal (code x : Nat) : Int := if isSigned code then toSigned (fmtWidth code) x else ((x % 2 ^ fmtWidth code : Nat) : Int)

/-! ### Exact values -/

/-- What an encoding stands for: a NaN (signalling or not), an infinity, or (−1)^neg × m × 2^e. -/
inductive FVal where
  | nan (sig : Bool)
  | inf (neg : Bool)
  | fin (neg : Bool) (m : Nat) (e : Int)
  deriving DecidableEq, Repr

/-- The value of an encoding (R39, R40). -/
def unpack (F : FloatFmt) (x : Nat) : FVal :=
  let m := x % 2 ^ F.mbits
  let e := x / 2 ^ F.mbits % 2 ^ F.ebits
  let neg := bitNat x (F.mbits + F.ebits)
  if e = 2 ^ F.ebits - 1 && F.inf then (if m = 0 then .inf neg else .nan (!(bitNat m (F.mbits - 1))))
  else if e = 2 ^ F.ebits - 1 && m = 2 ^ F.mbits - 1 then .nan false
  else if e = 0 then .fin neg m (1 - (F.bias : Int) - F.mbits)
  else .fin neg (2 ^ F.mbits + m) ((e : Int) - F.bias - F.mbits)

/-- The encoding is a subnormal. -/
def isSubnormal (F : FloatFmt) (x : Nat) : Bool :=
  x / 2 ^ F.mbits % 2 ^ F.ebits == 0 && x % 2 ^ F.mbits != 0

/-- A subnormal input becomes zero of its sign under FTZ (R44). -/
def flushIn (F : FloatFmt) (ftz : Bool) (x : Nat) : Nat :=
  if ftz && isSubnormal F x then x - x % 2 ^ F.mbits else x

/-- The canonical NaN (R40). -/
def canonNaN (F : FloatFmt) : Nat :=
  if F.inf then (2 ^ F.ebits - 1) * 2 ^ F.mbits + 2 ^ (F.mbits - 1) else 2 ^ (F.ebits + F.mbits) - 1

/-- The sign bit of a format in place. -/
def signBit (F : FloatFmt) (neg : Bool) : Nat := if neg then 2 ^ (F.mbits + F.ebits) else 0

/-- Encoding of the largest finite magnitude (R39). -/
def maxEnc (F : FloatFmt) : Nat :=
  if F.inf then (2 ^ F.ebits - 1) * 2 ^ F.mbits - 1 else 2 ^ (F.ebits + F.mbits) - 2

/-- The encoding of an infinity; F8E4 has none and takes its largest number (R51). -/
def infEnc (F : FloatFmt) (neg : Bool) : Nat :=
  signBit F neg + (if F.inf then (2 ^ F.ebits - 1) * 2 ^ F.mbits else maxEnc F)

/-- Rounding modes: the effective 2-bit mode, 0 RNE, 1 RZ, 2 RD, 3 RU (R42, R43). -/
abbrev RMode := Nat

/-- The integer nearest to m × 2^−sh under a mode, with whether it differs; `sticky` says the true value lies
strictly between m and m + 1. -/
def roundShift (rm : RMode) (neg : Bool) (m sh : Nat) (sticky : Bool) : Nat × Bool :=
  let n := m >>> sh
  let r := m % 2 ^ sh
  let inexact := r != 0 || sticky
  let up :=
    match rm with
    | 0 => if sh = 0 then false
           else decide (2 ^ sh < 2 * r) || (2 * r == 2 ^ sh && (sticky || n % 2 == 1))
    | 1 => false
    | 2 => neg && inexact
    | _ => !neg && inexact
  (if up then n + 1 else n, inexact)

/-- Round m × 2^e (with sticky) to a multiple of 2^q. -/
def roundAt (rm : RMode) (neg : Bool) (m : Nat) (e q : Int) (sticky : Bool) : Nat × Bool :=
  if q ≤ e then
    let n := m <<< (e - q).toNat
    let up := sticky && ((rm == 2 && neg) || (rm == 3 && !neg))
    (if up then n + 1 else n, sticky)
  else roundShift rm neg m (q - e).toNat sticky

/-- The result of a finite overflow (R51). -/
def overflowEnc (F : FloatFmt) (rm : RMode) (neg sat : Bool) : Nat :=
  let big := signBit F neg + maxEnc F
  if sat || !F.inf then big
  else match rm with
    | 0 => infEnc F neg
    | 1 => big
    | 2 => if neg then infEnc F neg else big
    | _ => if neg then big else infEnc F neg

/-- Round an exact number to a format: the encoding and the flags (R42, R44, R45, R51). -/
def roundFin (F : FloatFmt) (rm : RMode) (ftz sat : Bool) (neg : Bool) (m : Nat) (e : Int) (sticky : Bool) :
    Nat × FlagSet :=
  if m = 0 then (signBit F neg, 0)
  else
    let p := F.mbits + 1
    let emin : Int := 1 - (F.bias : Int)
    let big : Int := (m.log2 : Int) + e
    let qu : Int := big - (p - 1 : Nat)
    let qs : Int := emin - (p - 1 : Nat)
    let u := roundAt rm neg m e qu sticky
    let tiny := decide (big < emin) && !(decide (big = emin - 1) && u.1 == 2 ^ p)
    let q := if qu < qs then qs else qu
    let r := roundAt rm neg m e q sticky
    if tiny && ftz then (signBit F neg, flagUF ||| flagNX)
    else
      let n := r.1
      let enc :=
        if n < 2 ^ (p - 1) then n
        else if n = 2 ^ p then (q + (p - 1 : Nat) + F.bias + 1).toNat * 2 ^ F.mbits
        else (q + (p - 1 : Nat) + F.bias).toNat * 2 ^ F.mbits + (n - 2 ^ (p - 1))
      if maxEnc F < enc then (overflowEnc F rm neg sat, flagOF ||| flagNX)
      else (signBit F neg + enc, (if r.2 then flagNX else 0) ||| (if tiny && r.2 then flagUF else 0))

/-- Deliver a value in a format; infinities and NaNs as R51 gives, `iv` when the source raises IV. -/
def deliver (F : FloatFmt) (rm : RMode) (ftz sat : Bool) (v : FVal) : Nat × FlagSet :=
  match v with
  | .nan sig => (canonNaN F, if sig then flagIV else 0)
  | .inf neg =>
    if !F.inf || sat then (signBit F neg + maxEnc F, flagIV) else (infEnc F neg, 0)
  | .fin neg m e => roundFin F rm ftz sat neg m e false

/-- Negate a value. -/
def FVal.neg : FVal → FVal
  | .nan s => .nan s
  | .inf n => .inf !n
  | .fin n m e => .fin (!n) m e

/-- An exact product: NaNs first, then 0 × ∞, with the flag it raises (R45). -/
def mulExact (a b : FVal) : FVal × FlagSet :=
  match a, b with
  | .nan s, .nan t => (.nan false, if s || t then flagIV else 0)
  | .nan s, _ => (.nan false, if s then flagIV else 0)
  | _, .nan t => (.nan false, if t then flagIV else 0)
  | .inf n, .inf k => (.inf (n != k), 0)
  | .inf n, .fin k m _ => if m = 0 then (.nan false, flagIV) else (.inf (n != k), 0)
  | .fin n m _, .inf k => if m = 0 then (.nan false, flagIV) else (.inf (n != k), 0)
  | .fin n m e, .fin k p d => (.fin (n != k) (m * p) (e + d), 0)

/-- The signed mantissa of a finite term at an exponent not above its own. -/
def FVal.scaled (v : FVal) (e0 : Int) : Int :=
  match v with
  | .fin n m e => let x : Int := ((m <<< (e - e0).toNat : Nat) : Int); if n then -x else x
  | _ => 0

/-- The least exponent among terms. -/
def leastExp : List FVal → Int → Int
  | [], e => e
  | .fin _ _ d :: l, e => leastExp l (if d < e then d else e)
  | _ :: l, e => leastExp l e

/-- A term is a zero of a sign. -/
def FVal.isZero (v : FVal) (neg : Bool) : Bool :=
  match v with
  | .fin n m _ => m == 0 && n == neg
  | _ => false

/-- An exact sum of terms under a mode: NaNs, ∞ − ∞, infinities, then the exact finite sum; an exact zero has the sign that
IEEE 754 gives for two terms and R61 for more. With a quiet NaN among the terms no ∞ − ∞ is looked for (log entry 97). -/
def sumExact (rm : RMode) (ts : List FVal) : FVal × FlagSet :=
  if ts.any fun t => match t with | .nan _ => true | _ => false then
    (.nan false, if ts.any fun t => match t with | .nan true => true | _ => false then flagIV else 0)
  else
    let pos := ts.any fun t => t == .inf false
    let neg := ts.any fun t => t == .inf true
    if pos && neg then (.nan false, flagIV)
    else if pos then (.inf false, 0)
    else if neg then (.inf true, 0)
    else
      let e0 := match ts with
        | .fin _ _ e :: l => leastExp l e
        | _ => 0
      let x := ts.foldl (fun acc t => acc + t.scaled e0) (0 : Int)
      if x = 0 then
        if ts.all fun t => t.isZero true then (.fin true 0 e0, 0)
        else if ts.length ≤ 2 && ts.all fun t => t.isZero false then (.fin false 0 e0, 0)
        else (.fin (rm == 2) 0 e0, 0)
      else (.fin (x < 0) x.natAbs e0, 0)

/-- Deliver a sum or product, OR-ing what it raised. -/
def deliverWith (F : FloatFmt) (rm : RMode) (ftz sat : Bool) (r : FVal × FlagSet) : Nat × FlagSet :=
  let d := match r.1 with
    | .inf neg => (infEnc F neg, (0 : FlagSet))
    | v => deliver F rm ftz sat v
  (d.1, d.2 ||| r.2)

/-- IEEE addition of two encodings rounded once. -/
def addFloat (F : FloatFmt) (rm : RMode) (a b : Nat) : Nat × FlagSet :=
  deliverWith F rm false false (sumExact rm [unpack F a, unpack F b])

/-! ### Integers of values -/

/-- A finite value rounded to an integer, with whether it changed. -/
def roundInt (rm : RMode) (neg : Bool) (m : Nat) (e : Int) : Int × Bool :=
  let r := roundAt rm neg m e 0 false
  (if neg then -(r.1 : Int) else (r.1 : Int), r.2)

/-- Floating point to integer format (R52). -/
def floatToInt (code : Nat) (rm : RMode) (v : FVal) : Nat × FlagSet :=
  let w := fmtWidth code
  let b := intBounds code
  match v with
  | .nan _ => (0, flagIV)
  | .inf neg => (wrapInt w (if neg then b.1 else b.2), flagIV)
  | .fin neg m e =>
    let r := roundInt rm neg m e
    if r.1 < b.1 then (wrapInt w b.1, flagIV)
    else if b.2 < r.1 then (wrapInt w b.2, flagIV)
    else (wrapInt w r.1, if r.2 then flagNX else 0)

/-- An integer as an exact value; zero is +0. -/
def intToVal (x : Int) : FVal := .fin (x < 0) x.natAbs 0

/-- Integer to integer format: wrap, or clamp with %ISAT under .sat (R53). -/
def intToInt (code : Nat) (sat : Bool) (x : Int) : Nat × Bool :=
  let w := fmtWidth code
  let b := intBounds code
  if sat then (wrapInt w (clampInt b.1 b.2 x), decide (x < b.1) || decide (b.2 < x)) else (wrapInt w x, false)

/-- The value of an element of any arithmetic code. -/
def elemVal (code x : Nat) : FVal :=
  match floatFmt code with
  | some F => unpack F x
  | none => intToVal (intVal code x)

/-- Convert an element from one code to another (R51 to R53): result, flags, clamped. -/
def convertElem (dst src : Nat) (rm : RMode) (ftz sat : Bool) (x : Nat) : Nat × FlagSet × Bool :=
  match floatFmt dst, floatFmt src with
  | some D, some S => let r := deliver D rm ftz sat (unpack S (flushIn S ftz x)); (r.1, r.2, false)
  | some D, none => let r := deliver D rm ftz sat (intToVal (intVal src x)); (r.1, r.2, false)
  | none, some S => let r := floatToInt dst rm (unpack S (flushIn S ftz x)); (r.1, r.2, false)
  | none, none => let r := intToInt dst sat (intVal src x); (r.1, 0, r.2)

/-! ### Order of values -/

/-- Compare two non-NaN values; −0 and +0 are equal. -/
def cmpVal (a b : FVal) : Ordering :=
  match a, b with
  | .inf n, .inf k => if n == k then .eq else if n then .lt else .gt
  | .inf n, _ => if n then .lt else .gt
  | _, .inf k => if k then .gt else .lt
  | a, b =>
    let e0 := leastExp [a, b] (match a with | .fin _ _ e => e | _ => 0)
    let x := a.scaled e0
    let y := b.scaled e0
    if x < y then .lt else if x = y then .eq else .gt

/-- The value is a NaN. -/
def FVal.isNaN : FVal → Bool
  | .nan _ => true
  | _ => false
/-- The value is a signalling NaN. -/
def FVal.isSig : FVal → Bool
  | .nan s => s
  | _ => false

end Sys2Proof.Machine
end

