-- ==== Sys2Proof/Machine/Vector.lean ====
section
/-! DEFINITION. The V0 and V1 slots (R135 to R152). -/

namespace Sys2Proof.Machine

/-! ### The shape every V op shares (R136, R137) -/

/-- What an op makes of one lane: its destination words (one per register written), flags, clamped. -/
abbrev LaneOut := List W32 × FlagSet × Bool
/-- What an op makes of one element. -/
abbrev ElemOut := Nat × FlagSet × Bool

/-- An element result with no flag. -/
def plainElem (x : Nat) : ElemOut := (x, 0, false)
/-- An element result with floating-point flags. -/
def flagElem (r : Nat × FlagSet) : ElemOut := (r.1, r.2, false)

/-- A lane computed element by element at a width (R34, R35). -/
def perElem (w : Nat) (g : Nat → ElemOut) : LaneOut :=
  let rs := (List.range (32 / w)).map g
  ([laneOf w fun i => (rs.getD i (0, 0, false)).1], rs.foldl (fun f r => f ||| r.2.1) 0, rs.any fun r => r.2.2)

/-- How an op names its destination, its first source and its second source. -/
inductive VdKind where
  | vec (span : Nat)
  | pred
  deriving DecidableEq, Repr
inductive VaKind where
  | vec (span : Nat)
  | code
  | unused
  deriving DecidableEq, Repr
inductive VbKind where
  | operand
  | literal
  | unused
  deriving DecidableEq, Repr

/-- The values an op allows its fields (R137). -/
structure VSpec where
  vd : VdKind
  va : VaKind
  vb : VbKind
  vc : Bool
  fmt : Bool
  fmt2 : Bool
  rm : Bool
  sat : Bool
  func : Bool
  deriving DecidableEq, Repr

/-- The slot a V op stands in. -/
def vSlot (f : VFields) : Slot := if f.unit1 then .v1 else .v0

/-- Reserved values of a V op, lowest field first (R18, R136, R137). -/
def vBad (v : View) (f : VFields) (sp : VSpec) : Option Nat :=
  firstBad [
    (match sp.vd with | .vec k => v.vecBad f.vd.toNat k | .pred => decide (16 ≤ f.vd.toNat), 14),
    (match sp.va with | .vec k => v.vecBad f.va.toNat k | .code => !isSA f.va.toNat | .unused => f.va != 0, 20),
    (match sp.vb with
      | .operand => (f.bsel == 0 && v.vecBad f.vb.toNat 1) || (f.bsel == 1 && f.vb != 0) ||
                    (f.bsel == 2 && decide (32 ≤ f.vb.toNat))
      | _ => f.vb != 0, 26),
    (if sp.vc then v.vecBad f.vc.toNat 1 else f.vc != 0, 32),
    (!sp.fmt, 38),
    (!sp.rm && f.rm != 0, 43),
    (!sp.sat && f.sat, 45),
    (match sp.vb with
      | .operand => f.bsel == 3
      | .literal => f.bsel != 1
      | .unused => f.bsel != 0, 46),
    (sp.vb != .unused && f.bsel == 1 && !v.route32 (vSlot f), routeBit (vSlot f)),
    (!sp.fmt2, 48),
    (!sp.func, 53),
    (f.rsv != 0, 57)]

/-- The second source in a lane (R136). -/
def View.vb (v : View) (f : VFields) (lane : Nat) : W32 :=
  match f.bsel.toNat with
  | 0 => (v.vec f.vb.toNat).lane lane
  | 1 => (v.literal (vSlot f)).setWidth 32
  | _ => (v.scalar (f.vb.toNat % 32)).setWidth 32

/-- The rounding mode of an op (R42). -/
def View.rmode (v : View) (rm : BitVec 2) : RMode := if rm = 0 then v.g.fctl.toNat % 4 else rm.toNat
/-- FTZ (R43). -/
def View.ftz (v : View) : Bool := v.g.fctl.getLsbD 2

/-- The lane results of an op over its active lanes. -/
def lanesOut (act : LaneMask) (f : Nat → LaneOut) : List LaneOut :=
  (List.range lanes).map fun n => if act.has n then f n else ([], 0, false)

/-- Send a V result on its way to `k` registers from VD: end of c+3, WB0 or WB1 (R135). -/
def View.putV (v : View) (f : VFields) (act : LaneMask) (k : Nat) (out : Nat → LaneOut) : OpResult :=
  let rs := lanesOut act out
  .ok (v.sendTo v.st.core 3 f.hdr.sq (some (if f.unit1 then 1 else 0)) act
    ((List.range k).map fun j => v.vwrite (f.vd.toNat + j) act (rs.map fun r => r.1.getD j 0))
    (rs.map fun r => r.2.1) (LaneMask.build fun n => (rs.getD n ([], 0, false)).2.2))

/-- Send a predicate result: end of c+3, no bus (R135, R139). -/
def View.putVK (v : View) (f : VFields) (act : LaneMask) (out : Nat → Bool × FlagSet) : OpResult :=
  let rs := (List.range lanes).map fun n => if act.has n then out n else (false, 0)
  .ok (v.sendTo v.st.core 3 f.hdr.sq none act
    [.pred f.vd.toNat act (LaneMask.build fun n => (rs.getD n (false, 0)).1)] (rs.map fun r => r.2) 0)

/-- A V op whose result is one register computed lane by lane from a, b, c and the old d. -/
def vOp (s : State) (f : VFields) (sp : VSpec) (lane : View → Nat → W32 → W32 → W32 → W32 → LaneOut) : Core :=
  slotOp s (vSlot f) f.hdr (fun v => vBad v f sp)
    (fun v act =>
      let a := v.vec f.va.toNat
      let c := v.vec f.vc.toNat
      let d := v.vec f.vd.toNat
      v.putV f act 1 fun n => lane v n (a.lane n) (v.vb f n) (c.lane n) (d.lane n))

/-- Field values of a two-source op. -/
def spec2 (fmt rm sat : Bool) (f : VFields) : VSpec :=
  { vd := .vec 1, va := .vec 1, vb := .operand, vc := false, fmt := fmt, fmt2 := f.fmt2 == 0, rm := rm, sat := sat,
    func := f.func == 0 }
/-- Field values of a three-source op. -/
def spec3 (fmt rm sat : Bool) (f : VFields) : VSpec := { spec2 fmt rm sat f with vc := true }
/-- Field values of a one-source op. -/
def spec1 (fmt rm sat : Bool) (f : VFields) : VSpec := { spec2 fmt rm sat f with vb := .unused }

/-! ### Floating point (R138 to R140) -/

/-- FMT names f32, f16 or bf16 (R138). -/
def fmtF (f : VFields) : Bool := f.fmt.toNat ≤ 2
/-- The format of a floating-point V op. -/
def fmtOf (f : VFields) : FloatFmt := (floatFmt f.fmt.toNat).getD f32

/-- An element's value after the flush of FTZ (R44). -/
def View.fval (v : View) (F : FloatFmt) (x : Nat) : FVal := unpack F (flushIn F v.ftz x)

/-- A rounding op of R138 on exact values. -/
def floatOp (s : State) (f : VFields) (three : Bool) (op : RMode → FVal → FVal → FVal → FVal × FlagSet) : Core :=
  vOp s f (if three then spec3 (fmtF f) true false f else spec2 (fmtF f) true false f)
    (fun v _ a b c _ =>
      let w := fmtWidth f.fmt.toNat
      let rm := v.rmode f.rm
      let g := fun x i => v.fval (fmtOf f) (elemOf x w i)
      perElem w fun i => flagElem (deliverWith (fmtOf f) rm v.ftz false (op rm (g a i) (g b i) (g c i))))

/-- A product and an addend, rounded once, with what the product raised (R138). -/
def fusedExact (rm : RMode) (a b c : FVal) (negP negC : Bool) : FVal × FlagSet :=
  let p := mulExact a b
  let r := sumExact rm [if negP then p.1.neg else p.1, if negC then c.neg else c]
  (r.1, r.2 ||| p.2)

/-- R138 vadd. -/
def execVadd (f : VFields) (s : State) : Host.Outcome State Fault Refusal :=
  coreOp s fun s => floatOp s f false (fun rm a b _ => sumExact rm [a, b])
/-- R138 vsub. -/
def execVsub (f : VFields) (s : State) : Host.Outcome State Fault Refusal :=
  coreOp s fun s => floatOp s f false (fun rm a b _ => sumExact rm [a, b.neg])
/-- R138 vmul. -/
def execVmul (f : VFields) (s : State) : Host.Outcome State Fault Refusal :=
  coreOp s fun s => floatOp s f false (fun _ a b _ => mulExact a b)
/-- R138 vfma. -/
def execVfma (f : VFields) (s : State) : Host.Outcome State Fault Refusal :=
  coreOp s fun s => floatOp s f true (fun rm a b c => fusedExact rm a b c false false)
/-- R138 vfms. -/
def execVfms (f : VFields) (s : State) : Host.Outcome State Fault Refusal :=
  coreOp s fun s => floatOp s f true (fun rm a b c => fusedExact rm a b c false true)
/-- R138 vfnma. -/
def execVfnma (f : VFields) (s : State) : Host.Outcome State Fault Refusal :=
  coreOp s fun s => floatOp s f true (fun rm a b c => fusedExact rm a b c true false)

/-- The sign bit of a value is set. -/
def FVal.isNeg : FVal → Bool
  | .nan _ => false
  | .inf n => n
  | .fin n _ _ => n

/-- The smaller (or larger) of two encodings, −0 below +0, with the NaN rules of R138. -/
def minMax (F : FloatFmt) (max : Bool) (a b : Nat) : Nat × FlagSet :=
  let x := unpack F a
  let y := unpack F b
  let iv : FlagSet := if x.isSig || y.isSig then flagIV else 0
  if x.isNaN && y.isNaN then (canonNaN F, iv)
  else if x.isNaN then (b, iv)
  else if y.isNaN then (a, iv)
  else
    let less := match cmpVal x y with
      | .lt => true
      | .gt => false
      | .eq => x.isNeg && !y.isNeg
    (if less == max then b else a, 0)

/-- An op of R138 that does not round, on encodings after the flush of FTZ. -/
def bitsOp (s : State) (f : VFields) (sp : VSpec) (op : FloatFmt → Nat → Nat → Nat × FlagSet) : Core :=
  vOp s f sp
    (fun v _ a b _ _ =>
      let w := fmtWidth f.fmt.toNat
      perElem w fun i =>
        flagElem (op (fmtOf f) (flushIn (fmtOf f) v.ftz (elemOf a w i)) (elemOf b w i)))

/-- R138 vmin. -/
def execVmin (f : VFields) (s : State) : Host.Outcome State Fault Refusal :=
  coreOp s fun s => vOp s f (spec2 (fmtF f) false false f) (fun v _ a b _ _ =>
    let w := fmtWidth f.fmt.toNat
    perElem w fun i => flagElem (minMax (fmtOf f) false (flushIn (fmtOf f) v.ftz (elemOf a w i))
      (flushIn (fmtOf f) v.ftz (elemOf b w i))))
/-- R138 vmax. -/
def execVmax (f : VFields) (s : State) : Host.Outcome State Fault Refusal :=
  coreOp s fun s => vOp s f (spec2 (fmtF f) false false f) (fun v _ a b _ _ =>
    let w := fmtWidth f.fmt.toNat
    perElem w fun i => flagElem (minMax (fmtOf f) true (flushIn (fmtOf f) v.ftz (elemOf a w i))
      (flushIn (fmtOf f) v.ftz (elemOf b w i))))

/-- A number with its sign bit chosen; a NaN gives the canonical NaN (R138). -/
def withSign (F : FloatFmt) (x : Nat) (neg : Bool) : Nat × FlagSet :=
  match unpack F x with
  | .nan sig => (canonNaN F, if sig then flagIV else 0)
  | _ => (signBit F neg + x % 2 ^ (F.mbits + F.ebits), 0)

/-- R138 vabs. -/
def execVabs (f : VFields) (s : State) : Host.Outcome State Fault Refusal :=
  coreOp s fun s => bitsOp s f (spec1 (fmtF f) false false f) (fun F a _ => withSign F a false)
/-- R138 vneg. -/
def execVneg (f : VFields) (s : State) : Host.Outcome State Fault Refusal :=
  coreOp s fun s => bitsOp s f (spec1 (fmtF f) false false f)
    (fun F a _ => withSign F a (!(bitNat a (F.mbits + F.ebits))))
/-- R138 vcpys. -/
def execVcpys (f : VFields) (s : State) : Host.Outcome State Fault Refusal :=
  coreOp s fun s => bitsOp s f (spec2 (fmtF f) false false f)
    (fun F a b => withSign F a (bitNat b (F.mbits + F.ebits)))

/-- A value rounded to an integral one in its format (R138). -/
def roundIntegral (F : FloatFmt) (rm : RMode) (x : Nat) : Nat × FlagSet :=
  match unpack F x with
  | .nan sig => (canonNaN F, if sig then flagIV else 0)
  | .inf _ => (x, 0)
  | .fin neg m e =>
    if m = 0 then (x, 0)
    else
      let r := roundAt rm neg m e 0 false
      ((roundFin F 0 false false neg r.1 0 false).1, if r.2 then flagNX else 0)

/-- R138 vrnd. -/
def execVrnd (f : VFields) (s : State) : Host.Outcome State Fault Refusal :=
  coreOp s fun s => vOp s f (spec1 (fmtF f) true false f) (fun v _ a _ _ _ =>
    let w := fmtWidth f.fmt.toNat
    perElem w fun i => flagElem (roundIntegral (fmtOf f) (v.rmode f.rm) (flushIn (fmtOf f) v.ftz (elemOf a w i))))

/-- A value times 2^n; an n beyond 2,000 in magnitude already passes every format's range (R138). -/
def scaleVal (x : FVal) (n : Int) : FVal :=
  match x with
  | .fin neg m e => .fin neg m (e + clampInt (-2000) 2000 n)
  | x => x

/-- R138 vldexp. -/
def execVldexp (f : VFields) (s : State) : Host.Outcome State Fault Refusal :=
  coreOp s fun s => vOp s f (spec2 (fmtF f) true false f) (fun v _ a b _ _ =>
    let w := fmtWidth f.fmt.toNat
    perElem w fun i => flagElem (deliverWith (fmtOf f) (v.rmode f.rm) v.ftz false
      (let x := v.fval (fmtOf f) (elemOf a w i)
       (scaleVal x (toSigned w (elemOf b w i)), if x.isSig then flagIV else 0))))

/-- The condition of vcmp (R139). -/
def fcmpHolds (func : Nat) (a b : FVal) : Bool × FlagSet :=
  let un := a.isNaN || b.isNaN
  let sig := a.isSig || b.isSig
  let o := cmpVal a b
  let r := match func with
    | 0 => !un && o == .eq
    | 1 => un || o != .eq
    | 2 => !un && o == .lt
    | 3 => !un && o != .gt
    | 4 => !un && o == .gt
    | 5 => !un && o != .lt
    | 6 => un
    | _ => !un
  (r, if sig || (un && 2 ≤ func && func ≤ 5) then flagIV else 0)

/-- Every element of a lane meets a condition, each raising its flags (R139, R144). -/
def allElems (w : Nat) (g : Nat → Bool × FlagSet) : Bool × FlagSet :=
  (List.range (32 / w)).foldl (fun acc i => let r := g i; (acc.1 && r.1, acc.2 ||| r.2)) (true, 0)

/-- R139 vcmp. -/
def execVcmp (f : VFields) (s : State) : Host.Outcome State Fault Refusal :=
  coreOp s fun s => slotOp s (vSlot f) f.hdr
    (fun v => vBad v f { spec2 (fmtF f) false false f with vd := .pred, func := decide (f.func.toNat ≤ 7) })
    (fun v act =>
      let w := fmtWidth f.fmt.toNat
      let a := v.vec f.va.toNat
      v.putVK f act fun n => allElems w fun i =>
        fcmpHolds f.func.toNat (v.fval (fmtOf f) (elemOf (a.lane n) w i)) (v.fval (fmtOf f) (elemOf (v.vb f n) w i)))

/-- The class bit of an encoding (R140). -/
def classOf (F : FloatFmt) (x : Nat) : Nat :=
  match unpack F x with
  | .nan sig => if sig then 256 else 512
  | .inf neg => if neg then 1 else 128
  | .fin neg m _ =>
    if m = 0 then (if neg then 8 else 16)
    else if isSubnormal F x then (if neg then 4 else 32)
    else (if neg then 2 else 64)

/-- R140 vclass. -/
def execVclass (f : VFields) (s : State) : Host.Outcome State Fault Refusal :=
  coreOp s fun s => vOp s f (spec1 (fmtF f) false false f) (fun _ _ a _ _ _ =>
    let w := fmtWidth f.fmt.toNat
    perElem w fun i => plainElem (classOf (fmtOf f) (elemOf a w i)))

/-! ### Conversions and dot products (R141, R142) -/

/-- A format vcvt accepts: not quantized, not reserved (R141). -/
def cvtFmt (c : Nat) : Bool := fmtWidth c != 0 && c < 16

/-- R141 vcvt. -/
def execVcvt (f : VFields) (s : State) : Host.Outcome State Fault Refusal :=
  coreOp s fun s =>
    let d := f.fmt.toNat
    let c := f.fmt2.toNat
    let ints := isInteger d && isInteger c
    vOp s f { spec1 (cvtFmt d) (!ints) (ints || (isFloat c && (d == 1 || d == 2 || d == 4))) f with
              fmt2 := cvtFmt c && fmtWidth c == fmtWidth d && c != d }
      (fun v _ a _ _ _ =>
        let w := fmtWidth d
        perElem w fun i => convertElem d c (v.rmode f.rm) v.ftz f.sat (elemOf a w i))

/-- R142 vdot2: three exact terms, one rounding (R61). -/
def execVdot2 (f : VFields) (s : State) : Host.Outcome State Fault Refusal :=
  coreOp s fun s =>
    vOp s f { spec2 (f.fmt == 0) true false f with fmt2 := f.fmt2 == 1 || f.fmt2 == 2 }
      (fun v _ a b _ d =>
        let S := (floatFmt f.fmt2.toNat).getD f16
        let rm := v.rmode f.rm
        let p := fun i => mulExact (v.fval S (elemOf a 16 i)) (v.fval S (elemOf b 16 i))
        let r := sumExact rm [v.fval f32 d.toNat, (p 0).1, (p 1).1]
        let out := deliverWith f32 rm v.ftz false (r.1, r.2 ||| (p 0).2 ||| (p 1).2)
        ([BitVec.ofNat 32 out.1], out.2, false))

/-- An integer dot product into I32 (R61, R142). -/
def intDot (sat : Bool) (code w : Nat) (a b d : W32) : LaneOut :=
  let x := (List.range (32 / w)).foldl (fun acc i => acc + intVal code (elemOf a w i) * intVal code (elemOf b w i)) (0 : Int)
  let r := intToInt 8 sat (d.toInt + x)
  ([BitVec.ofNat 32 r.1], 0, r.2)

/-- R142 vdot4. -/
def execVdot4 (f : VFields) (s : State) : Host.Outcome State Fault Refusal :=
  coreOp s fun s =>
    vOp s f { spec2 (f.fmt == 8) false true f with fmt2 := f.fmt2 == 10 || f.fmt2 == 14 }
      (fun _ _ a b _ d => intDot f.sat f.fmt2.toNat 8 a b d)
/-- R142 vdot8. -/
def execVdot8 (f : VFields) (s : State) : Host.Outcome State Fault Refusal :=
  coreOp s fun s =>
    vOp s f { spec2 (f.fmt == 8) false true f with fmt2 := f.fmt2 == 11 || f.fmt2 == 15 }
      (fun _ _ a b _ d => intDot f.sat f.fmt2.toNat 4 a b d)

/-! ### Integers (R143, R144) -/

/-- The FMT set of R143. -/
def fmtI (f : VFields) : Bool := isInteger f.fmt.toNat && fmtWidth f.fmt.toNat != 4

/-- An integer op per element, on exact integers. -/
def intOp (s : State) (f : VFields) (sp : VSpec) (op : Nat → Int → Int → Int → Nat × Bool) : Core :=
  vOp s f sp (fun _ _ a b c _ =>
    let t := f.fmt.toNat
    let w := fmtWidth t
    let g := fun x i => intVal t (elemOf x w i)
    perElem w fun i => let r := op t (g a i) (g b i) (g c i); (r.1, 0, r.2))

/-- A result modulo 2^w. -/
def wrapTo (t : Nat) (x : Int) : Nat × Bool := (wrapInt (fmtWidth t) x, false)

/-- R143 viadd. -/
def execViadd (f : VFields) (s : State) : Host.Outcome State Fault Refusal :=
  coreOp s fun s => intOp s f (spec2 (fmtI f) false false f) (fun t a b _ => wrapTo t (a + b))
/-- R143 visub. -/
def execVisub (f : VFields) (s : State) : Host.Outcome State Fault Refusal :=
  coreOp s fun s => intOp s f (spec2 (fmtI f) false false f) (fun t a b _ => wrapTo t (a - b))
/-- R143 vimul. -/
def execVimul (f : VFields) (s : State) : Host.Outcome State Fault Refusal :=
  coreOp s fun s => intOp s f (spec2 (fmtI f) false true f) (fun t a b _ => intToInt t f.sat (a * b))
/-- R143 vimulh. -/
def execVimulh (f : VFields) (s : State) : Host.Outcome State Fault Refusal :=
  coreOp s fun s => intOp s f (spec2 (fmtI f) false false f)
    (fun t a b _ => wrapTo t (a * b / ((2 ^ fmtWidth t : Nat) : Int)))
/-- R143 vimad. -/
def execVimad (f : VFields) (s : State) : Host.Outcome State Fault Refusal :=
  coreOp s fun s => intOp s f (spec3 (fmtI f) false true f) (fun t a b c => intToInt t f.sat (a * b + c))
/-- R143 vabsd. -/
def execVabsd (f : VFields) (s : State) : Host.Outcome State Fault Refusal :=
  coreOp s fun s => intOp s f (spec2 (fmtI f) false false f) (fun t a b _ => wrapTo t ((a - b).natAbs : Int))
/-- R143 vimin. -/
def execVimin (f : VFields) (s : State) : Host.Outcome State Fault Refusal :=
  coreOp s fun s => intOp s f (spec2 (fmtI f) false false f) (fun t a b _ => wrapTo t (if a ≤ b then a else b))
/-- R143 vimax. -/
def execVimax (f : VFields) (s : State) : Host.Outcome State Fault Refusal :=
  coreOp s fun s => intOp s f (spec2 (fmtI f) false false f) (fun t a b _ => wrapTo t (if a ≤ b then b else a))
/-- R143 vsadd. -/
def execVsadd (f : VFields) (s : State) : Host.Outcome State Fault Refusal :=
  coreOp s fun s => intOp s f (spec2 (fmtI f) false false f) (fun t a b _ => intToInt t true (a + b))
/-- R143 vssub. -/
def execVssub (f : VFields) (s : State) : Host.Outcome State Fault Refusal :=
  coreOp s fun s => intOp s f (spec2 (fmtI f) false false f) (fun t a b _ => intToInt t true (a - b))

/-- The condition of vicmp (R144). -/
def icmpHolds (func : Nat) (a b : Int) : Bool :=
  match func with
  | 0 => a == b
  | 1 => a != b
  | 2 => a < b
  | 3 => a ≤ b
  | 4 => b < a
  | _ => b ≤ a

/-- R144 vicmp. -/
def execVicmp (f : VFields) (s : State) : Host.Outcome State Fault Refusal :=
  coreOp s fun s => slotOp s (vSlot f) f.hdr
    (fun v => vBad v f { spec2 (fmtI f) false false f with vd := .pred, func := decide (f.func.toNat ≤ 5) })
    (fun v act =>
      let t := f.fmt.toNat
      let w := fmtWidth t
      let a := v.vec f.va.toNat
      v.putVK f act fun n => allElems w fun i =>
        (icmpHolds f.func.toNat (intVal t (elemOf (a.lane n) w i)) (intVal t (elemOf (v.vb f n) w i)), 0))

/-! ### Shifts, logic, bits (R145 to R147) -/

/-- An op on raw elements of the FMT set of R143. -/
def rawOp (s : State) (f : VFields) (sp : VSpec) (op : Nat → Nat → Nat → Nat) : Core :=
  vOp s f sp (fun _ _ a b _ _ =>
    let w := fmtWidth f.fmt.toNat
    perElem w fun i => plainElem (op w (elemOf a w i) (elemOf b w i)))

/-- R145 vshl. -/
def execVshl (f : VFields) (s : State) : Host.Outcome State Fault Refusal :=
  coreOp s fun s => rawOp s f (spec2 (fmtI f) false false f) (fun w a b => a <<< (b % w))
/-- R145 vshr. -/
def execVshr (f : VFields) (s : State) : Host.Outcome State Fault Refusal :=
  coreOp s fun s => rawOp s f (spec2 (fmtI f) false false f) (fun w a b => a >>> (b % w))
/-- R145 vsar. -/
def execVsar (f : VFields) (s : State) : Host.Outcome State Fault Refusal :=
  coreOp s fun s => rawOp s f (spec2 (fmtI f) false false f)
    (fun w a b => wrapInt w (toSigned w a / ((2 ^ (b % w) : Nat) : Int)))

/-- R146 vand. -/
def execVand (f : VFields) (s : State) : Host.Outcome State Fault Refusal :=
  coreOp s fun s => vOp s f (spec2 (f.fmt == 0) false false f) (fun _ _ a b _ _ => ([a &&& b], 0, false))
/-- R146 vor. -/
def execVor (f : VFields) (s : State) : Host.Outcome State Fault Refusal :=
  coreOp s fun s => vOp s f (spec2 (f.fmt == 0) false false f) (fun _ _ a b _ _ => ([a ||| b], 0, false))
/-- R146 vxor. -/
def execVxor (f : VFields) (s : State) : Host.Outcome State Fault Refusal :=
  coreOp s fun s => vOp s f (spec2 (f.fmt == 0) false false f) (fun _ _ a b _ _ => ([a ^^^ b], 0, false))
/-- R146 vnot. -/
def execVnot (f : VFields) (s : State) : Host.Outcome State Fault Refusal :=
  coreOp s fun s => vOp s f (spec1 (f.fmt == 0) false false f) (fun _ _ a _ _ _ => ([~~~a], 0, false))

/-- R147 vpopc. -/
def execVpopc (f : VFields) (s : State) : Host.Outcome State Fault Refusal :=
  coreOp s fun s => rawOp s f (spec1 (fmtI f) false false f)
    (fun w a _ => (List.range w).foldl (fun n i => n + (if bitNat a i then 1 else 0)) 0)
/-- R147 vclz. -/
def execVclz (f : VFields) (s : State) : Host.Outcome State Fault Refusal :=
  coreOp s fun s => rawOp s f (spec1 (fmtI f) false false f) (fun w a _ => if a = 0 then w else w - 1 - a.log2)
/-- R147 vbrev. -/
def execVbrev (f : VFields) (s : State) : Host.Outcome State Fault Refusal :=
  coreOp s fun s => rawOp s f (spec1 (fmtI f) false false f)
    (fun w a _ => (List.range w).foldl (fun n i => n + (if bitNat a i then 2 ^ (w - 1 - i) else 0)) 0)

/-- R147 vbfx: position b[4:0], length b[12:8] + 1, ending at bit 31. -/
def execVbfx (f : VFields) (s : State) : Host.Outcome State Fault Refusal :=
  coreOp s fun s => vOp s f (spec2 (f.fmt == 8 || f.fmt == 12) false false f) (fun _ _ a b _ _ =>
    let p := bitsNat b.toNat 4 0
    let l := Nat.min (bitsNat b.toNat 12 8 + 1) (32 - p)
    let x := (a.toNat >>> p) % 2 ^ l
    ([if f.fmt = 8 then BitVec.ofInt 32 (toSigned l x) else BitVec.ofNat 32 x], 0, false))
/-- R147 vbfi: the field of a inserted into the old vd. -/
def execVbfi (f : VFields) (s : State) : Host.Outcome State Fault Refusal :=
  coreOp s fun s => vOp s f (spec2 (f.fmt == 8) false false f) (fun _ _ a b _ d =>
    let p := bitsNat b.toNat 4 0
    let m := BitVec.ofNat 32 ((2 ^ (bitsNat b.toNat 12 8 + 1) - 1) * 2 ^ p)
    ([(d &&& ~~~m) ||| ((a <<< p) &&& m)], 0, false))

/-! ### Moves and identities (R148) -/

/-- R148 vsel. -/
def execVsel (f : VFields) (s : State) : Host.Outcome State Fault Refusal :=
  coreOp s fun s => vOp s f { spec2 (f.fmt == 0) false false f with func := true } (fun v n a b _ _ =>
    ([if (v.g.pred f.func.toNat).has n then a else b], 0, false))
/-- R148 vmov. -/
def execVmov (f : VFields) (s : State) : Host.Outcome State Fault Refusal :=
  coreOp s fun s => vOp s f (spec1 (f.fmt == 0) false false f) (fun _ _ a _ _ _ => ([a], 0, false))
/-- R148 vmovi: the literal's low w bits, repeated. -/
def execVmovi (f : VFields) (s : State) : Host.Outcome State Fault Refusal :=
  coreOp s fun s =>
    vOp s f { spec2 (f.fmt == 0 || f.fmt == 9 || f.fmt == 10 || f.fmt == 11) false false f with
              va := .unused, vb := .literal }
      (fun v n _ _ _ _ =>
        let w := fmtWidth f.fmt.toNat
        ([laneOf w fun _ => (v.vb f n).toNat % 2 ^ w], 0, false))
/-- R148 vs2v: a 64-bit scalar as lane pairs. -/
def execVs2v (f : VFields) (s : State) : Host.Outcome State Fault Refusal :=
  coreOp s fun s => vOp s f { spec1 (f.fmt == 0) false false f with va := .code } (fun v n _ _ _ _ =>
    let x := v.scalar f.va.toNat
    ([if n % 2 = 0 then x.extractLsb' 0 32 else x.extractLsb' 32 32], 0, false))
/-- R148 vext: element FUNC of the lane, extended. -/
def execVext (f : VFields) (s : State) : Host.Outcome State Fault Refusal :=
  coreOp s fun s =>
    let t := f.fmt.toNat
    let w := fmtWidth t
    vOp s f { spec1 (isInteger t && w != 32) false false f with func := decide (f.func.toNat < 32 / w) }
      (fun _ _ a _ _ _ => ([BitVec.ofInt 32 (intVal t (elemOf a w f.func.toNat))], 0, false))
/-- R148 vlane: the element index. -/
def execVlane (f : VFields) (s : State) : Host.Outcome State Fault Refusal :=
  coreOp s fun s => vOp s f { spec1 (f.fmt == 8 || f.fmt == 9) false false f with va := .unused }
    (fun _ n _ _ _ _ =>
      let w := fmtWidth f.fmt.toNat
      ([laneOf w fun i => n * (32 / w) + i], 0, false))
/-- The group index of R314. -/
def groupIndex (p : Part) (g : Group) : Nat :=
  (p.team * (if p.image.stove then 16 else 1) + p.p) * p.image.groups + g.num
/-- R148 vgid: the launch-wide identifier. -/
def execVgid (f : VFields) (s : State) : Host.Outcome State Fault Refusal :=
  coreOp s fun s => vOp s f { spec1 (f.fmt == 8) false false f with va := .unused }
    (fun v n _ _ _ _ => ([BitVec.ofNat 32 (groupIndex v.p v.g * 128 + n)], 0, false))

/-! ### Widening, narrowing, packing (R149 to R151) -/

/-- The destination and source pairs of R149. -/
def widePair (d c : Nat) : Bool :=
  match c with
  | 11 => d == 10 || d == 14 || d == 9 || d == 13 || d == 1 || d == 2
  | 15 => d == 10 || d == 14 || d == 9 || d == 13 || d == 1 || d == 2
  | 17 => d == 10 || d == 14 || d == 9 || d == 13 || d == 1 || d == 2
  | 10 => d == 9 || d == 13 || d == 1 || d == 2 || d == 8 || d == 12 || d == 0
  | 14 => d == 9 || d == 13 || d == 1 || d == 2 || d == 8 || d == 12 || d == 0
  | 16 => d == 9 || d == 13 || d == 1 || d == 2 || d == 8 || d == 12 || d == 0
  | 9 => d == 8 || d == 12 || d == 0
  | 13 => d == 8 || d == 12 || d == 0
  | 3 => d == 1 || d == 2 || d == 0
  | 4 => d == 1 || d == 2 || d == 0
  | 1 => d == 0
  | 2 => d == 0
  | _ => false

/-- A quantized code is read as an unsigned integer when it is widened (R149). -/
def rawCode (c : Nat) : Nat := if c = 16 then 14 else if c = 17 then 15 else c

/-- One element widened exactly (R149). -/
def widenElem (v : View) (d c x : Nat) : ElemOut := convertElem d (rawCode c) 0 v.ftz false x

/-- The width ratio of two formats. -/
def ratio (wide narrow : Nat) : Nat := if fmtWidth narrow = 0 then 1 else Nat.max 1 (fmtWidth wide / fmtWidth narrow)

/-- R149 vwid: element j to register j mod k, position j div k (R36). -/
def execVwid (f : VFields) (s : State) : Host.Outcome State Fault Refusal :=
  coreOp s fun s =>
    let d := f.fmt.toNat
    let c := f.fmt2.toNat
    let k := ratio d c
    slotOp s (vSlot f) f.hdr
      (fun v => vBad v f { spec1 (fmtWidth d != 0 && d < 16) false false f with vd := .vec k, fmt2 := widePair d c })
      (fun v act =>
        let a := v.vec f.va.toNat
        let wd := fmtWidth d
        let wc := fmtWidth c
        v.putV f act k fun n =>
          let rs := (List.range k).map fun j =>
            perElem wd fun i => widenElem v d c (elemOf (a.lane n) wc (i * k + j))
          (rs.map fun r => r.1.getD 0 0, rs.foldl (fun m r => m ||| r.2.1) 0, false))

/-- A source and narrower destination of R150. -/
def narrowPair (d c k : Nat) : Bool :=
  cvtFmt d && cvtFmt c && fmtWidth c == k * fmtWidth d

/-- R150 vnar: element j from register j mod k, position j div k (R36). -/
def execVnar (f : VFields) (s : State) : Host.Outcome State Fault Refusal :=
  coreOp s fun s =>
    let d := f.fmt.toNat
    let c := f.fmt2.toNat
    let k := ratio c d
    slotOp s (vSlot f) f.hdr
      (fun v => vBad v f { spec1 (cvtFmt d) true true f with
        va := .vec k, fmt2 := narrowPair d c k && (k == 2 || k == 4) })
      (fun v act =>
        let rs := (List.range k).map fun j => v.vec (f.va.toNat + j)
        v.putV f act 1 fun n => perElem (fmtWidth d) fun i =>
          convertElem d c (v.rmode f.rm) v.ftz f.sat (elemOf ((rs.getD (i % k) []).lane n) (fmtWidth c) (i / k)))

/-- R151 vpack: vnar at ratio 2 with two freely named sources. -/
def execVpack (f : VFields) (s : State) : Host.Outcome State Fault Refusal :=
  coreOp s fun s =>
    let d := f.fmt.toNat
    let c := f.fmt2.toNat
    vOp s f { spec2 (cvtFmt d) true true f with fmt2 := narrowPair d c 2 } (fun v _ a b _ _ =>
      perElem (fmtWidth d) fun i =>
        convertElem d c (v.rmode f.rm) v.ftz f.sat (elemOf (if i % 2 = 0 then a else b) (fmtWidth c) (i / 2)))

/-- R151 vunpk: element 2j + h widened. -/
def execVunpk (f : VFields) (s : State) : Host.Outcome State Fault Refusal :=
  coreOp s fun s =>
    let d := f.fmt.toNat
    let c := f.fmt2.toNat
    vOp s f { spec1 (fmtWidth d != 0 && d < 16) false false f with
              fmt2 := widePair d c && ratio d c == 2, func := decide (f.func.toNat ≤ 1) }
      (fun v _ a _ _ _ =>
        perElem (fmtWidth d) fun i => widenElem v d c (elemOf a (fmtWidth c) (2 * i + f.func.toNat)))

/-! ### Quantizing (R152, R55, R56) -/

/-- The lowest bit of a field of a scale entry that R55 does not allow. -/
def scaleBad (q4 : Bool) (e : Nat) : Option Nat :=
  if e % 256 ≠ 0 then some 0 else if q4 && bitsNat e 15 12 ≠ 0 then some 12 else none

/-- A quotient rounded to an integer under a mode: result, inexact (R56). -/
def roundQuot (rm : RMode) (neg : Bool) (num den : Nat) : Int × Bool :=
  let n := num / den
  let r := num % den
  let up := match rm with
    | 0 => decide (den < 2 * r) || (2 * r == den && n % 2 == 1)
    | 1 => false
    | 2 => neg && r != 0
    | _ => !neg && r != 0
  let m := if up then n + 1 else n
  (if neg then -(m : Int) else m, r != 0)

/-- Quantize with a scale and zero point to a w-bit code (R56): code, flags, clamped. -/
def quantize (w : Nat) (rm : RMode) (x sc : FVal) (zp : Nat) : ElemOut :=
  let top : Int := ((2 ^ w : Nat) : Int) - 1
  match sc with
  | .nan _ => (zp, flagIV, false)
  | .inf _ => (zp, flagIV, false)
  | .fin sn sm se =>
    if sm = 0 then (zp, flagIV, false)
    else match x with
      | .nan _ => (zp, flagIV, false)
      | .inf n => if n == sn then (2 ^ w - 1, 0, true) else (0, 0, true)
      | .fin n m e =>
        let d := e - se
        let r := roundQuot rm (n != sn) (m * 2 ^ d.toNat) (sm * 2 ^ (-d).toNat)
        let u := r.1 + zp
        let q := clampInt 0 top u
        if q ≠ u then (q.toNat, 0, true) else (q.toNat, if r.2 then flagNX else 0, false)

/-- Dequantize a code to a format (R56). -/
def dequantize (F : FloatFmt) (rm : RMode) (ftz : Bool) (sc : FVal) (q zp : Nat) : Nat × FlagSet :=
  match sc with
  | .nan sig => (canonNaN F, if sig then flagIV else 0)
  | .inf n => if q = zp then (canonNaN F, flagIV) else (infEnc F (n != decide (q < zp)), 0)
  | .fin n m e =>
    let d : Int := (q : Int) - zp
    deliver F rm ftz false (.fin (n != decide (d < 0)) (m * d.natAbs) e)

/-- The scale entries of the active lanes are checked before a quantizing op acts (R152). -/
def withScales (v : View) (f : VFields) (act : LaneMask) (q4 : Bool) (k : OpResult) : OpResult :=
  match act.toList.findSome? fun n => scaleBad q4 (v.vb f n).toNat with
  | some bit => .trap (v.reserved 11 act bit) 0
  | none => k

/-- R152 vqz. -/
def execVqz (f : VFields) (s : State) : Host.Outcome State Fault Refusal :=
  coreOp s fun s => slotOp s (vSlot f) f.hdr
    (fun v => vBad v f { spec2 (f.fmt == 16 || f.fmt == 17) true false f with fmt2 := f.fmt2 == 0 })
    (fun v act => withScales v f act (f.fmt == 17) (
      let a := v.vec f.va.toNat
      v.putV f act 1 fun n =>
        let e := (v.vb f n).toNat
        let r := quantize (fmtWidth f.fmt.toNat) (v.rmode f.rm) (v.fval f32 (a.lane n).toNat)
          (v.fval f16 (bitsNat e 31 16)) (bitsNat e 15 8)
        ([BitVec.ofNat 32 r.1], r.2.1, r.2.2)))

/-- R152 vdq. -/
def execVdq (f : VFields) (s : State) : Host.Outcome State Fault Refusal :=
  coreOp s fun s => slotOp s (vSlot f) f.hdr
    (fun v => vBad v f { spec2 (fmtF f) true false f with fmt2 := f.fmt2 == 16 || f.fmt2 == 17 })
    (fun v act => withScales v f act (f.fmt2 == 17) (
      let a := v.vec f.va.toNat
      v.putV f act 1 fun n =>
        let e := (v.vb f n).toNat
        let r := dequantize (fmtOf f) (v.rmode f.rm) v.ftz (v.fval f16 (bitsNat e 31 16))
          ((a.lane n).toNat % 2 ^ fmtWidth f.fmt2.toNat) (bitsNat e 15 8)
        ([BitVec.ofNat 32 r.1], r.2, false)))

end Sys2Proof.Machine
end

