-- ==== Sys2Proof/Machine/Uses.lean ====
section
/-! DEFINITION. What each slot op reads, writes and drives (R19, R22, R24, R31), its price class (R84), and the
structural hazard filter over a control word (R79, R81). -/

namespace Sys2Proof.Machine

/-! ### Uses of one op -/

/-- Registers, ports and buses of a slot op. -/
structure Uses where
  /-- Vector operands read: first register and count, with the ports they take. -/
  vread : List (Nat × Nat) := []
  /-- Scalar and address registers read, by R87 code. -/
  sread : List Nat := []
  /-- Predicates read as operands. -/
  kread : List Nat := []
  /-- Vector destinations, of fixed latency. -/
  vwrite : List (Nat × Nat) := []
  /-- Scalar and address destinations, of fixed latency. -/
  swrite : List Nat := []
  kwrite : List Nat := []
  /-- Destinations of variable latency. -/
  vlate : List (Nat × Nat) := []
  slate : List Nat := []
  tiles : List Nat := []
  /-- Ports of matrix operands, each block one (R214). -/
  blocks : Nat := 0
  /-- Write-back bus of a fixed-latency vector result, and its cycles after issue. -/
  bus : Option (Nat × Nat) := none
  xfer : Bool := false
  deriving DecidableEq, Repr

/-- Join two sets of uses. -/
def Uses.and (a b : Uses) : Uses :=
  { vread := a.vread ++ b.vread, sread := a.sread ++ b.sread, kread := a.kread ++ b.kread,
    vwrite := a.vwrite ++ b.vwrite, swrite := a.swrite ++ b.swrite, kwrite := a.kwrite ++ b.kwrite,
    vlate := a.vlate ++ b.vlate, slate := a.slate ++ b.slate, tiles := a.tiles ++ b.tiles,
    blocks := a.blocks + b.blocks, bus := if a.bus.isSome then a.bus else b.bus, xfer := a.xfer || b.xfer }

/-- Vector read ports (R19). -/
def Uses.vports (u : Uses) : Nat := (u.vread.map fun r => r.2).sum + u.blocks
/-- The op sets pending bits (R24). -/
def Uses.varlat (u : Uses) : Bool := !u.vlate.isEmpty || !u.slate.isEmpty

/-- An s or a source; a code of another class is reserved and counts nothing (R79). -/
def useS (code : Nat) : Uses := { sread := if isSA code then [code] else [] }
/-- A predicate source. -/
def useK (code : Nat) : Uses := { kread := if isK code then [code - 0x30] else [] }
/-- A vector source. -/
def useV (n k : Nat) : Uses := { vread := [(n, k)] }
/-- A fixed-latency s or a destination. -/
def setS (code : Nat) : Uses := { swrite := if isSA code then [code] else [] }
/-- A predicate destination; k0 is not counted (R17, R79). -/
def setK (code : Nat) : Uses := { kwrite := if isK code && code != 0x30 then [code - 0x30] else [] }
/-- Several uses together. -/
def useAll (l : List Uses) : Uses := l.foldl Uses.and {}

/-! ### Family by family -/

/-- SB where BSEL names a register. -/
def useSB (f : SFields) : Uses := if f.bsel = 0 then useS f.sb.toNat else {}
/-- Two sources and a scalar destination (R125). -/
def useS2 (f : SFields) : Uses := useAll [useS f.sa.toNat, useSB f, setS f.sd.toNat]
/-- One source and a scalar destination (R129). -/
def useS1 (f : SFields) : Uses := useAll [useS f.sa.toNat, setS f.sd.toNat]
/-- Special-register writes (R132). -/
def useCsr (f : SFields) : Uses := if f.bsel = 0 then useS f.sa.toNat else {}
/-- Predicate logic (R134). -/
def useK2 (f : SFields) : Uses := useAll [useK f.sa.toNat, useK f.sb.toNat, setK f.sd.toNat]

/-- The bus of a V op: WB0 for V0, WB1 for V1 (R22). -/
def busV (f : VFields) : Uses := { bus := some (if f.unit1 then 1 else 0, 3) }
/-- The second source of a V op (R136). -/
def useVB (f : VFields) : Uses :=
  if f.bsel = 0 then useV f.vb.toNat 1 else if f.bsel = 2 && f.vb.toNat < 32 then useS f.vb.toNat else {}
/-- A vector result of a V op. -/
def setV (f : VFields) (k : Nat) : Uses := (busV f).and { vwrite := [(f.vd.toNat, k)] }
/-- a, and a result. -/
def useV1 (f : VFields) : Uses := (useV f.va.toNat 1).and (setV f 1)
/-- a, b, and a result. -/
def useV2 (f : VFields) : Uses := (useVB f).and (useV1 f)
/-- a, b, c, and a result. -/
def useV3 (f : VFields) : Uses := (useV f.vc.toNat 1).and (useV2 f)
/-- a, b, the old destination, and a result. -/
def useVd (f : VFields) : Uses := (useV f.vd.toNat 1).and (useV2 f)
/-- a, b, and a predicate result, which uses no bus (R135). -/
def useVc (f : VFields) : Uses :=
  useAll [useV f.va.toNat 1, useVB f, { kwrite := if f.vd.toNat < 16 && f.vd != 0 then [f.vd.toNat] else [] }]

/-- A special function (R153). -/
def useF (f : FFields) : Uses := { vread := [(f.va.toNat, 1)], vwrite := [(f.vd.toNat, 1)], bus := some (1, 11) }
/-- A static crossbar op (R155). -/
def useXs (f : XsFields) : Uses := { vread := [(f.va.toNat, 1)], vwrite := [(f.vd.toNat, 1)], bus := some (2, 2) }
/-- Another crossbar op. -/
def useX1 (f : XFields) : Uses := { vread := [(f.va.toNat, 1)], vwrite := [(f.vd.toNat, 1)], bus := some (2, 2) }
/-- A crossbar op with a register of lane numbers. -/
def useX2 (f : XFields) : Uses := (useV f.aux.toNat 1).and (useX1 f)

/-- Registers that DATA spans at a width; 0 for a reserved width (R163). -/
def spanOf (width : Nat) : Nat := match width with | 0 => 1 | 1 => 1 | 2 => 1 | 3 => 2 | 4 => 4 | _ => 0
/-- Address operands of an M op (R162, R164). -/
def useAddr (f : MFields) : Uses :=
  (useS f.base.toNat).and (if f.idxen then (if f.vidx then useV f.index.toNat 1 else useS f.index.toNat) else {})
/-- The bus of a scratchpad load or atomic; none with a reserved width (R79). -/
def busM (f : MFields) (lat : Nat) : Option (Nat × Nat) := if spanOf f.width.toNat = 0 then none else some (2, lat)
/-- DATA as a vector operand, over `k` times the span. -/
def dataV (f : MFields) (k : Nat) : List (Nat × Nat) :=
  if spanOf f.width.toNat = 0 then [] else [(f.data.toNat, k * spanOf f.width.toNat)]
/-- DATA as a scalar. -/
def dataS (f : MFields) : List Nat := if isSA f.data.toNat && spanOf f.width.toNat != 0 then [f.data.toNat] else []
/-- A load to vector registers. -/
def useLd (f : MFields) : Uses := (useAddr f).and { vlate := dataV f 1 }
/-- A store from vector registers. -/
def useSt (f : MFields) : Uses := (useAddr f).and { vread := dataV f 1 }
/-- A returning atomic; `.nr` writes nothing (R175). -/
def useAtom (f : MFields) : Uses := (useSt f).and { vlate := if f.sx then [] else dataV f 1 }

/-- Operand `i` of an A op, unless the literal stands for it (R188). -/
def useA (f : AFields) (route : Bool) (roles : List Bool) : Uses :=
  let codes := [f.opc0.toNat, f.opc1.toNat, f.opc2.toNat]
  let idx := (List.range 3).filter fun i => roles.getD i false
  useAll ((if route then idx.dropLast else idx).map fun i => useS (codes.getD i 0x3F))

/-- A scratchpad descriptor: two scalars from an even code (R215). -/
def useDesc (code : Nat) : Uses :=
  if isSA code && code % 2 == 0 then { sread := [code, code + 1] } else {}
/-- One operand of a multiply (R214, R215). -/
def useMatOp (desc : Bool) (code : Nat) : Uses := if desc then useDesc code else { blocks := 1 }
/-- A multiply (R216). -/
def useMma (f : TFields) (sp : Bool) : Uses :=
  useAll [useMatOp (f.asrc || sp) f.opa.toNat, useMatOp (f.bsrc || sp) f.opb.toNat,
    { tiles := [f.acc.toNat], swrite := if f.incen then [0x20 + f.incr.toNat] else [] }]

/-- What an op uses; `route` says that a literal reaches its slot. An unlisted opcode uses nothing (R91). -/
def opUses (route : Bool) (i : Instr) : Uses :=
  match i with
  | .brc f => (useS f.sa.toNat).and { kread := (useK f.sa.toNat).kread, xfer := true }
  | .br _ => { xfer := true }
  | .bri f => (if f.tsel = 1 then useS f.sa.toNat else {}).and { xfer := true }
  | .brd f => (useK f.sa.toNat).and { xfer := true }
  | .brx f => (useV f.sa.toNat 1).and { xfer := true }
  | .call _ => { xfer := true, swrite := [15] }
  | .callScalar f => (useS f.sa.toNat).and { xfer := true, swrite := [15] }
  | .ret _ => { xfer := true, sread := [15] }
  | .join _ | .brk _ | .swp _ => { xfer := true }
  | .brkScalar f => (useS f.sa.toNat).and { xfer := true }
  | .seq f | .spawn f => useS f.sa.toNat
  | .seqx f | .wmon f => (useS f.sa.toNat).and (useS f.sb.toNat)
  | .add f | .sub f | .mul f | .mulh f | .and f | .or f | .xor f | .shl f | .shr f | .sar f | .rot f | .min f
  | .max f | .minn f | .maxn f | .lea f => useS2 f
  | .cmp f => (useS2 f).and (setK f.sd.toNat)
  | .sel f => useAll [useS2 f, useS (f.aux.toNat % 64), useK (f.aux.toNat % 64)]
  | .mov f | .clz f | .ctz f | .popc f | .brev f | .bfx f | .sext f | .zext f => useS1 f
  | .bfi f => (useS f.sd.toNat).and (useS1 f)
  | .li f | .csrRd f => setS f.sd.toNat
  | .csrWr f | .csrSet f | .csrClr f => useCsr f
  | .kset f => (if f.bsel = 0 then (useS f.sa.toNat).and (useS f.sb.toNat) else {}).and (setK f.sd.toNat)
  | .kand f | .kor f | .kxor f => useK2 f
  | .knot f => (useK f.sa.toNat).and (setK f.sd.toNat)
  | .kpop f | .kfirst f => (useK f.sa.toNat).and (setS f.sd.toNat)
  | .vadd f | .vsub f | .vmul f | .vmin f | .vmax f | .vcpys f | .vldexp f | .viadd f | .visub f | .vimul f
  | .vimulh f | .vabsd f | .vimin f | .vimax f | .vsadd f | .vssub f | .vshl f | .vshr f | .vsar f | .vand f
  | .vor f | .vxor f | .vbfx f | .vpack f | .vqz f | .vdq f => useV2 f
  | .vsel f => (useV2 f).and { kread := [f.func.toNat] }
  | .vfma f | .vfms f | .vfnma f | .vimad f => useV3 f
  | .vabs f | .vneg f | .vclass f | .vcvt f | .vrnd f | .vnot f | .vpopc f | .vclz f | .vbrev f | .vmov f
  | .vext f | .vunpk f => useV1 f
  | .vcmp f | .vicmp f => useVc f
  | .vdot2 f | .vdot4 f | .vdot8 f | .vbfi f => useVd f
  | .vmovi f | .vlane f | .vgid f => setV f 1
  | .vs2v f => (useS f.va.toNat).and (setV f 1)
  | .vwid f => (useV f.va.toNat 1).and (setV f (ratio f.fmt.toNat f.fmt2.toNat))
  | .vnar f => (useV f.va.toNat (ratio f.fmt2.toNat f.fmt.toNat)).and (setV f 1)
  | .frcp f | .frsq f | .fsqrt f | .fexp2 f | .flog2 f | .fsin f | .fcos f | .ftanh f | .fsig f | .ferf f => useF f
  | .xperm f | .xpush f => useXs f
  | .xpushd f | .xpushdHi f | .xpull f => useX2 f
  | .xrot f | .xbc f | .xup f | .xdn f | .xbfly f | .xtr f | .xred f | .xscan f => useX1 f
  | .xbal f => (useV f.va.toNat 1).and { kwrite := if f.vd.toNat < 16 && f.vd != 0 then [f.vd.toNat] else [] }
  | .ldG f | .ldPv f | .ldMd f => useLd f
  | .stG f | .stSp f | .stPv f => useSt f
  | .ldSc f => (useAddr f).and { slate := dataS f }
  | .stSc f | .ldGs f => (useAddr f).and { sread := dataS f }
  | .ldSp f => (useAddr f).and { vwrite := dataV f 1, bus := busM f 7 }
  | .satom f => (useSt f).and { vwrite := dataV f 1, bus := busM f 7 }
  | .atom f | .atomFadd f => useAtom f
  | .atomCas f => useAll [useAddr f, { vread := dataV f 2 }, { vlate := dataV f 1 }]
  | .atomOfa f => useSt f
  | .atomOclose f => useLd f
  | .pf f => useAddr f
  | .bind f => useAll [useS f.base.toNat, useS f.index.toNat, useS f.data.toNat]
  | .unbind f => (useS f.base.toNat).and (useS f.index.toNat)
  | .acq f => useS f.base.toNat
  | .rel f => useAddr f
  | .fence f => if f.idxen then useS f.index.toNat else {}
  | .cpGs f | .cpSg f | .cpGg f | .cpMs f | .gth f | .sct f | .collBc f | .collRed f | .collAg f | .collA2a f =>
    useA f route [true, true, true]
  | .tnWr f | .tnLd f | .sqDrp f | .qAdvp f | .qAdvc f => useA f route [true, false, false]
  | .tnRd f => setS f.opc0.toNat
  | .sqLd f | .qInit f => useA f route [true, true, false]
  | .qWt f => (useA f route [true, false, false]).and
      { slate := if isSA f.opc1.toNat then [f.opc1.toNat] else [] }
  | .tagTst f => (setS f.opc0.toNat).and (useA f route [false, true, false])
  | .mma f | .mmaQ f | .mmaSt f => useMma f false
  | .mmaSp f => useMma f true
  | .accZ f | .accAdd f => { tiles := [f.acc.toNat] }
  | .accLd f => (useDesc f.opa.toNat).and { tiles := [f.acc.toNat] }
  | .accSt f | .accCvt f => useDesc f.opa.toNat
  | .accMv f => (useS f.opa.toNat).and { vlate := [(f.opb.toNat, f.rep.toNat + 1)] }
  | _ => {}

/-! ### Price classes (R84) -/

/-- The class of a matrix multiply by RATE, from a base class; none at RATE 11. -/
def rateClass (base : Nat) (f : TFields) : Option Nat := if f.rate = 3 then none else some (base + f.rate.toNat)

/-- The price class of an op; none for an unlisted opcode and for RATE 11 (R84, R91). -/
def priceClass (sl : Slot) (i : Instr) : Option Nat :=
  match i with
  | .vdot2 _ | .vdot4 _ | .vdot8 _ => some 2
  | .ldSp _ | .stSp _ | .satom _ => some 5
  | .bind _ | .unbind _ | .fence _ => some 0
  | .tnLd _ | .sqLd _ => some 6
  | .tnWr _ | .tnRd _ | .sqDrp _ | .qInit _ | .qAdvp _ | .qAdvc _ | .qWt _ | .tagTst _ => some 0
  | .mma f | .mmaQ f | .mmaSt f => rateClass 8 f
  | .mmaSp f => rateClass 11 f
  | .accZ f | .accLd f | .accSt f | .accCvt f | .accMv f | .accAdd f => if f.rate = 3 then none else some 14
  | .kat f => if f.rate = 3 then none else some 15
  | .reservedOpcode _ _ => none
  | _ => match sl with
    | .s => some 0 | .c => some 0 | .v0 => some 1 | .v1 => some 1 | .f => some 3 | .x => some 4 | .m => some 6
    | .a => some 7 | .t => none

/-- The price of an op under a price table. -/
def opPrice (prices : List Nat) (sl : Slot) (i : Instr) : Nat :=
  match priceClass sl i with
  | some c => prices.getD c 0
  | none => 0

/-! ### The filter (R79, R81) -/

/-- A slot's route code in a control word's shared field is not 0. -/
def routeOf (w : BitVec 512) (sl : Slot) : Bool := (w.toNat >>> routePlace sl) % 8 != 0

/-- The ops of a control word with what each uses. -/
def usesOf (w : BitVec 512) : List (Slot × Instr × Uses) :=
  (decodeBundle w).map fun e => (e.1, e.2, opUses (routeOf w e.1) e.2)

/-- A vector result's slot is granted its bus; a select of 11 is not tested (R22, R79). -/
def granted (w : BitVec 512) (sl : Slot) : Bool :=
  let wb1 := bitsNat w.toNat 35 34
  let wb2 := bitsNat w.toNat 37 36
  match sl with
  | .v0 => w.getLsbD 33
  | .v1 => wb1 == 1 || wb1 == 3
  | .f => wb1 == 2 || wb1 == 3
  | .m => wb2 == 1 || wb2 == 3
  | .x => wb2 == 2 || wb2 == 3
  | _ => true

/-- The buses that a bundle drives and whose select is not 11. -/
def busesOf (w : BitVec 512) (us : List (Slot × Instr × Uses)) : List Nat :=
  us.filterMap fun e => match e.2.2.bus with
    | some (b, _) => if (b == 1 && bitsNat w.toNat 35 34 == 3) || (b == 2 && bitsNat w.toNat 37 36 == 3) then none else some b
    | none => none

/-- The registers an op writes; every register of a wide destination, and its tiles (R21, R79). -/
def Uses.written (u : Uses) : List (Nat × Nat) :=
  (u.vwrite ++ u.vlate).flatMap (fun r => (List.range r.2).map fun i => (0, r.1 + i)) ++
  (u.swrite ++ u.slate).map (fun c => (1, c)) ++ u.kwrite.map (fun n => (2, n)) ++ u.tiles.map fun n => (3, n)

/-- Some entry of one list stands in another. -/
def meets {α : Type} [BEq α] (a b : List α) : Bool := a.any fun x => b.contains x

/-- Two of the lists share an entry. -/
def overlapAny {α : Type} [BEq α] : List (List α) → Bool
  | [] => false
  | a :: r => r.any (meets a) || overlapAny r

/-- Rotation codes and the widths they allow (R88). -/
def rotAllows (rot width : Nat) : Bool :=
  rot == 7 || decide (4 < width) || rot == 0 || (decide (rot ≤ 3) && decide (2 ≤ width)) ||
  (decide (rot ≤ 5) && decide (3 ≤ width)) || width == 4

/-- A static push names one destination twice (R79). -/
def pushBad (pats : List (List Nat)) (i : Instr) : Bool :=
  match i with
  | .xpush f => match pats[f.pat.toNat]? with | some p => !(decide p.Nodup) | none => false
  | _ => false

/-- A scratchpad access has a rotation its width does not allow (R79). -/
def rotBad (i : Instr) : Bool :=
  match i with
  | .ldSp f | .stSp f | .satom f => !(rotAllows f.rot.toNat f.width.toNat)
  | _ => false

/-- The first failing check of the filter, 0 when none fails (R79). -/
def filterReason (prices : List Nat) (pats : List (List Nat)) (w : BitVec 512)
    (us : List (Slot × Instr × Uses)) : Nat :=
  if !((busesOf w us).Nodup : Bool) || us.any (fun e => e.2.2.bus.isSome && !(granted w e.1)) ||
      decide (2 < (us.map fun e => e.2.2.swrite.length).sum) then 1
  else if overlapAny (us.map fun e => e.2.2.written) then 2
  else if decide (6 < (us.map fun e => e.2.2.vports).sum) || decide (4 < (us.map fun e => e.2.2.sread.length).sum) then 3
  else if us.any (fun e => pushBad pats e.2.1) then 4
  else if us.any (fun e => rotBad e.2.1) then 5
  else if 63 < (us.map fun e => opPrice prices e.1 e.2.1).sum then 6
  else 0

/-- The non-lane units a bundle uses, as RV bits [15:10] (R31). -/
def unitBit : Slot → Nat
  | .t => 15 | .m => 14 | .a => 13 | .s => 12 | .c => 11 | .x => 10 | _ => 16

/-- The bit of a shared scalar or address register in WSET (R81). -/
def wsetBit (code : Nat) : Option Nat :=
  if code < 16 then none else some (code - 16)

/-- An op is listed: an unlisted opcode adds nothing (R91). -/
def opListed : Instr → Bool
  | .reservedOpcode _ _ => false
  | _ => true

/-- The metadata the filter gives an entry (R79, R81); a refused entry has nothing but its reason (R379). -/
def filterEntry (prices : List Nat) (pats : List (List Nat)) (fver : BitVec 16) (idx : Nat) (w : BitVec 512) : Meta :=
  let us := usesOf w
  let reason := filterReason prices pats w us
  let bits := fun (l : List Nat) => l.foldl (fun x b => x ||| 2 ^ b) 0
  if reason ≠ 0 then
    { wset := 0, fver := fver, price := 0, rvec := 0, reason := reason, xfer := false, varlat := false, index := idx }
  else
    { wset := BitVec.ofNat 32 (bits ((us.flatMap fun e => e.2.2.swrite ++ e.2.2.slate).filterMap wsetBit)), fver := fver,
      price := (us.map fun e => opPrice prices e.1 e.2.1).sum,
      rvec := BitVec.ofNat 16 (bits ((us.filter fun e => opListed e.2.1).map fun e => unitBit e.1) % 65536 +
        (us.map fun e => e.2.2.swrite.length).sum * 256 + (us.map fun e => e.2.2.sread.length).sum * 32),
      reason := 0, xfer := us.any fun e => e.2.2.xfer, varlat := us.any fun e => e.2.2.varlat, index := idx }

/-- A metadata record's 16 bytes (R81). -/
def Meta.bytes (m : Meta) : List Byte :=
  natLe 16 (m.wset.toNat * 2 ^ 64 + m.fver.toNat * 2 ^ 48 + m.price * 2 ^ 42 + m.rvec.toNat * 2 ^ 26 +
    m.reason * 2 ^ 23 + (if 0 < m.price then 2 ^ 22 else 0) + (if m.xfer then 2 ^ 21 else 0) +
    (if m.varlat then 2 ^ 20 else 0) + m.index)

/-- The metadata a record of 16 bytes holds. -/
def metaOf (bs : List Byte) : Meta :=
  let x := leNat bs
  { wset := BitVec.ofNat 32 (bitsNat x 95 64), fver := BitVec.ofNat 16 (bitsNat x 63 48), price := bitsNat x 47 42,
    rvec := BitVec.ofNat 16 (bitsNat x 41 26), reason := bitsNat x 25 23, xfer := bitNat x 21,
    varlat := bitNat x 20, index := bitsNat x 18 0 }

end Sys2Proof.Machine
end

