-- ==== Sys2Proof/Machine/Control.lean ====
section
/-! DEFINITION. The C slot: transfers, regions, the sequencer, switch points, barriers and waits (R93 to R123). -/

namespace Sys2Proof.Machine

/-! ### The shape every C op shares (R93, R94, R96) -/

/-- Fields an op does not name must be 0; TSEL as the form gives it (R96). -/
def cChecks (f : CFields) (tsel : BitVec 2) (aux func sb sa : Bool) : List (Bool × Nat) :=
  [sqBad f.hdr, (!sa && f.sa != 0, 14), (!sb && f.sb != 0, 20), (!func && f.func != 0, 26), (f.tsel != tsel, 30),
   (!aux && f.aux != 0, 32)]
/-- The op needs a 32-bit literal (R94). -/
def needLit (v : View) : Bool × Nat := (!v.route32 .c, routeBit .c)
/-- The op needs a 64-bit literal (R94). -/
def needPair (v : View) : Bool × Nat := (!v.route64 .c, routeBit .c)
/-- SA must be of the s or a class. -/
def needSA (f : CFields) : Bool × Nat := (!isSA f.sa.toNat, 14)
/-- An op the team handler may not issue (R291). -/
def notHandler (v : View) : Bool × Nat := (v.x.split == 4, 0)

/-- The target: a literal or bits [31:0] of a scalar (R94). -/
def View.target (v : View) (f : CFields) : Nat :=
  if f.tsel = 1 then ((v.scalar f.sa.toNat).setWidth 32).toNat else ((v.literal .c).setWidth 32).toNat

/-- BAD_TARGET for the whole split (R94). -/
def View.badTarget (v : View) (t : Nat) : OpResult := .trap (trapOf trapBadTarget v.x.smask t 0) 0

/-- Go on if a target is legal (R94). -/
def View.withTarget (v : View) (t : Nat) (k : OpResult) : OpResult := if v.st.landing v.p t then k else v.badTarget t

/-! ### Branches and calls (R97 to R99) -/

/-- R98 br. -/
def execBr (f : CFields) (s : State) : Host.Outcome State Fault Refusal :=
  coreOp s fun s => slotOp s .c f.hdr (fun v => firstBad (needLit v :: cChecks f 0 false false false false))
    (fun v _ => v.withTarget (v.target f) (.ok (v.transfer v.st.core (v.target f))))

/-- The condition of brc (R97). -/
def View.condition (v : View) (f : CFields) : Bool :=
  let x := v.scalar f.sa.toNat
  let k := v.g.pred (f.sa.toNat - 0x30) &&& v.x.smask
  match f.func.toNat with
  | 0 => x == 0
  | 1 => x != 0
  | 2 => x.toInt < 0
  | 3 => 0 ≤ x.toInt
  | 4 => 0 < x.toInt
  | 5 => x.toInt ≤ 0
  | 8 => k != 0
  | 9 => k == 0
  | _ => k == v.x.smask

/-- FUNC names a condition of SA's class (R97). -/
def condOk (f : CFields) : Bool :=
  if isSA f.sa.toNat then decide (f.func.toNat ≤ 5) else within 8 10 f.func.toNat

/-- R98 brc. -/
def execBrc (f : CFields) (s : State) : Host.Outcome State Fault Refusal :=
  coreOp s fun s => slotOp s .c f.hdr
    (fun v => firstBad ((!condOk f, 26) :: needLit v :: cChecks f 0 false true false true))
    (fun v _ => v.withTarget (v.target f)
      (.ok (if v.condition f then v.transfer v.st.core (v.target f) else v.st.core)))

/-- R98 bri. -/
def execBri (f : CFields) (s : State) : Host.Outcome State Fault Refusal :=
  coreOp s fun s => slotOp s .c f.hdr (fun _ => firstBad (needSA f :: cChecks f 1 false false false true))
    (fun v _ => v.withTarget (v.target f) (.ok (v.transfer v.st.core (v.target f))))

/-- A call: s15 receives the next offset at the end of the cycle (R99). -/
def callOp (f : CFields) (v : View) : OpResult :=
  v.withTarget (v.target f) (.ok (v.transfer
    (v.sendTo v.st.core 0 false none 0 [.scalar (.s 15) (BitVec.ofNat 64 v.x.nxt)] [] 0) (v.target f)))

/-- R99 call. -/
def execCall (f : CFields) (s : State) : Host.Outcome State Fault Refusal :=
  coreOp s fun s => slotOp s .c f.hdr (fun v => firstBad (needLit v :: cChecks f 0 false false false false))
    (fun v _ => callOp f v)
/-- R99 call through a scalar. -/
def execCallScalar (f : CFields) (s : State) : Host.Outcome State Fault Refusal :=
  coreOp s fun s => slotOp s .c f.hdr (fun _ => firstBad (needSA f :: cChecks f 1 false false false true))
    (fun v _ => callOp f v)
/-- R99 ret. -/
def execRet (f : CFields) (s : State) : Host.Outcome State Fault Refusal :=
  coreOp s fun s => slotOp s .c f.hdr (fun _ => firstBad (cChecks f 2 false false false false))
    (fun v _ =>
      let t := ((v.scalar 15).setWidth 32).toNat
      v.withTarget t (.ok (v.transfer v.st.core t)))

/-! ### Regions (R100 to R106) -/

/-- SPLIT_STACK_OVERFLOW: entries needed and free (R287). -/
def View.overflow (v : View) (need room : Nat) : OpResult :=
  .trap (trapOf trapStackOverflow v.x.smask need room) 0

/-- Lanes of a split leave for a target: a taken transfer for them unless it leads to the next record (R26). -/
def View.leave (v : View) (c : Core) (off : Nat) (m : LaneMask) : Core :=
  let c := c.goTo v.x v.p.id off
  if off = v.x.nxt then c else c.squash v.x.h v.x.slot v.x.split v.st.cycle m false

/-- A brd that divides its split (R101). -/
def View.divide (v : View) (taken : LaneMask) (tgt jtgt : Nat) : OpResult :=
  let g := v.g
  let e := g.split v.x.split
  let room := areaRoom g.areaFree
  let need := (if 8 ≤ e.ids.length then 1 else 0) + spillCount (0 :: e.ids) + (if g.freeSlot?.isSome then 0 else 3)
  if room < need then v.overflow need room
  else match g.newIdent with
    | none => v.overflow need 0xFFFFFFFF
    | some id =>
      let g := { g with
        regionCtr := (id + 1) % 65536
        idents := g.idents ++ [({ ident := id, join := jtgt, owed := v.x.smask, present := 0, count := 0 } : Ident)] }
      let a := g.pushRecord v.x.split id
      let b := a.1.place v.st.cycle v.x.split (bankOf v.st.core v.g v.x.split)
        ({ offset := v.x.nxt, mask := v.x.smask &&& ~~~taken, ids := id :: e.ids } : NewPart)
      let c := v.st.core.putGroup (b.1.modSplit v.x.split fun e => { e with mask := taken })
      .ok (v.leave (c.regionAccess v.x v.st.cycle v.x.split .regionWrite 0 (a.2 ++ b.2)) tgt taken)

/-- R101 brd. -/
def execBrd (f : CFields) (s : State) : Host.Outcome State Fault Refusal :=
  coreOp s fun s => slotOp s .c f.hdr
    (fun v => firstBad (notHandler v :: (!isK f.sa.toNat, 14) :: needPair v :: cChecks f 0 false false false true))
    (fun v act =>
      let tgt := (v.literal .c).toNat % 2 ^ 32
      let jtgt := (v.literal .c).toNat / 2 ^ 32
      v.withTarget tgt (v.withTarget jtgt (
        let taken := act &&& v.g.pred (f.sa.toNat - 0x30)
        if taken = 0 then .ok v.st.core
        else if taken = v.x.smask then .ok (v.transfer v.st.core tgt)
        else v.divide taken tgt jtgt)))

/-- Add lanes to the group of a target, keeping the groups in ascending target order (R105). -/
def addTarget (l : List (Nat × LaneMask)) (t : Nat) (m : LaneMask) : List (Nat × LaneMask) :=
  match l with
  | [] => [(t, m)]
  | (u, k) :: r => if t = u then (u, k ||| m) :: r else if t < u then (t, m) :: (u, k) :: r else (u, k) :: addTarget r t m

/-- The good groups of a brx: active lanes by legal target, and the lanes outside the guard with the next record
(R105). -/
def View.targetGroups (v : View) (vt : Vec) (good : LaneMask) (act : LaneMask) : List (Nat × LaneMask) :=
  let rest := v.x.smask &&& ~~~act
  let l := if rest = 0 then [] else [(v.x.nxt, rest)]
  good.toList.foldl (fun l n => addTarget l (vt.lane n).toNat (BitVec.twoPow 128 n)) l

/-- The bad lanes of a brx trap in their entry, with the first four bad targets (R105). -/
def View.badLanes (v : View) (c : Core) (entry : Nat) (bad : LaneMask) (vt : Vec) : Core :=
  let ts := bad.toList.map fun n => (vt.lane n).toNat
  match c.group? v.x.h v.x.slot with
  | none => c
  | some g =>
    let t : TrapInfo := { code := trapBadTarget, mask := bad, info0 := ts.getD 0 0xFFFFFFFF, info1 := ts.getD 1 0xFFFFFFFF,
                          info2 := ts.getD 2 0xFFFFFFFF, info3 := ts.getD 3 0xFFFFFFFF }
    c.raise g (t.event { v.x with split := entry } 0 v.st.cycle)

/-- The parts of a brx find their places (R105). -/
def View.spread (v : View) (act : LaneMask) (vt : Vec) : OpResult :=
  let good := LaneMask.build fun n => act.has n && v.st.landing v.p (vt.lane n).toNat
  let bad := act &&& ~~~good
  let groups := v.targetGroups vt good act
  let g := v.g
  let sp := v.x.split
  let e := g.split sp
  let free := ((List.range 4).filter fun n => (g.split n).state == .free).length
  let own := bad != 0 && free == 0
  let others := (if own then groups else groups.drop 1).map fun t => ({ offset := t.1, mask := t.2, ids := e.ids } : NewPart)
  let moved : List NewPart := if bad != 0 && !own then [{ offset := v.x.off, mask := bad, ids := e.ids }] else []
  let need := entriesNeeded e.ids free (others.length + moved.length)
  if areaRoom g.areaFree < need then v.overflow need (areaRoom g.areaFree)
  else
    let left := free - moved.length
    let entry := if own then sp else g.freeSlot?.getD sp
    let r := g.placeAll v.st.cycle sp (bankOf v.st.core g sp) (moved ++ others.take left ++ (others.drop left).reverse)
    let g := match own, groups with
      | true, _ => r.1.modSplit sp fun e => { e with mask := bad, offset := v.x.off }
      | false, t :: _ => r.1.modSplit sp fun e => { e with mask := t.2, offset := t.1 }
      | false, [] => r.1.freeEntry sp
    let c := (v.st.core.putGroup g).regionAccess v.x v.st.cycle sp .regionWrite 0 r.2
    let c := if bad = 0 then c else v.badLanes c entry bad vt
    .ok (if good = 0 then c else c.squash v.x.h v.x.slot sp v.st.cycle good (good == v.x.smask))

/-- R105 brx. -/
def execBrx (f : CFields) (s : State) : Host.Outcome State Fault Refusal :=
  coreOp s fun s => slotOp s .c f.hdr
    (fun v => firstBad (notHandler v :: (v.vecBad f.sa.toNat 1, 14) :: cChecks f 2 false false false true))
    (fun v act => v.spread act (v.vec f.sa.toNat))

/-- The join of a region whose lanes are all present: splits that wait in it are freed, and its lanes run on here
(R102). -/
def Group.complete (g : Group) (n v : Nat) (owed : LaneMask) : Group × List Nat :=
  let waiting := (List.range 4).filter fun m => m != n && (g.split m).state == .join && (g.split m).ids.head? == some v
  let g := waiting.foldl (fun g m => g.freeEntry m) g
  let r := g.popRecord n
  (r.1.modSplit n fun e => { e with mask := owed }, r.2.2)

/-- R102 join. -/
def execJoin (f : CFields) (s : State) : Host.Outcome State Fault Refusal :=
  coreOp s fun s => slotOp s .c f.hdr (fun _ => firstBad (cChecks f 2 false false false false))
    (fun v act =>
      let g := v.g
      let sp := v.x.split
      match (g.split sp).ids with
      | [] => .ok v.st.core
      | id :: _ =>
        match g.ident? id with
        | none => .trap (trapOf trapReservedField act 11 v.x.idx) 0
        | some r =>
          if r.join ≠ v.x.off then .ok v.st.core
          else
            let here := r.present ||| v.x.smask
            let g := g.modIdent id fun i => { i with present := here }
            if here = r.owed then
              let q := g.complete sp id r.owed
              .ok ((v.st.core.putGroup q.1).regionAccess v.x v.st.cycle sp .regionRead 1 q.2)
            else if g.sides.isEmpty then
              .ok (v.st.core.putGroup (g.modSplit sp fun e =>
                { e.enter v.st.cycle .join (BitVec.ofNat 32 id) with offset := v.x.off, waitOff := v.x.nxt }))
            else
              let q := (g.freeEntry sp).restoreTop v.st.cycle sp
              .ok ((v.st.core.putGroup q.1).regionAccess v.x v.st.cycle sp .regionRead 0 q.2))

/-- brk leaves `n` regions (R104). -/
def Group.breakOut (g : Group) (sp : Nat) (m : LaneMask) : Nat → Group × List Nat
  | 0 => (g, [])
  | n + 1 =>
    let r := g.popRecord sp
    match r.2.1 with
    | none => (g, [])
    | some v =>
      let q := Group.breakOut (r.1.forgive v m) sp m n
      (q.1, r.2.2 ++ q.2)

/-- A brk, its target found (R104). -/
def View.breakTo (v : View) (act : LaneMask) (n t : Nat) : OpResult :=
  let depth := (v.g.split v.x.split).ids.length
  if act ≠ v.x.smask ∨ depth < n then .trap (trapOf trapIllegalSchedule v.x.smask (n + depth * 256) 0) 0
  else v.withTarget t (
    let r := v.g.breakOut v.x.split v.x.smask n
    let c := (v.st.core.putGroup r.1).regionAccess v.x v.st.cycle v.x.split .regionRead n r.2
    .ok (v.transfer c t))

/-- R104 brk to a label. -/
def execBrk (f : CFields) (s : State) : Host.Outcome State Fault Refusal :=
  coreOp s fun s => slotOp s .c f.hdr
    (fun v => firstBad ((decide (8 ≤ f.aux.toNat), 32) :: needLit v :: cChecks f 0 true false false false))
    (fun v act => v.breakTo act (f.aux.toNat + 1) (v.target f))
/-- R104 brk through a scalar. -/
def execBrkScalar (f : CFields) (s : State) : Host.Outcome State Fault Refusal :=
  coreOp s fun s => slotOp s .c f.hdr
    (fun _ => firstBad ((decide (8 ≤ f.aux.toNat), 32) :: needSA f :: cChecks f 1 true false false true))
    (fun v act => v.breakTo act (f.aux.toNat + 1) (v.target f))

/-- Lanes of a split end: they leave its mask and every owed mask, and an empty entry is freed (R106). -/
def Group.endLanes (g : Group) (sp : Nat) (m : LaneMask) : Group :=
  let g := (g.idents.map fun i => i.ident).foldl (fun g v => g.forgive v m) g
  let g := g.modSplit sp fun e => { e with mask := e.mask &&& ~~~m }
  if (g.split sp).mask = 0 then g.freeEntry sp else g

/-- Lanes of the issuing split end, or lanes of the handler's run (R106, R291; log entry 93). -/
def View.exitLanes (v : View) (act : LaneMask) : Core :=
  if v.x.split = 4 then
    v.st.core.modPart v.p.id fun p => { p with handler := p.handler.map fun r => { r with lanes := r.lanes &&& ~~~act } }
  else v.st.core.putGroup (v.g.endLanes v.x.split act)

/-- R106 exit. -/
def execExit (f : CFields) (s : State) : Host.Outcome State Fault Refusal :=
  coreOp s fun s => slotOp s .c f.hdr (fun _ => firstBad (cChecks f 2 false false false false))
    (fun v act => .ok (v.exitLanes act))

/-! ### Traps and debugging (R107, R108) -/

/-- R107 trap. -/
def execTrap (f : CFields) (s : State) : Host.Outcome State Fault Refusal :=
  coreOp s fun s => slotOp s .c f.hdr (fun _ => firstBad (cChecks f 2 true false false false))
    (fun _ act => .trap (trapOf trapInstr act f.aux.toNat 0) 0)

/-- R293 tret: legal only in the team handler, whose run it ends; ACTION 6 and 7 are reserved. -/
def execTret (f : CFields) (s : State) : Host.Outcome State Fault Refusal :=
  coreOp s fun s => slotOp s .c f.hdr
    (fun v => firstBad ((v.x.split != 4, 0) ::
      ((match v.p.handler with | some r => decide (6 ≤ r.action) | none => false), 0) ::
      cChecks f 2 false false false false))
    (fun v _ => .ok (v.st.core.modPart v.p.id fun p =>
      { p with handler := p.handler.map fun r => { r with done := true } }))

/-- R108 dbg: the stop is carried out after the bundle (R305). -/
def execDbg (f : CFields) (s : State) : Host.Outcome State Fault Refusal :=
  coreOp s fun s => slotOp s .c f.hdr (fun _ => firstBad (cChecks f 2 true false false false))
    (fun v _ =>
      let ev := (trapOf trapDebugStop v.x.smask f.aux.toNat 0).event v.x 6 v.st.cycle
      .ok (if !(v.p.dbgen.getLsbD f.aux.toNat) then v.st.core
           else if v.x.split = 4 then v.st.core.raise v.g ev
           else v.st.core.modPart v.p.id fun p => { p with stop := p.stop ++ [ev] }))

/-! ### The modulo sequencer (R109 to R113) -/

/-- The records of a body from an offset to the last one; none when a pad, a reserved byte or the end of the stream
lies among them, or when there are more than `fuel` (R109). -/
def State.bodyRecords (s : State) (p : Part) (last : Nat) : Nat → Nat → Option (List Record)
  | 0, _ => none
  | fuel + 1, off =>
    match s.recordAt p off with
    | .ok r =>
      if r.off ≠ off then none
      else if off = last then some [r]
      else if last < r.nxt then none
      else (s.bodyRecords p last fuel r.nxt).map fun l => r :: l
    | _ => none

/-- The die's filter version (R83); revision and generation 0 together give 0x0100 (log entry 102). -/
def Die.fver (d : Die) : BitVec 16 :=
  let x := Config.filterRevision (d.die + 4 * d.rev) ++ d.gen
  if x = 0 then 0x0100 else x

/-- The partition a part runs from. -/
def Core.partition? (c : Core) (p : Part) : Option Partition :=
  (c.hearth? p.h).bind fun hr => hr.partitions.find? fun q => q.pid == p.pid

/-- Entries of a partition that hold an index and can issue. -/
def Partition.hit (q : Partition) (idx : Nat) : Option DEntry :=
  q.entries.find? fun e => e.tag == some idx && e.valid && !e.busy

/-- A dictionary entry with its metadata: as the decode table holds it, or as it would be loaded. -/
def State.entryOf (s : State) (p : Part) (idx : Nat) : Option (BitVec 512 × Meta) :=
  match (s.core.partition? p).bind fun q => q.hit idx with
  | some e => some (e.word, e.data)
  | none =>
    let d := s.dieFor p.h
    (s.dictEntry (stoveOf p.h) p.world p.image idx).map fun w => (w, filterEntry d.prices p.pats d.fver idx w)

/-- Entries of a partition that can be replaced (R72). -/
def Partition.replaceable (q : Partition) : Nat := if q.size ≤ 3 then 8 * 2 ^ q.size else 8 * 2 ^ q.size - 128

/-- An op the body of a seq may not hold (R109). -/
def bodyBars (e : Slot × Instr) : Bool :=
  e.1 == .c ||
  match e.2 with
  | .csrWr f | .csrSet f | .csrClr f => f.aux == 0x2A
  | _ => false

/-- The entries of one phase fit together (R109). -/
def phaseOk (l : List (BitVec 512 × Meta)) : Bool :=
  let us := l.map fun e => usesOf e.1
  let all := us.flatten
  let units := all.filterMap fun e => if opListed e.2.1 && unitBit e.1 < 16 then some (unitBit e.1) else none
  decide units.Nodup && decide ((all.filterMap fun e => e.2.2.bus.map fun b => b.1).Nodup) &&
  !(overlapAny (us.map fun u => u.flatMap fun e => e.2.2.written)) &&
  decide ((all.map fun e => e.2.2.vports).sum ≤ 6) && decide ((all.map fun e => e.2.2.sread.length).sum ≤ 4) &&
  decide ((all.map fun e => e.2.2.swrite.length).sum ≤ 2) &&
  !(overlapAny (l.map fun e => (List.range 32).filter e.2.wset.getLsbD)) &&
  decide ((l.map fun e => e.2.price).sum ≤ 63)

/-- Every phase of a body fits (R109). -/
def phasesOk (body : List (BitVec 512 × Meta)) (ii stages : Nat) : Bool :=
  (List.range ii).all fun p => phaseOk ((List.range stages).filterMap fun k => body[p + k * ii]?)

/-- A body needs more replaceable entries than its partition has (R109). -/
def State.bodyTooBig (s : State) (p : Part) (rs : List Record) : Bool :=
  let need := ((rs.map fun r => r.idx).filter fun i => match s.core.partition? p with
    | some q => !(decide (4 ≤ q.size) && decide (i < 128))
    | none => true).eraseDups.length
  decide ((match s.core.partition? p with | some q => q.replaceable | none => 0) < need)

/-- The body of a seq and its first failing check, 0 when none fails (R109, R287). -/
def State.seqCheck (s : State) (p : Part) (first last ii stages : Nat) : Nat × List Record :=
  match s.bodyRecords p last (ii * stages + 1) first with
  | none => (1, [])
  | some rs =>
    if rs.length ≠ ii * stages then (1, rs)
    else if !(s.landing p first) then (2, rs)
    else
      let body := rs.map fun r => if r.idx < p.image.dictCount then s.entryOf p r.idx else none
      let known := body.filterMap id
      if known.any fun e => (decodeBundle e.1).any bodyBars then (3, rs)
      else if known.length == body.length && !(phasesOk known ii stages) then (4, rs)
      else
        if s.bodyTooBig p rs then (5, rs)
        else if (rs.any fun r => decide (p.image.dictCount ≤ r.idx)) || known.any (fun e => e.2.reason != 0) then (6, rs)
        else (0, rs)

/-- Body records and stages of a seq or seqx: first, last, II and S (R109). -/
def View.seqBody (v : View) (f : CFields) : Nat × Nat × Nat × Nat :=
  ((v.literal .c).toNat % 2 ^ 32, (v.literal .c).toNat / 2 ^ 32, bitsNat f.aux.toNat 3 0 + 1, bitsNat f.aux.toNat 6 4 + 1)

/-- Dictionary entries of a body that a seq must load before it issues, when no check fails that does not need them: those
not resident, and the whole body (R109). -/
def View.bodyMissing (v : View) (f : CFields) : List Nat × List Nat :=
  let b := v.seqBody f
  let r := v.st.seqCheck v.p b.1 b.2.1 b.2.2.1 b.2.2.2
  if r.1 = 1 || r.1 = 2 || v.st.bodyTooBig v.p r.2 then ([], [])
  else
    let all := ((r.2.map fun x => x.idx).filter fun i => decide (i < v.p.image.dictCount)).eraseDups
    (all.filter fun i => match v.st.core.partition? v.p with | some q => (q.hit i).isNone | none => false, all)

/-- A seq or seqx (R109, R110, R113). -/
def seqOp (s : State) (f : CFields) (stop : Option Nat) : Core :=
  slotOp s .c f.hdr
    (fun v => firstBad (notHandler v :: needSA f :: (stop.isSome && !isSA f.sb.toNat, 20) ::
      (f.aux.getLsbD 7, 32) :: needPair v :: cChecks f 0 true false stop.isSome true))
    (fun v _ =>
      let b := v.seqBody f
      let first := b.1
      let last := b.2.1
      let ii := b.2.2.1
      let stages := b.2.2.2
      let r := v.st.seqCheck v.p first last ii stages
      if r.1 ≠ 0 then .trap (trapOf trapSeqError v.x.smask r.1 0) 0
      else
        let trip := (v.scalar f.sa.toNat).toNat
        let after := match r.2.getLast? with | some l => l.nxt | none => v.x.nxt
        if trip = 0 then
          .ok ((v.st.core.putGroup { v.g with seqIter := 0 }).goTo v.x v.p.id after)
        else
          let run : SeqRun := { first := first, last := last, ii := ii, stages := stages, trip := trip, t := 0,
                                vrotStart := v.g.vrot, stop := stop, body := r.2.map fun r => (r.off, r.nxt) }
          .ok (v.st.core.modSplit v.x.h v.x.slot v.x.split fun e => { e with seqRun := some run, offset := first }))

/-- R109 seq. -/
def execSeq (f : CFields) (s : State) : Host.Outcome State Fault Refusal := coreOp s fun s => seqOp s f none
/-- R113 seqx. -/
def execSeqx (f : CFields) (s : State) : Host.Outcome State Fault Refusal :=
  coreOp s fun s => seqOp s f (some f.sb.toNat)

/-! ### Switch points and checkpoints (R114, R115) -/

/-- The offset a switch entry gives a level (R69). -/
def variantFor (e : Nat × Nat × Nat × Nat) (level : Nat) : Nat :=
  if level ≤ 2 then e.2.2.1 else if level ≤ 5 then e.2.1 else e.1

/-- R114 swp. A table page that does not translate gives an entry of zeros (log entry 21). A target that is the next record
is no transfer (`View.transfer`). -/
def execSwp (f : CFields) (s : State) : Host.Outcome State Fault Refusal :=
  coreOp s fun s => slotOp s .c f.hdr
    (fun v => firstBad ((decide (v.p.image.swCount ≤ f.aux.toNat), 32) :: cChecks f 2 true false false false))
    (fun v act =>
      let e := (v.st.switchEntry v.p f.aux.toNat).getD (0, 0, 0, 0)
      if e.2.2.2 ≠ 0 then .trap (trapOf trapReservedField act (11 + 96 * 256) v.x.idx) 0
      else
        let t := variantFor e ((v.st.die v.x.h).pwrLevel % 8)
        if v.st.landing v.p t && v.st.spfAt v.p t then .ok (v.transfer v.st.core t)
        else v.badTarget t)

/-- R115 chk: the checkpoint itself closes before the bundle issues (R301); in a stove team the split then waits for
the same group on the other hearths. -/
def execChk (f : CFields) (s : State) : Host.Outcome State Fault Refusal :=
  coreOp s fun s => slotOp s .c f.hdr
    (fun v => firstBad ((decide (16 ≤ f.aux.toNat) || (List.range 4).any (fun i => f.aux.getLsbD i && v.tileBad i), 32) ::
      cChecks f 2 true false false false))
    (fun v _ => .ok (if v.p.image.stove then v.waitIn v.st.core .longwait 6 else v.st.core))

/-! ### Barriers (R116 to R119) -/

/-- The part that keeps barrier `b`: a stove team's b8 to b15 stand once for its 16 hearths (R116). -/
def Core.barHome (c : Core) (p : Part) (b : Nat) : Nat :=
  if p.image.stove && decide (8 ≤ b) then
    match c.parts.find? fun q => q.launch == p.launch && q.team == p.team && q.p == 0 with
    | some q => q.id
    | none => p.id
  else p.id

/-- The name of a group at a barrier. -/
def barKey (p : Part) (g : Group) (b : Nat) : Nat := if p.image.stove && decide (8 ≤ b) then 16 * p.p + g.num else g.num

/-- A group that has not arrived. -/
def noArrival (key : Nat) : Arrival := { group := key, lanes := 0, counted := false, last := none, again := [] }

/-- A group's share in a barrier. -/
def Barrier.share (b : Barrier) (key : Nat) : Arrival := (b.arrivals.find? fun a => a.group == key).getD (noArrival key)

/-- Lanes arrive; those that had arrived already wait for the next phase (R117). -/
def Barrier.arrive (b : Barrier) (key split : Nat) (m : LaneMask) (thenWait : Bool) : Barrier :=
  let a := b.share key
  let dup := m &&& a.lanes
  let a' : Arrival := { a with
    lanes := a.lanes ||| m
    last := if m &&& ~~~a.lanes = 0 then a.last else some b.gen
    again := if dup = 0 then a.again else a.again ++ [(split, dup, thenWait)] }
  { b with arrivals := a' :: b.arrivals.filter fun x => x.group != key }

/-- The barrier an op names. -/
def View.bar (v : View) (n : Nat) : Barrier :=
  match v.st.core.part? (v.st.core.barHome v.p n) with
  | some p => p.bars.getD n { gen := 0, expect := 0, arrived := 0, arrivals := [] }
  | none => { gen := 0, expect := 0, arrived := 0, arrivals := [] }

/-- The scope at which a barrier orders (R118). -/
def barScope (p : Part) (n : Nat) : Nat := if p.image.stove && decide (8 ≤ n) then 3 else p.scopeOf 2

/-- A bar.wt that finds its phase complete goes on as if it had waited: at stove scope it acquires, which is put in flight
as a fence of acquire order that names no tag and waits for no earlier load (R118, R281; log entry 94). -/
def View.acquireNow (v : View) (c : Core) (scope : Nat) : Core :=
  if scope < 3 then c
  else c.startAccess { v.x.access .fence v.st.cycle (BitVec.twoPow 128 0) with ord := 1, scope := scope, func := 1, addrs := [0] }

/-- bar.arr, bar.wt or bar.syn (R119). -/
def barOp (s : State) (f : CFields) (arrives waits : Bool) : Core :=
  slotOp s .c f.hdr
    (fun _ => firstBad ((decide (16 ≤ f.aux.toNat), 32) :: cChecks f 2 true false false false))
    (fun v act =>
      let n := f.aux.toNat
      let key := barKey v.p v.g n
      let bar := v.bar n
      let dup := arrives && act &&& (bar.share key).lanes != 0
      let b := if arrives then bar.arrive key v.x.split act waits else bar
      let c := if arrives then
          v.st.core.modPart (v.st.core.barHome v.p n) fun p => { p with bars := p.bars.set n b }
        else v.st.core
      let a := b.share key
      .ok (if dup || (waits && (a.lanes != 0 || a.last.isNone)) then v.waitIn c .barrier (BitVec.ofNat 32 n)
           else if waits then v.acquireNow c (barScope v.p n) else c))

/-- R119 bar.arr. -/
def execBarArr (f : CFields) (s : State) : Host.Outcome State Fault Refusal := coreOp s fun s => barOp s f true false
/-- R119 bar.wt. -/
def execBarWt (f : CFields) (s : State) : Host.Outcome State Fault Refusal := coreOp s fun s => barOp s f false true
/-- R119 bar.syn. -/
def execBarSyn (f : CFields) (s : State) : Host.Outcome State Fault Refusal := coreOp s fun s => barOp s f true true

/-! ### Waits (R120 to R123) -/

/-- A tag as the group keeps it. -/
def Group.tag (g : Group) (n : Nat) : Tag := g.tags.getD n { count := 0, failed := none }

/-- A wait meets a failed tag: the failure is taken and cleared (R191). -/
def View.failTag (v : View) (act : LaneMask) (n code off : Nat) (va : W64) : Core :=
  let c := v.st.core.putGroup { v.g with tags := v.g.tags.modify n fun t => { t with failed := none } }
  takeTrap { v.st with core := c }
    { code := code, mask := act, info0 := n, info1 := off, info2 := va.toNat, info3 := 0 } 4

/-- Wait for tags as `kind` of R238, unless one has failed or all are complete; `k` follows when nothing is left to
wait for (R120, R191). -/
def View.awaitTags (v : View) (act : LaneMask) (tags : List Nat) (kind : Nat) (k : Core → OpResult) : OpResult :=
  match tags.findSome? fun n => (v.g.tag n).failed.map fun e => (n, e) with
  | some (n, code, off, va) => .ok (v.failTag act n code off va)
  | none =>
    if tags.all fun n => (v.g.tag n).count == 0 then k v.st.core
    else .ok (v.waitIn v.st.core .longwait (BitVec.ofNat 32 (kind + 65536 * (tags.foldl (fun m n => m ||| 2 ^ n) 0))))

/-- R120 wait.t. -/
def execWaitT (f : CFields) (s : State) : Host.Outcome State Fault Refusal :=
  coreOp s fun s => slotOp s .c f.hdr
    (fun _ => firstBad ((!(within 1 3 f.func.toNat), 26) :: (decide (f.func.toNat < 2) && decide (16 ≤ f.aux.toNat), 32) ::
      ((decide (f.func.toNat < 3) && f.sb != 0) || decide (16 ≤ f.sb.toNat), 20) ::
      cChecks f 2 true true true false))
    (fun v act => v.awaitTags act ([bitsNat f.aux.toNat 3 0, bitsNat f.aux.toNat 7 4, f.sb.toNat].take f.func.toNat) 1 .ok)

/-- A global address is canonical (R162). -/
def canonical (a : W64) : Bool := decide (a.toNat < 2 ^ 57)

/-- Monitors armed or being armed on a hearth (R121). -/
def Core.monitors (c : Core) (h : Nat) : Nat :=
  ((c.groups.filter fun g => g.h == h).map fun g => (g.splits.filter fun e => e.monitor.isSome).length).sum +
  (c.accs.filter fun a => a.h == h && a.kind == .wmon).length

/-- R121 wmon. The handler's wait ends at once, as a spurious wake. -/
def execWmon (f : CFields) (s : State) : Host.Outcome State Fault Refusal :=
  coreOp s fun s => slotOp s .c f.hdr
    (fun _ => firstBad (needSA f :: (!isSA f.sb.toNat, 20) :: cChecks f 2 false false true true))
    (fun v act =>
      let a := v.scalar f.sa.toNat
      if !(canonical a) then .trap (trapOf trapAccess act a.toNat 2) 0
      else if Config.hearthMonitors ≤ v.st.core.monitors v.x.h then .trap (trapOf trapMonitor act 0 0) 0
      else
        let c := v.st.core.startAccess { v.x.access .wmon v.st.cycle act with
          addrs := [a], vals := [(v.scalar f.sb.toNat).toNat % 2 ^ 32], todo := 1 }
        .ok (if v.x.split = 4 then c else v.waitIn c .longwait 2))

/-- R122 yld. -/
def execYld (f : CFields) (s : State) : Host.Outcome State Fault Refusal :=
  coreOp s fun s => slotOp s .c f.hdr (fun _ => firstBad (cChecks f 2 false false false false))
    (fun v _ =>
      .ok (if v.x.split = 4 then
          v.st.core.modPart v.p.id fun p =>
            { p with handler := p.handler.map fun r => { r with age := 0, ready := v.st.cycle + 2 } }
        else v.st.core.modSplit v.x.h v.x.slot v.x.split fun e => { e with age := 0, noIssue := some (v.st.cycle + 1) }))

/-- A launch queue of a function. -/
def Launching.queue? (l : Launching) (func q : Nat) : Option LQueue :=
  l.queues.find? fun x => x.func == func && x.queue == q

/-- Bytes of virtual memory as a group of the hearth sees them: the homes under its held stores (R279). -/
def overlayGated (gs : List Gated) (va : Nat) (bs : List Byte) : List Byte :=
  gs.foldl (fun bs g =>
    bs.mapIdx fun i b => if g.va.toNat ≤ va + i && va + i < g.va.toNat + g.bytes.length
      then g.bytes.getD (va + i - g.va.toNat) 0 else b) bs

/-- The 128 bytes of a launch record on this device, by the path of a load (R123, R262). -/
def State.spawnBytes (s : State) (h world va : Nat) (l : Loc) (leaf : W64) : State × List Byte :=
  if l.tgt = 3 || leafNC leaf then (s, s.homeRead l 128)
  else (List.range 4).foldl (fun (r : State × List Byte) i =>
    let q := r.1.readL1 h world (va / 128) false { l with pa := l.pa + 32 * i } 32
    (q.1, r.2 ++ q.2)) (s, [])

/-- What a spawn's record shows at issue, when it can be read at once: the trap that it gives (R123, R286; log entry 104). -/
def View.spawnTrap (v : View) (act : LaneMask) (a : W64) : Option TrapInfo :=
  match v.st.translate (stoveOf v.x.h) v.p.world a.toNat .read with
  | .fault _ _ => none
  | .ok s l leaf =>
    if l.tgt = 2 || s.lineState l v.x.seq v.p.world != .good then none
    else
    let bs := overlayGated v.g.gated a.toNat (s.spawnBytes v.x.h v.p.world a.toNat l leaf).2
    if (v.st.lch.queue? v.p.func (leAt bs 104 1 % 64)).isNone then some (trapOf trapAccess act a.toNat 9)
    else if leAt bs 106 1 ≠ v.p.world then some (trapOf trapWorld act (leAt bs 106 1) 0)
    else none

/-- R123 spawn: the record is read once the access is translated. -/
def execSpawn (f : CFields) (s : State) : Host.Outcome State Fault Refusal :=
  coreOp s fun s => slotOp s .c f.hdr
    (fun v => firstBad (notHandler v :: needSA f :: cChecks f 2 false false false true))
    (fun v act =>
      let a := v.scalar f.sa.toNat
      if a.toNat % 128 ≠ 0 then .trap (trapOf trapMisalign act a.toNat 0) 0
      else if !(canonical a) then .trap (trapOf trapAccess act a.toNat 2) 0
      else match v.spawnTrap act a with
        | some t => .trap t 0
        | none => .ok (v.st.core.startAccess { v.x.access .spawn v.st.cycle act with addrs := [a], todo := 1 }))

end Sys2Proof.Machine
end

