-- ==== Sys2Proof/Machine/Pad.lean ====
section
/-! DEFINITION. The scratchpad: banks and rotation (R268, R269), passes (R169), what a checkpoint records of it
(R300), and the race shadow (R307). -/

namespace Sys2Proof.Machine

/-- The permutation of a rotation code (R268). -/
def rotFun (rot row : Nat) : Nat :=
  match rot with
  | 1 => row % 32
  | 2 => 2 * row % 32
  | 3 => 4 * row % 32
  | 4 => 2 * (row % 16)
  | 5 => 4 * (row % 8)
  | 6 => 8 * (row % 4)
  | _ => 0

/-- Bank and row of a byte under a code (R268). -/
def bankRow (rot x : Nat) : Nat × Nat := ((x / 16 % 32) ^^^ rotFun rot (x / 512), x / 512)

/-- Where a byte is kept: its place under code 000 (R269). -/
def padPlace (rot x : Nat) : Nat :=
  let b := bankRow rot x
  b.2 * 512 + b.1 * 16 + x % 16

/-- Bytes of a team's scratchpad under a code. -/
def Part.padRead (p : Part) (rot x n : Nat) : List Byte :=
  (List.range n).map fun i => cellRead p.scratch (padPlace rot (x + i))

/-- Put bytes into a team's scratchpad under a code. -/
def padPut (m : List Host.Cell) (rot x : Nat) : List Byte → List Host.Cell
  | [] => m
  | b :: bs => padPut (cellWrite m (padPlace rot x) b) rot (x + 1) bs

/-- The largest number of distinct rows that the accesses touch in one bank, at least 1 (R169). -/
def padPasses (rot width : Nat) (offs : List Nat) : Nat :=
  let cells := (offs.flatMap fun x => (bankRow rot x) :: [bankRow rot (x + width - 1)]).eraseDups
  ((List.range 32).map fun b => (cells.filter fun c => c.1 == b).length).foldl Nat.max 1

/-- The largest number of lanes naming one word (R169). -/
def sameWord (offs : List Nat) : Nat := (offs.map fun x => (offs.filter fun y => y == x).length).foldl Nat.max 1

/-! ### What the checkpoint buffer records (R300) -/

/-- An op belongs to the interval after the checkpoint that is asked for. -/
def Group.late (g : Group) (seq : Nat) : Bool := match g.ckptReq with | some (_, b) => decide (b < seq) | none => false

/-- Record something of the interval: kind 0 v, 1 k, 2 s and a, 3 scratchpad, 4 private, 6 a sector of a held store, each
once; 5 a sector that an access consumes, each time. -/
def Group.record (g : Group) (late : Bool) (kind num bytes : Nat) : Group :=
  if kind != 5 && g.recorded.contains (late, kind, num) then g
  else { g with recorded := (late, kind, num) :: g.recorded, ckptBytes := g.ckptBytes + bytes }

/-- The op was issued before the checkpoint that a rollback returns to: a rollback does not undo it (R203). -/
def Group.older (g : Group) (seq : Nat) : Bool := match g.ckpt with | some n => decide (seq ≤ n.seq) | none => false

/-- The 32-byte sectors of a range. -/
def sectorsOf (x n : Nat) : List Nat := (List.range ((x + n + 31) / 32 - x / 32)).map (x / 32 + ·)

/-- Change what an op of the group changes of it, and of the copies kept at boundaries after that op: those keep ops issued
before them (R203, R301). -/
def Group.alsoSaved (g : Group) (seq : Nat) (f : GroupSave → GroupSave) : Group :=
  let put := fun (n : GroupSave) => if seq ≤ n.seq then f n else n
  { g with ckpt := g.ckpt.map put, next := g.next.map put }

/-- Bytes of a record (R300). -/
def recordBytes (kind : Nat) : Nat := match kind with | 0 => 528 | 1 => 24 | 2 => 24 | 3 => 72 | _ => 40

/-- The records of bytes about to be overwritten in scratchpad (space 0) or private memory (space 1). -/
def Group.undoBytes (g : Group) (seq space : Nat) (l : List (Nat × Byte)) : Group :=
  if g.older seq then g
  else
    let late := g.late seq
    let unit := if space = 0 then 64 else 32
    let g := l.foldl (fun g e => g.record late (3 + space) (e.1 / unit) (if space = 0 then 72 else 40)) g
    { g with undo := (l.map fun e => ({ after := late, space := space, addr := e.1, old := e.2 } : Undo)).reverse ++ g.undo }

/-! ### The race shadow (R307) -/

/-- The record of a race. The spec lists its contents; the places are the model's (log entry 28). -/
def raceBytes (cycle off word g writer kind : Nat) : List Byte :=
  natLe 8 cycle ++ natLe 4 off ++ natLe 4 word ++ natLe 1 g ++ natLe 1 writer ++ natLe 1 kind ++ List.replicate 13 0

/-- Race detection is on for a part. -/
def Part.racing (p : Part) : Bool := bitNat p.flags 1

/-- WRITER and EPOCH of a word. -/
def Part.shadowOf (p : Part) (w : Nat) : Nat × Nat :=
  ((p.shadow.find? fun e => e.1 == w).map fun e => e.2).getD (16, 0)

/-- The stop that a race gives (R307). -/
def raceStop (slot split off cycle : Nat) : TrapEv :=
  { slot := slot, split := split, code := trapDebugStop, origin := 6, pc := off, mask := 0, info0 := 0x200, info1 := 0,
    info2 := 0, info3 := 0, cycle := cycle }

/-- A group's op meets the shadow of one word. -/
def Part.race (p : Part) (cycle off slot split g w kind : Nat) : Part :=
  let s := p.shadowOf w
  if s.1 ≠ g && s.1 ≠ 16 && s.2 = p.epoch then
    { p with races := p.races ++ [raceBytes cycle off (4 * w) g s.1 kind],
             stop := if bitNat p.flags 2 then p.stop ++ [raceStop slot split off cycle] else p.stop }
  else p

/-- An access of a group to words of the scratchpad meets the shadow, and a write sets it (R307). -/
def Part.touch (p : Part) (cycle off slot split g : Nat) (write : Bool) (words : List Nat) : Part :=
  if !p.racing then p
  else words.foldl (fun p w =>
    let p := p.race cycle off slot split g w (if write then 2 else 1)
    if write then { p with shadow := (w, g, p.epoch) :: p.shadow.filter fun e => e.1 != w } else p) p

/-- An engine writes words of the scratchpad (R307). -/
def Part.touchEngine (p : Part) (words : List Nat) : Part :=
  if !p.racing then p else { p with shadow := p.shadow.filter fun e => !(words.contains e.1) }

/-- The 4-byte words of a range. -/
def wordsOf (x n : Nat) : List Nat := (List.range ((x + n + 3) / 4 - x / 4)).map (x / 4 + ·)

/-- The words of a range under a code, as the race shadow keeps them: under code 000 (R269). -/
def rotWords (rot x n : Nat) : List Nat := (wordsOf x n).map fun w => padPlace rot (4 * w) / 4

/-! ### Access by ops -/

/-- Write bytes of the scratchpad for a group's op, recorded for its checkpoint. -/
def Core.padWrite (c : Core) (g : Group) (seq rot x : Nat) (bs : List Byte) : Core :=
  match c.part? g.part with
  | none => c
  | some p =>
    let old := (List.range bs.length).map fun i => (padPlace rot (x + i), cellRead p.scratch (padPlace rot (x + i)))
    (c.modPart g.part fun p => { p with scratch := padPut p.scratch rot x bs }).modGroup g.h g.slot fun g =>
      g.undoBytes seq 0 old

/-- Note that a group's op has read scratchpad (R302). -/
def Core.padRead (c : Core) (g : Group) (seq rot : Nat) (l : List (Nat × Nat)) : Core :=
  let gr := (l.flatMap fun e => [padPlace rot e.1 / 64, padPlace rot (e.1 + e.2 - 1) / 64]).eraseDups
  c.modGroup g.h g.slot fun g =>
    { g with reads := (gr.map fun x => (g.late seq, x)).filter (fun e => !(g.reads.contains e)) ++ g.reads }

/-- Ranges of queued ops in the range scoreboard of a part's hearth (R192). -/
def Core.boardOverlap (c : Core) (part : Nat) (before : Nat) (l : List (Nat × Nat)) : Bool :=
  c.engs.any fun e => decide (e.seq < before) &&
    (match c.group? e.h e.slot with | some g => g.part == part | none => false) &&
    e.ranges.any fun r => l.any fun q => decide (q.1 < r.1 + r.2) && decide (r.1 < q.1 + q.2)

end Sys2Proof.Machine
end

