-- ==== Sys2Proof/Machine/Land.lean ====
section
/-! DEFINITION. Results reach their registers: what the checkpoint buffer records of a write (R300), the copy kept at
a boundary that a checkpoint is asked for (R301), and the clearing of pending bits (R24). -/

namespace Sys2Proof.Machine

/-- The record of a register write: kind, number and bytes (R300). -/
def RegWrite.undo (w : RegWrite) (split : Nat) : Option (Nat × Nat × Nat) :=
  match w with
  | .lanes n _ _ => some (0, n, 528)
  | .pred n _ _ => some (1, n, 24)
  | .scalar (.s n) _ => some (2, if n < 16 then 64 * split + n else n, 24)
  | .scalar (.a n) _ => some (2, 32 + n, 24)
  | _ => none

/-- A write lands in the copy kept at a boundary. -/
def GroupSave.put (g : GroupSave) (split : Nat) (w : RegWrite) : GroupSave :=
  match w with
  | .lanes n m v => { g with v := g.v.modify n fun old => Vec.merge m old v }
  | .pred n m v => if n = 0 then g else { g with k := g.k.modify n fun old => (old &&& ~~~m) ||| (v &&& m) }
  | .scalar (.s n) x =>
    if n < 16 then { g with splits := g.splits.modify split fun e => { e with bank := e.bank.set n x } }
    else { g with sh := g.sh.set (n - 16) x }
  | .scalar (.a n) x => { g with a := g.a.set n x }
  | .scalar _ _ => g
  | .csr 0x10 x => { g with fflags := x.setWidth 5 }
  | .csr 0x11 x => { g with fctl := x.setWidth 3 }
  | .csr 0x12 x => { g with isat := x.getLsbD 0 }
  | .csr 0x2A x => { g with vrot := x.toNat % 16 }
  | .csr _ _ => g
  | .tensor _ _ _ => g

/-- Record the writes of an op of the group, and let them land in the copy kept at a boundary after it. -/
def Group.landed (g : Group) (cycle seq split : Nat) (ws : List RegWrite) (f : BitVec 5) (sat : Bool) : Group :=
  let late := g.late seq
  let g := ws.foldl (fun g w => match w.undo split with | some (k, n, b) => g.record late k n b | none => g) g
  if late then g
  else { g with
         lastLand := cycle
         next := g.next.map fun n =>
           let n := ws.foldl (fun n w => n.put split w) n
           { n with fflags := n.fflags ||| f, isat := n.isat || sat } }

/-! ### Write-back buses and scalar write ports (R22, R23) -/

/-- Lanes of WB2 that vector writes take, and scalar write ports. -/
def portNeed (ws : List RegWrite) : LaneMask × Nat :=
  (ws.foldl (fun m w => match w with | .lanes _ k _ => m ||| k | _ => m) 0,
   (ws.filter fun w => match w with | .scalar _ _ => true | _ => false).length)

/-- What a hearth's results have taken in this cycle. -/
def Core.portsOf (c : Core) (h : Nat) : LaneMask × Nat :=
  (c.ports.filter fun e => e.1 == h).foldl (fun r e => (r.1 ||| e.2.1, r.2 + e.2.2)) (0, 0)

/-- A result takes lanes of WB2 and scalar write ports. -/
def Core.takePorts (c : Core) (h : Nat) (need : LaneMask × Nat) : Core :=
  if need.1 = 0 && need.2 = 0 then c else { c with ports := c.ports ++ [(h, need.1, need.2)] }

/-- A late result finds its lanes of WB2 and a scalar write port free in this cycle (R23). -/
def Core.portsFree (c : Core) (h : Nat) (need : LaneMask × Nat) : Bool :=
  let used := c.portsOf h
  used.1 &&& need.1 == 0 && (need.2 == 0 || decide (used.2 + need.2 ≤ 2))

/-- What a fixed-latency result takes: WB2 where it is its bus, and scalar write ports. -/
def Landing.ports (l : Landing) : LaneMask × Nat := (if l.bus = some 2 then l.lanes else 0, (portNeed l.writes).2)

/-- A fixed-latency result lands (R20). -/
def Core.landResult (c : Core) (l : Landing) (cycle : Nat) : Core :=
  ((l.land c cycle).takePorts l.h l.ports).modGroup l.h l.slot fun g =>
    g.landed cycle l.seq l.split l.writes (l.fflags.foldl (· ||| ·) 0) (l.isat != 0)

/-- A variable-latency result lands: its writes, and the pending bits of its destinations clear (R23, R24). -/
def Core.landLate (c : Core) (h slot split seq cycle : Nat) (dst : List Reg) (ws : List RegWrite) : Core :=
  match c.group? h slot with
  | none => c
  | some g =>
    let c := (applyWrites ws c g cycle split).takePorts h (portNeed ws)
    c.modGroup h slot fun g => (g.landed cycle seq split ws 0 false).clearPend split dst

end Sys2Proof.Machine
end

