-- ==== Sys2Proof/Machine/MemSlot.lean ====
section
/-! DEFINITION. The M slot: operand forms and address checks (R161 to R166), scratchpad access at issue (R169 to R171),
and the ops that put an access in flight (R167, R168, R172 to R187). What an access then does is in Bind. -/

namespace Sys2Proof.Machine

/-! ### Operand forms (R162 to R164) -/

/-- What DATA names. -/
inductive DataUse where
  | none
  | scalar
  /-- `k` times the span of WIDTH. -/
  | vec (k : Nat)
  deriving DecidableEq, Repr

/-- What INDEX may be. -/
inductive IndexUse where
  | none
  /-- Part of the address, by IDXEN and VIDX. -/
  | addr (vidx : Bool)
  /-- A scalar that forms no address: needed, or optional by IDXEN. -/
  | scalar (need : Bool)
  deriving DecidableEq, Repr

/-- One row of R164. -/
structure MSpec where
  data : DataUse
  wlo : Nat
  whi : Nat
  index : IndexUse
  ords : List Nat
  fmax : Nat
  rot : Bool := false
  sx : Bool := false
  sq : Bool := false
  base : Bool := true

/-- Bytes per lane of a width (R163). -/
def widthBytes (w : Nat) : Nat := 2 ^ w

/-- DATA is not what the op needs. -/
def dataBad (v : View) (u : DataUse) (f : MFields) : Bool :=
  match u with
  | .none => f.data != 0
  | .scalar => !isSA f.data.toNat
  | .vec k => v.vecBad f.data.toNat (k * Nat.max 1 (spanOf f.width.toNat))

/-- INDEX, IDXEN and VIDX are not what the op needs (R162, R164). -/
def indexBad (v : View) (u : IndexUse) (f : MFields) : List (Bool × Nat) :=
  let scalar := f.idxen && !isSA f.index.toNat
  let unused := !f.idxen && f.index != 0
  match u with
  | .none => [(f.index != 0, 26), (f.idxen, 32), (f.vidx, 63)]
  | .addr vi =>
    [((if f.vidx then f.idxen && v.vecBad f.index.toNat 1 else scalar) || unused, 26), (f.vidx && !f.idxen, 32), (f.vidx && !vi, 63)]
  | .scalar need => [(scalar || unused, 26), (need && !f.idxen, 32), (f.vidx, 63)]

/-- The reserved values of an M op (R88, R164). -/
def mBad (sp : MSpec) (f : MFields) (v : View) : Option Nat :=
  let w := f.width.toNat
  firstBad ([(f.hdr.sq && !sp.sq, 8), (dataBad v sp.data f, 14), (if sp.base then !isSA f.base.toNat else f.base != 0, 20),
    (w < sp.wlo || sp.whi < w, 33), (f.sx && !(sp.sx && (w < 2 || !sp.sq && sp.wlo == 2)), 36),
    (f.offsel == 3 || (!sp.base && f.offsel != 0), 37), (f.offsel != 1 && f.disp != 0, 39),
    (if sp.rot then !rotAllows f.rot.toNat w || f.rot == 7 else f.rot != 0, 51), (sp.fmax < f.func.toNat, 54),
    (if f.ord = 0 then f.scope != 0 else f.scope == 7, 58), (!(sp.ords.contains f.ord.toNat), 61),
    (f.offsel == 2 && !v.routed .m, routeBit .m)] ++ indexBad v sp.index f)

/-- The address before a lane's own part: base, scalar index and offset (R162). -/
def View.mBase (v : View) (f : MFields) : W64 :=
  let o : W64 := if f.offsel = 1 then f.disp.signExtend 64 else if f.offsel = 2 then v.literal .m else 0
  v.scalar f.base.toNat + (if f.idxen && !f.vidx then v.scalar f.index.toNat else 0) + o

/-- The address of a lane; `stride` is the unit stride of forms without a vector index (R162). -/
def View.mAddr (v : View) (f : MFields) (stride : Bool) (n : Nat) : W64 :=
  v.mBase f +
    (if f.vidx then ((v.vec f.index.toNat).lane n).signExtend 64
     else if stride then BitVec.ofNat 64 (n * widthBytes f.width.toNat) else 0)

/-- The addresses of all lanes. -/
def View.mAddrs (v : View) (f : MFields) (stride : Bool) : List W64 := (List.range lanes).map (v.mAddr f stride)

/-- The physical registers of a span (R111, R163). -/
def View.spanRegs (v : View) (n k : Nat) : List Nat := (List.range k).map fun i => rotated v.x.rho (n + i)

/-- A lane's value over a span of registers, the first in the low bits (R163). -/
def View.spanVal (v : View) (n k lane : Nat) : Nat :=
  (List.range k).foldl (fun x i => x + ((v.vec (n + i)).lane lane).toNat <<< (32 * i)) 0

/-- Each lane's store data, cut to its width. -/
def View.storeVals (v : View) (f : MFields) (k : Nat) : List Nat :=
  (List.range lanes).map fun n => v.spanVal f.data.toNat (k * spanOf f.width.toNat) n % 2 ^ (8 * k * widthBytes f.width.toNat)

/-- A loaded value of a width, extended to `bits` bits (R163). -/
def extendLoad (w : Nat) (sx : Bool) (bits x : Nat) : Nat :=
  let n := 8 * widthBytes w
  if sx then wrapInt bits (toSigned n x) else x % 2 ^ n

/-! ### The checks of R165 -/

/-- A check that fails: its row of R165, and the code and INFO1 of its trap. -/
structure AddrCheck where
  row : Nat
  code : Nat
  info1 : Nat
  deriving DecidableEq, Repr

def checkMisalign : AddrCheck := { row := 1, code := trapMisalign, info1 := 0 }
def checkScratch : AddrCheck := { row := 2, code := trapAccess, info1 := 3 }
def checkPrivate (limit : Nat) : AddrCheck := { row := 3, code := trapPrivateLimit, info1 := limit }
def checkMeadow : AddrCheck := { row := 4, code := trapAccess, info1 := 4 }
/-- R332: between checks 4 and 5. -/
def checkUnit : AddrCheck := { row := 5, code := trapAccess, info1 := 1 }
def checkCanonical : AddrCheck := { row := 6, code := trapAccess, info1 := 2 }

/-- Checks of a global access of `w` bytes. -/
def globalCheck (w : Nat) (a : W64) : Option AddrCheck :=
  if a.toNat % w ≠ 0 then some checkMisalign else if canonical a then none else some checkCanonical

/-- Checks of a scratchpad access of `w` bytes. -/
def scratchCheck (limit w : Nat) (a : W64) : Option AddrCheck :=
  if a.toNat % w ≠ 0 then some checkMisalign else if limit < a.toNat + w then some checkScratch else none

/-- A die's meadow unit belongs to a world (R332). -/
def HostIf.ownsUnit (h : HostIf) (die unit world : Nat) : Bool := h.units.any fun u => u == (die, unit, world)

/-- Checks of a meadow access of `w` bytes. -/
def meadowCheck (own : Nat → Bool) (w : Nat) (a : W64) : Option AddrCheck :=
  if a.toNat % w ≠ 0 then some checkMisalign
  else if 2 ^ 31 < a.toNat + w then some checkMeadow
  else if own (a.toNat / 2 ^ 24) then none else some checkUnit

/-- Checks of a private access to `k` words (R172). -/
def privateCheck (limit k : Nat) (a : W64) : Option AddrCheck :=
  if limit < a.toNat + k then some (checkPrivate limit) else none

/-- What the checks leave: the lanes that pass, and the trap of the others (R165). -/
def screen (act : LaneMask) (check : Nat → Option AddrCheck) : LaneMask × Option (AddrCheck × LaneMask) :=
  let res := (List.range lanes).map fun n => if act.has n then check n else none
  let good := LaneMask.build fun n => act.has n && (res.getD n none).isNone
  let rows := res.filterMap id
  match rows.find? fun r => rows.all fun q => decide (r.row ≤ q.row) with
  | none => (good, none)
  | some r => (good, some (r, LaneMask.build fun n => res.getD n none == some r))

/-- The lanes that fail take their trap after the bundle (R165, R286). -/
def View.raiseAddr (v : View) (c : Core) (r : AddrCheck) (bad : LaneMask) (addr : Nat → W64) : Core :=
  match c.group? v.x.h v.x.slot with
  | none => c
  | some g => c.raise g ((trapOf r.code bad (addr (bad.lowest.getD 0)).toNat r.info1).event v.x 1 v.st.cycle)

/-- A lane-wise op: lanes that fail trap, the others complete the op (R165). -/
def View.screened (v : View) (act : LaneMask) (addr : Nat → W64) (check : W64 → Option AddrCheck)
    (k : LaneMask → Core) : OpResult :=
  let r := screen act fun n => check (addr n)
  let c := if r.1 = 0 then v.st.core else k r.1
  .ok (match r.2 with | none => c | some (q, bad) => v.raiseAddr c q bad addr)

/-- A scalar form executes once; a failing check takes the whole active mask (R165, R168). -/
def View.screenedOnce (v : View) (act : LaneMask) (a : W64) (check : W64 → Option AddrCheck) (c : Core) : OpResult :=
  match check a with
  | none => .ok c
  | some q => .ok (v.raiseAddr v.st.core q act fun _ => a)

/-! ### Accesses in flight -/

/-- Start an access; its destinations are pending from now on (R24), and its earliest moment is open (R2). -/
def View.launch (v : View) (c : Core) (f : MFields) (a : Access) : Core :=
  let id := c.seq
  let n := c.fresh
  let c := n.2.startAccess { a with
    ord := f.ord.toNat, scope := f.scope.toNat, func := f.func.toNat,
    width := f.width.toNat, sx := f.sx, sq := f.hdr.sq, ready := v.st.cycle + Config.freeNat n.1 }
  c.modGroup v.x.h v.x.slot fun g => { g with pend := g.pend ++ a.dst.map fun r => (r, v.x.split, id) }

/-- The vector destinations of a load. -/
def View.destV (v : View) (f : MFields) (k : Nat) : List Reg := (v.spanRegs f.data.toNat k).map Reg.v

/-- A lane-wise access to global memory (R167, R175). -/
def View.globalOp (v : View) (f : MFields) (kind : AccKind) (act : LaneMask) (vals : List Nat) (dst : List Reg) : OpResult :=
  let addrs := v.mAddrs f true
  v.screened act (v.mAddr f true) (globalCheck (widthBytes f.width.toNat)) fun good =>
    v.launch v.st.core f { v.x.access kind v.st.cycle act with todo := good, addrs := addrs, vals := vals, dst := dst }

/-- Vector loads and stores over global memory (R164). -/
def specV (sq sx : Bool) : MSpec :=
  { data := .vec 1, wlo := 0, whi := 4, index := .addr true, ords := [0], fmax := 0, sx := sx, sq := sq }

/-- R167 ld.g. -/
def execLdG (f : MFields) (s : State) : Host.Outcome State Fault Refusal :=
  coreOp s fun s => slotOp s .m f.hdr (mBad (specV true true) f)
    (fun v act => v.globalOp f .ldG act [] (v.destV f (spanOf f.width.toNat)))

/-- R167 st.g. -/
def execStG (f : MFields) (s : State) : Host.Outcome State Fault Refusal :=
  coreOp s fun s => slotOp s .m f.hdr (mBad (specV false false) f)
    (fun v act => v.globalOp f .stG act (v.storeVals f 1) [])

/-- A scalar access (R168). -/
def View.scalarOp (v : View) (f : MFields) (kind : AccKind) (act : LaneMask) (vals : List Nat) (dst : List Reg) : OpResult :=
  let a := v.mBase f
  v.screenedOnce act a (globalCheck (widthBytes f.width.toNat))
    (v.launch v.st.core f { v.x.access kind v.st.cycle act with todo := 1, addrs := [a], vals := vals, dst := dst })

/-- Scalar loads and stores (R164). -/
def specS (ord : Nat) (sq : Bool) : MSpec :=
  { data := .scalar, wlo := 0, whi := 3, index := .addr false, ords := [0, ord], fmax := 0, sx := sq, sq := sq }

/-- R168 ld.sc. -/
def execLdSc (f : MFields) (s : State) : Host.Outcome State Fault Refusal :=
  coreOp s fun s => slotOp s .m f.hdr (mBad (specS 1 true) f)
    (fun v act => v.scalarOp f .ldSc act [] [codeReg f.data.toNat])

/-- R168 st.sc. -/
def execStSc (f : MFields) (s : State) : Host.Outcome State Fault Refusal :=
  coreOp s fun s => slotOp s .m f.hdr (mBad (specS 2 false) f)
    (fun v act => v.scalarOp f .stSc act [(v.scalar f.data.toNat).toNat % 2 ^ (8 * widthBytes f.width.toNat)] [])

/-! ### Scratchpad (R169 to R171) -/

/-- The lanes of a scratchpad op that pass the checks, with their offsets. -/
def View.padLanes (v : View) (f : MFields) (act : LaneMask) : LaneMask :=
  (screen act fun n => scratchCheck v.p.image.scratch (widthBytes f.width.toNat) (v.mAddr f true n)).1
def View.padOffs (v : View) (f : MFields) (act : LaneMask) : List Nat :=
  (v.padLanes f act).toList.map fun n => (v.mAddr f true n).toNat

/-- Passes of a scratchpad op; race detection takes one more (R169, R307). -/
def View.padPassCount (v : View) (f : MFields) (act : LaneMask) (atomic : Bool) : Nat :=
  let offs := v.padOffs f act
  let p := padPasses f.rot.toNat (widthBytes f.width.toNat) offs
  (if atomic then Nat.max p (sameWord offs) else p) + (if v.p.racing then 1 else 0)

/-- No bundle of the group before cycle c + p (R169). -/
def View.padBusy (v : View) (c : Core) (p : Nat) : Core :=
  c.modGroup v.x.h v.x.slot fun g => { g with busyUntil := Nat.max g.busyUntil (v.st.cycle + p) }

/-- The words that lanes touch, as the race shadow keeps them (R269, R307). -/
def padWords (rot w : Nat) (offs : List Nat) : List Nat :=
  (offs.flatMap fun x => rotWords rot x w).eraseDups

/-- The op meets the race shadow (R307). -/
def View.padTouch (v : View) (c : Core) (f : MFields) (write : Bool) (offs : List Nat) : Core :=
  c.modPart v.p.id fun p => p.touch v.st.cycle v.x.off v.x.slot v.x.split v.g.num write
    (padWords f.rot.toNat (widthBytes f.width.toNat) offs)

/-- A fixed-latency vector result of the M slot, over a span, from each lane's value (R169). -/
def View.padResult (v : View) (c : Core) (f : MFields) (good : LaneMask) (p : Nat) (val : Nat → Nat) : Core :=
  let k := spanOf f.width.toNat
  let vals := (List.range lanes).map fun n => if good.has n then extendLoad f.width.toNat f.sx (32 * k) (val n) else 0
  v.sendTo c (6 + p) f.hdr.sq (some 2) good
    ((List.range k).map fun i => v.vwrite (f.data.toNat + i) good
      (Vec.build fun n => BitVec.ofNat 32 (vals.getD n 0 >>> (32 * i)))) [] 0

/-- Scratchpad loads, stores and atomics (R164). -/
def specP (wlo whi fmax : Nat) (sq : Bool) : MSpec :=
  { data := .vec 1, wlo := wlo, whi := whi, index := .addr true, ords := [0], fmax := fmax, rot := true, sx := sq, sq := sq }

/-- R169 ld.sp. -/
def execLdSp (f : MFields) (s : State) : Host.Outcome State Fault Refusal :=
  coreOp s fun s => slotOp s .m f.hdr (mBad (specP 0 4 0 true) f)
    (fun v act =>
      let w := widthBytes f.width.toNat
      let addr := v.mAddr f true
      v.screened act addr (scratchCheck v.p.image.scratch w) fun good =>
        let p := v.padPassCount f act false
        let offs := good.toList.map fun n => (addr n).toNat
        let c := v.padBusy (v.padTouch v.st.core f false offs) p
        let c := c.padRead v.g v.x.seq f.rot.toNat (offs.map fun x => (x, w))
        v.padResult c f good p fun n => leNat (v.p.padRead f.rot.toNat (addr n).toNat w))

/-- R170 st.sp: lanes in ascending order. -/
def execStSp (f : MFields) (s : State) : Host.Outcome State Fault Refusal :=
  coreOp s fun s => slotOp s .m f.hdr (mBad (specP 0 4 0 false) f)
    (fun v act =>
      let w := widthBytes f.width.toNat
      let addr := v.mAddr f true
      let k := spanOf f.width.toNat
      v.screened act addr (scratchCheck v.p.image.scratch w) fun good =>
        let p := v.padPassCount f act false
        let c := v.padBusy (v.padTouch v.st.core f true (good.toList.map fun n => (addr n).toNat)) p
        good.toList.foldl (fun c n =>
          c.padWrite v.g v.x.seq f.rot.toNat (addr n).toNat (natLe w (v.spanVal f.data.toNat k n))) c)

/-- Function `fn` of an atomic on words of `bits` bits: the new word (R171). -/
def atomicFn (fn bits old x : Nat) : Nat :=
  let m := 2 ^ bits
  let slt := decide (toSigned bits old < toSigned bits x)
  match fn with
  | 0 => (old + x) % m
  | 1 => old &&& x
  | 2 => old ||| x
  | 3 => old ^^^ x
  | 4 => if slt then old else x
  | 5 => if slt then x else old
  | 6 => if old < x then old else x
  | 7 => if old < x then x else old
  | _ => x

/-- Lanes apply a function to scratchpad words in ascending order: the hearths after it, and the old words by lane
(R171). -/
def View.satomLanes (v : View) (f : MFields) (c : Core) : List Nat → Core × List (Nat × Nat)
  | [] => (c, [])
  | n :: ns =>
    let w := widthBytes f.width.toNat
    let x := (v.mAddr f true n).toNat
    let old := match c.part? v.p.id with | some p => leNat (p.padRead f.rot.toNat x w) | none => 0
    let new := atomicFn f.func.toNat (8 * w) old (v.spanVal f.data.toNat (spanOf f.width.toNat) n)
    let r := v.satomLanes f (c.padWrite v.g v.x.seq f.rot.toNat x (natLe w new)) ns
    (r.1, (n, old) :: r.2)

/-- R171 satom. -/
def execSatom (f : MFields) (s : State) : Host.Outcome State Fault Refusal :=
  coreOp s fun s => slotOp s .m f.hdr (mBad (specP 2 3 8 false) f)
    (fun v act =>
      let w := widthBytes f.width.toNat
      let addr := v.mAddr f true
      v.screened act addr (scratchCheck v.p.image.scratch w) fun good =>
        let p := v.padPassCount f act true
        let offs := good.toList.map fun n => (addr n).toNat
        let c := v.padBusy (v.padTouch v.st.core f true offs) p
        let r := v.satomLanes f (c.padRead v.g v.x.seq f.rot.toNat (offs.map fun x => (x, w))) good.toList
        v.padResult r.1 f good p fun n => ((r.2.find? fun e => e.1 == n).map fun e => e.2).getD 0)

/-! ### Private memory and the meadow (R172, R173) -/

/-- A private access: word indices by lane (R172). -/
def View.privateOp (v : View) (f : MFields) (kind : AccKind) (act : LaneMask) (vals : List Nat) (dst : List Reg) : OpResult :=
  let addr := v.mAddr f false
  v.screened act addr (privateCheck v.p.image.priv (spanOf f.width.toNat)) fun good =>
    v.launch v.st.core f { v.x.access kind v.st.cycle act with todo := good, addrs := v.mAddrs f false, vals := vals, dst := dst }

/-- Private accesses (R164). -/
def specPv (sq : Bool) : MSpec :=
  { data := .vec 1, wlo := 2, whi := 3, index := .addr true, ords := [0], fmax := 0, sq := sq }

/-- R172 ld.pv. -/
def execLdPv (f : MFields) (s : State) : Host.Outcome State Fault Refusal :=
  coreOp s fun s => slotOp s .m f.hdr (mBad (specPv true) f)
    (fun v act => v.privateOp f .ldPv act [] (v.destV f (spanOf f.width.toNat)))

/-- R172 st.pv. -/
def execStPv (f : MFields) (s : State) : Host.Outcome State Fault Refusal :=
  coreOp s fun s => slotOp s .m f.hdr (mBad (specPv false) f)
    (fun v act => v.privateOp f .stPv act (v.storeVals f 1) [])

/-- R173 ld.md: the die's own meadow, without translation. -/
def execLdMd (f : MFields) (s : State) : Host.Outcome State Fault Refusal :=
  coreOp s fun s => slotOp s .m f.hdr (mBad (specV true true) f)
    (fun v act =>
      let own := fun u => v.st.hst.ownsUnit (dieOf v.x.h) u v.p.world
      v.screened act (v.mAddr f true) (meadowCheck own (widthBytes f.width.toNat)) fun good =>
        v.launch v.st.core f { v.x.access .ldMd v.st.cycle act with
          todo := good, addrs := v.mAddrs f true, dst := v.destV f (spanOf f.width.toNat) })

/-! ### Direct loads into scratchpad (R174) -/

/-- Scratchpad offset of a lane of ld.gs. -/
def View.gsDest (v : View) (f : MFields) (n : Nat) : W64 :=
  v.scalar f.data.toNat + BitVec.ofNat 64 (n * widthBytes f.width.toNat)

/-- Checks of a lane of ld.gs: its source, and its destination range (R165). -/
def View.gsCheck (v : View) (f : MFields) (n : Nat) : Option AddrCheck :=
  let w := widthBytes f.width.toNat
  match globalCheck w (v.mAddr f true n) with
  | some r => if r.row = 1 then some r else if v.p.image.scratch < (v.gsDest f n).toNat + w then some checkScratch else some r
  | none => if v.p.image.scratch < (v.gsDest f n).toNat + w then some checkScratch else none

/-- R174 ld.gs: EXPECT steps at issue; a beyond-SCRATCH trap names the destination offset. -/
def execLdGs (f : MFields) (s : State) : Host.Outcome State Fault Refusal :=
  coreOp s fun s => slotOp s .m f.hdr
    (mBad { data := .scalar, wlo := 0, whi := 4, index := .addr true, ords := [0], fmax := 15, sx := true } f)
    (fun v act =>
      let r := screen act (v.gsCheck f)
      let b := f.func.toNat
      let c := if r.1 = 0 then v.st.core else
        (v.launch v.st.core f { v.x.access .ldGs v.st.cycle act with
          todo := r.1, addrs := v.mAddrs f true, vals := (List.range lanes).map fun n => (v.gsDest f n).toNat, arg := b }).modPart
          (v.st.core.barHome v.p b) fun p => { p with bars := p.bars.modify b fun x => { x with expect := x.expect + 1 } }
      .ok (match r.2 with
        | none => c
        | some (q, bad) => v.raiseAddr c q bad (if q.row = 2 then v.gsDest f else v.mAddr f true)))

/-! ### Global atomics (R175 to R180) -/

/-- Destinations of a returning atomic; none with .nr (R175). -/
def View.atomDest (v : View) (f : MFields) : List Reg := if f.sx then [] else v.destV f (spanOf f.width.toNat)

/-- R176 atom. -/
def execAtom (f : MFields) (s : State) : Host.Outcome State Fault Refusal :=
  coreOp s fun s => slotOp s .m f.hdr
    (mBad { data := .vec 1, wlo := 2, whi := 3, index := .addr true, ords := [0, 1, 2, 3], fmax := 8, sx := true } f)
    (fun v act => v.globalOp f .atom act (v.storeVals f 1) (v.atomDest f))

/-- R177 atom.cas. -/
def execAtomCas (f : MFields) (s : State) : Host.Outcome State Fault Refusal :=
  coreOp s fun s => slotOp s .m f.hdr
    (mBad { data := .vec 2, wlo := 2, whi := 3, index := .addr true, ords := [0, 1, 2, 3], fmax := 0 } f)
    (fun v act => v.globalOp f .atomCas act (v.storeVals f 2) (v.destV f (spanOf f.width.toNat)))

/-- R178 atom.fadd. -/
def execAtomFadd (f : MFields) (s : State) : Host.Outcome State Fault Refusal :=
  coreOp s fun s => slotOp s .m f.hdr
    (mBad { data := .vec 1, wlo := 2, whi := 2, index := .addr true, ords := [0, 1, 2, 3], fmax := 2, sx := true } f)
    (fun v act => v.globalOp f .atomFadd act (v.storeVals f 1) (v.atomDest f))

/-- Ordered atomics (R164). -/
def specO : MSpec := { data := .vec 1, wlo := 2, whi := 2, index := .addr true, ords := [0], fmax := 0 }

/-- R179 atom.ofa. -/
def execAtomOfa (f : MFields) (s : State) : Host.Outcome State Fault Refusal :=
  coreOp s fun s => slotOp s .m f.hdr (mBad specO f) (fun v act => v.globalOp f .atomOfa act (v.storeVals f 1) [])

/-- R180 atom.oclose. -/
def execAtomOclose (f : MFields) (s : State) : Host.Outcome State Fault Refusal :=
  coreOp s fun s => slotOp s .m f.hdr (mBad specO f) (fun v act => v.globalOp f .atomOclose act [] (v.destV f 1))

/-! ### Prefetch (R182) -/

/-- R182 pf: lanes that would fail are dropped. -/
def execPf (f : MFields) (s : State) : Host.Outcome State Fault Refusal :=
  coreOp s fun s => slotOp s .m f.hdr
    (mBad { data := .none, wlo := 0, whi := 4, index := .addr true, ords := [0], fmax := 1 } f)
    (fun v act =>
      let good := (screen act fun n => globalCheck (widthBytes f.width.toNat) (v.mAddr f true n)).1
      .ok (if good = 0 then v.st.core
           else v.launch v.st.core f { v.x.access .pf v.st.cycle act with todo := good, addrs := v.mAddrs f true }))

/-! ### Sync objects (R183 to R187) -/

/-- SCOPE of a sync object, when it can be read at once (R183). -/
def View.objectScope (v : View) (obj : W64) : Option Nat :=
  (v.st.peek (stoveOf v.x.h) v.p.world obj.toNat 8 .read).map fun bs =>
    leNat (overlayGated v.g.gated obj.toNat bs) % 8

/-- The reserved scopes of a sync object (R183). -/
def scopeReserved (n : Nat) : Bool := n == 0 || n == 7

/-- A trap at issue of an op on an object. -/
def objectTrap (code : Nat) (act : LaneMask) (obj : W64) (i1 : Nat) : OpResult := .trap (trapOf code act obj.toNat i1) 0

/-- The ops on objects need an aligned, canonical object. -/
def withObject (act : LaneMask) (obj : W64) (k : OpResult) : OpResult :=
  if obj.toNat % 8 ≠ 0 then objectTrap trapMisalign act obj 0
  else if canonical obj then k else objectTrap trapAccess act obj 2

/-- Ops on sync objects (R164). -/
def specSync (data : DataUse) (index : IndexUse) (fmax : Nat) : MSpec :=
  { data := data, wlo := 0, whi := 0, index := index, ords := [0], fmax := fmax }

/-- The base address of an op whose INDEX forms no address (R164). -/
def View.objectAddr (v : View) (f : MFields) : W64 := v.mBase { f with idxen := false }

/-- Two regions share a byte. -/
def regionsMeet (a n b m : Nat) : Bool := decide (a < b + m) && decide (b < a + n)

/-- The parts of a team. -/
def Core.teamParts (c : Core) (launch team : Nat) : List Part := c.parts.filter fun p => p.launch == launch && p.team == team
/-- The regions that a team has bound, on all its hearths (R184). -/
def Core.bindingsOf (c : Core) (p : Part) : List (W64 × Nat × Nat) := (c.teamParts p.launch p.team).flatMap fun q => q.bindings
/-- The bindings of the issuing team. -/
def View.bound (v : View) : List (W64 × Nat × Nat) := v.st.core.bindingsOf v.p

/-- R184 bind. The binding stands from the next cycle on. -/
def execBind (f : MFields) (s : State) : Host.Outcome State Fault Refusal :=
  coreOp s fun s => slotOp s .m f.hdr (mBad (specSync .scalar (.scalar true) 0) f)
    (fun v act =>
      let obj := v.objectAddr f
      let base := (v.scalar f.index.toNat).toNat
      let len := (v.scalar f.data.toNat).toNat
      let sc := v.objectScope obj
      withObject act obj (
        if base % 256 ≠ 0 || len % 256 ≠ 0 || !(within 256 (2 ^ 40) len) then objectTrap trapMisalign act obj 0
        else if v.bound.any fun b => b.1 != obj && regionsMeet b.2.1 b.2.2 base len then objectTrap trapAccess act obj 7
        else if (match sc with | some n => scopeReserved n | none => false) then objectTrap trapAccess act obj 8
        else if v.bound.contains (obj, base, len) then .ok v.st.core
        else if Config.bindingCount ≤ v.bound.length then objectTrap trapAccess act obj 6
        else
          let c := v.st.core.modPart v.p.id fun p => { p with bindings := p.bindings ++ [(obj, base, len)] }
          .ok (if sc.isSome then c
               else v.launch c f { v.x.access .bind v.st.cycle act with todo := 1, addrs := [obj], vals := [base, len] })))

/-- R184 unbind. -/
def execUnbind (f : MFields) (s : State) : Host.Outcome State Fault Refusal :=
  coreOp s fun s => slotOp s .m f.hdr (mBad (specSync .none (.scalar true) 0) f)
    (fun v act =>
      let obj := v.objectAddr f
      let base := (v.scalar f.index.toNat).toNat
      let loose := fun (q : Part) => if q.launch != v.p.launch || q.team != v.p.team then q
        else { q with bindings := q.bindings.filter fun b => !(b.1 == obj && b.2.1 == base) }
      withObject act obj (
        if base % 256 ≠ 0 then objectTrap trapMisalign act obj 0
        else .ok { v.st.core with parts := v.st.core.parts.map loose }))

/-- R185 acq: a long wait until the object is taken. -/
def execAcq (f : MFields) (s : State) : Host.Outcome State Fault Refusal :=
  coreOp s fun s => slotOp s .m f.hdr (mBad (specSync .none .none 1) f)
    (fun v act =>
      let obj := v.objectAddr f
      withObject act obj (.ok (v.waitIn
        (v.launch v.st.core f { v.x.access .acq v.st.cycle act with todo := 1, addrs := [obj] }) .longwait 4)))

/-- rel or fence: an access that first waits for the named tags (R186, R187, R191). -/
def View.relOp (v : View) (act : LaneMask) (f : MFields) (kind : AccKind) (obj : W64) : OpResult :=
  let m := if f.idxen then (v.scalar f.index.toNat).toNat else 0
  if 2 ^ 16 ≤ m then .trap (v.reserved 1 act (operandBit + 16)) 0
  else
    let tags := (List.range 16).filter (bitNat m)
    match tags.findSome? fun n => (v.g.tag n).failed.map fun e => (n, e) with
    | some (n, code, off, va) => .ok (v.failTag act n code off va)
    | none =>
      let done := tags.all fun n => (v.g.tag n).count == 0
      let c := v.launch v.st.core f { v.x.access kind v.st.cycle act with todo := 1, addrs := [obj], arg := if done then 0 else m }
      .ok (if done then c
           else v.waitIn c .longwait (BitVec.ofNat 32 (5 + 65536 * m)))

/-- R186 rel. -/
def execRel (f : MFields) (s : State) : Host.Outcome State Fault Refusal :=
  coreOp s fun s => slotOp s .m f.hdr (mBad (specSync .none (.scalar false) 0) f)
    (fun v act => withObject act (v.objectAddr f) (v.relOp act f .rel (v.objectAddr f)))

/-- R187 fence. -/
def execFence (f : MFields) (s : State) : Host.Outcome State Fault Refusal :=
  coreOp s fun s => slotOp s .m f.hdr
    (mBad { data := .none, wlo := 0, whi := 0, index := .scalar false, ords := [1, 2, 3], fmax := 0, base := false } f)
    (fun v act => v.relOp act f .fence 0)

end Sys2Proof.Machine
end

