-- ==== Sys2Proof/Machine/Bind.lean ====
section
/-! DEFINITION. What an access in flight does: translation, reading and writing lane by lane (R167 to R182), atomics at
their placement (R274 to R276), sync objects and fences (R183 to R187), spawn (R123), monitors (R121), the region area
(R245), and what becomes of lanes that fault (R296 to R298). -/

namespace Sys2Proof.Machine

/-! ### Where an access stands -/

/-- The access class of R351. -/
def AccKind.cls : AccKind → Nat
  | .stG | .stSc | .stPv => 2
  | .atom | .atomCas | .atomFadd | .atomOfa | .atomOclose | .acq | .rel => 3
  | .regionWrite | .regionRead => 4
  | _ => 1
/-- What the access needs of a leaf (R348, R245). -/
def AccKind.need : AccKind → Need
  | .stG | .stSc | .stPv | .atom | .atomCas | .atomFadd | .atomOfa | .atomOclose | .acq | .rel | .regionWrite => .write
  | _ => .read
/-- It takes an entry of the operand log (R296). -/
def AccKind.logged : AccKind → Bool
  | .ldG | .stG | .ldSc | .stSc | .ldPv | .stPv | .ldMd | .ldGs | .atom | .atomCas | .atomFadd | .atomOfa
  | .atomOclose | .spawn => true
  | _ => false
/-- A scalar form: entry 0 stands for the whole active mask. -/
def AccKind.once : AccKind → Bool
  | .ldG | .stG | .ldPv | .stPv | .ldMd | .ldGs | .atom | .atomCas | .atomFadd | .atomOfa | .atomOclose | .pf => false
  | _ => true
/-- A global atomic (R175). -/
def AccKind.atomic : AccKind → Bool
  | .atom | .atomCas | .atomFadd | .atomOfa | .atomOclose => true
  | _ => false

/-- Its lanes go to the hearth's L1 as requests (R265, R267). -/
def AccKind.viaL1 : AccKind → Bool
  | .ldG | .stG | .ldSc | .stSc | .ldPv | .stPv | .ldGs | .atom | .atomCas | .atomFadd | .pf => true
  | _ => false

/-- Its order is that of a release (R187, R123). -/
def Access.releases (a : Access) : Bool := a.ord == 2 || a.ord == 3 || a.kind == .rel || a.kind == .spawn
/-- Its order is that of an acquire. -/
def Access.acquires (a : Access) : Bool := a.ord == 1 || a.ord == 3
/-- The earlier reads of its split come first: an acquire's, and an acquisition's (R185, R187). -/
def Access.afterReads (a : Access) : Bool := (a.acquires && !(a.kind == .fence && a.func == 1)) || a.kind == .acq

/-- Change an access. -/
def Core.modAccess (c : Core) (id : Nat) (f : Access → Access) : Core :=
  { c with accs := c.accs.map fun a => if a.id == id then f a else a }
/-- Remove an access. -/
def Core.dropAccess (c : Core) (id : Nat) : Core := { c with accs := c.accs.filter fun a => a.id != id }

/-- The lanes of a set, as a trap of the access names them. -/
def Access.lanesOf (a : Access) (m : LaneMask) : LaneMask := if a.kind.once then a.mask else m

/-- The split that takes a trap of an op issued from an entry: that entry, or the one that now holds the lanes
(log entry 30). -/
def Group.trapEntry (g : Group) (split : Nat) (m : LaneMask) : Option Nat :=
  if split = 4 || (g.split split).state != .free then some split
  else (List.range 4).find? fun n => (g.split n).mask &&& m != 0

/-- A logged access is answered with a trap (R286, R297); what a spawn's record itself shows is a trap at its issue
(R123, R287). -/
def Core.trapAfter (c : Core) (a : Access) (m : LaneMask) (code i0 i1 cycle : Nat) : Core :=
  match c.group? a.h a.slot with
  | none => c
  | some g =>
    match g.trapEntry a.split m with
    | none => c
    | some n =>
      let t := trapOf code m i0 i1
      let x : Ctx := { c.ctx with h := a.h, slot := a.slot, split := n, off := a.off, iter := a.iter }
      if a.kind == .spawn && (code == trapWorld || (code == trapAccess && i1 == 9)) then
        (c.modSplit a.h a.slot n fun e => { e with offset := a.off }).raise g (t.event x 0 cycle)
      else c.raise g (t.event x 2 cycle)

/-- The key of a line, as events name it. -/
def Loc.key (l : Loc) : Nat := l.dev * 2 ^ 52 + l.tgt * 2 ^ 50 + l.pa
/-- The line an event names. -/
def Loc.ofLine (n : Nat) : Loc := { tgt := n / 2 ^ 50 % 4, dev := n / 2 ^ 52, pa := n % 2 ^ 50 - n % 256 }

/-! ### Reading one lane -/

/-- What became of one lane. -/
inductive LaneRes where
  | got (s : State) (x : Nat)
  | sent (s : State)
  /-- Not done, with a change of the state. -/
  | held (s : State)
  | fault (kind level : Nat) (va : W64)
  | trap (s : State) (code info1 : Nat) (va : W64)
  | wait
  deriving Repr

/-- A location lies in a held store. -/
def Gated.covers (e : Gated) (l : Loc) : Bool :=
  e.tgt == l.tgt && e.dev == l.dev && decide (e.pa ≤ l.pa) && decide (l.pa < e.pa + e.bytes.length)

/-- Bytes at a location as the group sees them: its held stores over what the path gives (R279). -/
def overlayAt (gs : List Gated) (l : Loc) (bs : List Byte) : List Byte :=
  bs.mapIdx fun i b => gs.foldl (fun b e =>
    if e.covers { l with pa := l.pa + i } then e.bytes.getD (l.pa + i - e.pa) 0 else b) b

/-- The bank of a meadow offset is in its refresh window (R271, R272). -/
def meadowBusy (die cycle off : Nat) : Bool :=
  let pos := (cycle + Config.moff die % 20480) % 20480
  pos / 2560 == bitsNat off 10 8 && decide (pos % 2560 < 960)

/-- Lanes of an access join a request. -/
def joinLanes (id : Nat) (m : LaneMask) (js : List (Nat × LaneMask)) : List (Nat × LaneMask) :=
  if js.any fun j => j.1 == id then js.map fun j => if j.1 = id then (j.1, j.2 ||| m) else j else js ++ [(id, m)]

/-- Ask another device for a 128-byte line on behalf of a lane: a new request takes a miss entry, and a later one joins it (R266,
R373). A page with NC set is asked for each access alone. -/
def State.askRemote (s : State) (a : Access) (lane world : Nat) (va : W64) (pv nc : Bool) (l : Loc) : LaneRes :=
  let bit : LaneMask := BitVec.twoPow 128 lane
  let join := fun (tag : Nat) => ({ s with fab := { s.fab with remotes := s.fab.remotes.map fun r =>
    if r.tag != tag then r else if r.acc = a.id then { r with lanes := r.lanes ||| bit } else { r with joins := joinLanes a.id bit r.joins } } } : State)
  match s.fab.remotes.find? fun r => r.acc == a.id && r.dst == l.dev && r.addr == l.line128.pa && !r.write with
  | some r => .sent (join r.tag)
  | none =>
    match if nc then none else s.cch.missFor a.h l with
    | some m => .sent (join m.tag)
    | none =>
      if !nc && !(s.cch.missRoom a.h) then .wait
      else match s.sendRemote 1 l.dev world 4 l.line128.pa 0 [] [] a.id bit false with
        | none => .trap s trapMemAbort 3 va
        | some t =>
          let m : Miss := { h := a.h, world := world, vline := va.toNat / 128, priv := pv, loc := l.line128, due := none,
                            tag := s.fab.nextTag, stale := false }
          .sent (if nc then t else { t with cch := { t.cch with misses := t.cch.misses ++ [m] } })

/-- A whole line of another device enters the L1. -/
def State.installL1 (s : State) (h world vline : Nat) (pv : Bool) (l : Loc) (bs : List Byte) : State :=
  let s := s.openL1 h world vline pv l
  { s with cch := s.cch.modL1 h l fun e =>
      { e with sectors := 15, bytes := putMasked e.bytes 0 (fun i => !(e.dirty.getLsbD i)) bs } }

/-- Go on with the line of another device once it is here; until then it is asked for. -/
def State.farBytes (s : State) (a : Access) (lane world : Nat) (va : W64) (pv nc : Bool) (l : Loc) (k : State → List Byte → LaneRes) :
    LaneRes :=
  match s.fab.lineFor a.id l with
  | some [] => .trap s trapMemAbort 3 va
  | some bs => k s bs
  | none => s.askRemote a lane world va pv nc l

/-- Go on when the L1 has the sector of a cached location, by its miss entries (R262, R266). -/
def State.inL1 (s : State) (a : Access) (lane world : Nat) (va : W64) (pv : Bool) (l : Loc) (k : State → LaneRes) : LaneRes :=
  if l.tgt = 2 then
    if s.cch.hasSector a.h l then k s
    else s.farBytes a lane world va pv false l fun s bs => k (s.installL1 a.h world (va.toNat / 128) pv l bs)
  else match s.askLine a.h world (va.toNat / 128) pv l with
    | .here => k s
    | .sent s => .held s
    | .waits => .wait

/-- Read bytes of one lane at a location, by the page's kind (R262, R344, R345). -/
def State.readLane (s : State) (a : Access) (g : Group) (p : Part) (lane : Nat) (va : W64) (pv : Bool) (l : Loc) (leaf : W64)
    (n : Nat) : LaneRes :=
  let seen := fun (s : State) (bs : List Byte) => LaneRes.got s (leNat (overlayAt g.gated l bs))
  match s.lineState l a.seq p.world with
  | .abort r => .trap s trapMemAbort r va
  | .waits => .wait
  | .good =>
    if l.tgt = 3 then
      (if meadowBusy (l.pa / 2 ^ 31) s.cycle (l.pa % 2 ^ 31) then .wait else .got s (leNat (s.homeRead l n)))
    else if leafNC leaf then
      (if l.tgt = 2 then s.farBytes a lane p.world va pv true l fun s bs => seen s ((bs.drop (l.pa % 128)).take n)
       else seen s (s.homeRead l n))
    else s.inL1 a lane p.world va pv l fun s =>
      let r := s.readL1 a.h p.world (va.toNat / 128) pv l n 0
      seen r.1 r.2

/-- Translate a lane's address for the access. -/
def State.transLane (s : State) (a : Access) (p : Part) (va : W64) (k : State → Loc → W64 → LaneRes) : LaneRes :=
  if !(canonical va) then .trap s trapAccess 2 va
  else match s.translate (stoveOf a.h) p.world va.toNat a.kind.need with
    | .fault kd lv => .fault kd lv va
    | .ok s l leaf => k s l leaf

/-- The address of word `i` of a lane (R172). -/
def privAddr (base i lane : Nat) : W64 := BitVec.ofNat 64 (base + 4 * (128 * i + lane))
/-- The address of an entry of a group's region area. -/
def regionAddr (p : Part) (g : Group) (e : Nat) : W64 := BitVec.ofNat 64 (privBaseOf p g - 16384 + 64 * e)

/-- The addresses of a lane's words. -/
def Access.vaOf (a : Access) (g : Group) (p : Part) (n : Nat) : List Nat :=
  let va := a.addrs.getD n 0
  match a.kind with
  | .ldPv | .stPv => (List.range (spanOf a.width)).map fun j => (privAddr (privBaseOf p g) (va.toNat + j) n).toNat
  | .regionRead | .regionWrite => [(regionAddr p g va.toNat).toNat]
  | _ => [va.toNat]

/-- Bytes that an access touches for each address. -/
def Access.span (a : Access) : Nat :=
  match a.kind with
  | .ldPv | .stPv => 4
  | .spawn => 128
  | .acq | .rel | .wmon => 8
  | _ => widthBytes a.width

/-- The 128-byte lines that a lane touches. -/
def Access.linesOf (a : Access) (g : Group) (p : Part) (n : Nat) : List Nat := (a.vaOf g p n).map fun x => x / 128

/-- Put a number into an ascending list without repeats. -/
def insertNat (n : Nat) : List Nat → List Nat
  | [] => [n]
  | x :: l => if n < x then n :: x :: l else if n = x then x :: l else x :: insertNat n l

/-- A request to the L1: a 128-byte line, and the sectors and bytes of it that the lanes touch (R265). -/
structure Request where
  line : Nat
  sectors : BitVec 4
  bytes : BitVec 128
  deriving DecidableEq, Repr

/-- The requests that lanes of an access are expanded into, in ascending line address (R265). -/
def Access.requests (a : Access) (g : Group) (p : Part) (m : LaneMask) : List Request :=
  let words := m.toList.flatMap fun n => a.vaOf g p n
  (words.foldl (fun l x => insertNat (x / 128) l) []).map fun line =>
    let mine := words.filter fun x => x / 128 == line
    { line := line
      sectors := mine.foldl (fun s x => s ||| BitVec.twoPow 4 (x % 128 / 32)) 0
      bytes := mine.foldl (fun b x => (List.range a.span).foldl (fun b i => b ||| BitVec.twoPow 128 (x % 128 + i)) b) 0 }

/-- The lanes of a mask whose requests have all been accepted, in the order of their lines. -/
def Access.admitted (a : Access) (g : Group) (p : Part) (m : LaneMask) : List Nat :=
  if !a.kind.viaL1 then m.toList
  else
    let ns := (m.toList.map fun n => (n, a.linesOf g p n)).filter fun x => x.2.all a.accepted.contains
    (ns.foldl (fun l x => insertNat ((x.2.getLast?).getD 0) l) []).flatMap fun line =>
      (ns.filter fun x => x.2.getLast? == some line).map fun x => x.1

/-- Requests of lanes of a mask that the L1 has not accepted yet. -/
def Access.unaccepted (a : Access) (g : Group) (p : Part) (m : LaneMask) : List Nat :=
  if !a.kind.viaL1 then [] else ((a.requests g p m).map fun r => r.line).filter fun x => !(a.accepted.contains x)

/-- Requests that a hearth's L1 has accepted in this cycle. -/
def Core.accepting (c : Core) (h : Nat) : Nat := ((c.requests.find? fun r => r.1 == h).map fun r => r.2).getD 0

/-- Records of the 32-byte sectors of a range of a location (R300). -/
def Group.recordSectors (g : Group) (seq kind : Nat) (l : Loc) (n : Nat) : Group :=
  (sectorsOf l.pa n).foldl (fun g x => g.record (g.late seq) kind ({ l with pa := 32 * x } : Loc).key 40) g

/-- Note what a lane consumed at an address: a record for each sector that no earlier lane of the access has consumed
(R300). -/
def State.noteRead (s : State) (a : Access) (g : Group) (p : Part) (va : Nat) (l : Loc) (n : Nat) : State :=
  if a.done.toList.any fun m => (a.vaOf g p m).any fun x => x / 32 == va / 32 then s
  else { s with core := s.core.modGroup a.h a.slot fun g => g.recordSectors a.seq 5 l n }

/-- Note the line that a split's global load touched, for a monitor armed later (R121). -/
def State.noteLine (s : State) (a : Access) (l : Loc) : State :=
  { s with core := s.core.modSplit a.h a.slot a.split fun e =>
      { e with loads := (l.line.key, s.cch.writes) :: e.loads.filter fun x => x.1 != l.line.key } }

/-- Note what a global load of a lane consumed. -/
def State.noteLoad (s : State) (a : Access) (g : Group) (p : Part) (va : Nat) (l : Loc) (n : Nat) : State :=
  (s.noteRead a g p va l n).noteLine a l

/-- A global load of one lane (R167, R168). -/
def State.loadLane (s : State) (a : Access) (g : Group) (p : Part) (lane : Nat) (va : W64) : LaneRes :=
  s.transLane a p va fun s l leaf =>
    match s.readLane a g p lane va false l leaf (widthBytes a.width) with
    | .got s x => .got (s.noteLoad a g p va.toNat l (widthBytes a.width)) x
    | r => r

/-- A global store of one lane: held until a checkpoint (R167, R279). -/
def State.storeLane (s : State) (a : Access) (p : Part) (va : W64) (x : Nat) : LaneRes :=
  s.transLane a p va fun s l leaf =>
    if l.tgt = 3 then .trap s trapMeadowWrite 0 va
    else
      let e : Gated := { seq := a.seq, split := a.split, world := p.world, va := va, tgt := l.tgt, dev := l.dev, pa := l.pa,
                         nc := leafNC leaf, bytes := natLe (widthBytes a.width) x }
      .got { s with core := s.core.modGroup a.h a.slot fun g =>
        { g.recordSectors a.seq 6 l (widthBytes a.width) with gated := g.gated ++ [e] } } 0

/-! ### Private words (R172, R267) -/

/-- Read one private word. -/
def State.privRead (s : State) (a : Access) (g : Group) (p : Part) (lane : Nat) (va : W64) : LaneRes :=
  s.transLane a p va fun s l leaf =>
    match s.readLane a { g with gated := [] } p lane va true l leaf 4 with
    | .got s x => .got (s.noteRead a g p va.toNat l 4) x
    | r => r

/-- Write bytes through a private line, recorded for the checkpoint; a line of another device that the L1 does not hold is
written at its home (R262, R300). -/
def State.privPut (s : State) (h slot seq world : Nat) (va : W64) (l : Loc) (leaf : W64) (bs : List Byte) (log : Bool) : State :=
  let bare := leafNC leaf || (l.tgt = 2 && !(s.cch.hasSector h l))
  let old := if bare then (s, s.homeRead l bs.length) else s.readL1 h world (va.toNat / 128) true l bs.length 0
  let s := if bare then s.sendHome world l (fun _ => true) bs (h + 1) else old.1.dirtyL1 h world (va.toNat / 128) true l bs
  if log then
    { s with core := s.core.modGroup h slot fun g =>
        g.undoBytes seq 1 (old.2.mapIdx fun i b => (va.toNat + i, b)) }
  else s

/-- Write private bytes that another device holds, whose old value has arrived. -/
def State.privFar (s : State) (h slot seq world : Nat) (va : W64) (l : Loc) (bs old : List Byte) : State :=
  let s := s.remoteWrite world l (fun _ => true) bs (h + 1)
  { s with core := s.core.modGroup h slot fun g => g.undoBytes seq 1 (old.mapIdx fun i b => (va.toNat + i, b)) }

/-- Write one private word. -/
def State.privWrite (s : State) (a : Access) (p : Part) (lane : Nat) (va : W64) (x : Nat) : LaneRes :=
  s.transLane a p va fun s l leaf =>
    let put := fun (s : State) => LaneRes.got (s.privPut a.h a.slot a.seq p.world va l leaf (natLe 4 x) true) 0
    if l.tgt = 3 then .trap s trapMeadowWrite 0 va
    else if !(leafNC leaf) then s.inL1 a lane p.world va true l put
    else if l.tgt = 2 then s.farBytes a lane p.world va true true l fun s bs =>
      .got (s.privFar a.h a.slot a.seq p.world va l (natLe 4 x) ((bs.drop (l.pa % 128)).take 4)) 0
    else put s

/-- A private access of one lane: one word, or two words of a .b64 form. -/
def State.privLane (s : State) (a : Access) (g : Group) (p : Part) (lane : Nat) (i : W64) (x : Nat) : LaneRes :=
  let at' := fun j => privAddr (privBaseOf p g) (i.toNat + j) lane
  let op := fun (s : State) (j : Nat) =>
    if a.kind == .stPv then s.privWrite a p lane (at' j) (x / 2 ^ (32 * j) % 2 ^ 32) else s.privRead a g p lane (at' j)
  match op s 0 with
  | .got s lo =>
    if a.width = 3 then match op s 1 with | .got s hi => .got s (lo + hi * 2 ^ 32) | r => r
    else .got s lo
  | r => r

/-! ### Atomics (R175 to R181, R274 to R276) -/

/-- Add one or two floats in a word (R178). -/
def faddWord (fn old x : Nat) : Nat :=
  if fn = 0 then (addFloat f32 0 old x).1
  else
    let F : FloatFmt := if fn = 1 then f16 else { ebits := 8, mbits := 7, bias := 127, inf := true }
    (addFloat F 0 (old % 65536) (x % 65536)).1 + 65536 * (addFloat F 0 (old / 65536) (x / 65536)).1

/-- The word of a sync object after an acquisition; none while it is busy (R183, R185). -/
def takeObject (w : Nat) (shared : Bool) : Option Nat :=
  if bitNat w 15 || (!shared && bitsNat w 31 16 != 0) then none
  else some (if shared then w + 2 ^ 16 else w + 2 ^ 15)

/-- The word of a sync object after a release by a group that holds it as `how` (R186). -/
def giveObject (w : Nat) (how : Option Bool) : Nat :=
  let rels := (bitsNat w 63 32 + 1) % 2 ^ 32
  let lo := w % 2 ^ 32
  let lo := match how with
    | some true => lo - (if bitNat lo 15 then 2 ^ 15 else 0)
    | some false => if bitsNat lo 31 16 = 0 then lo else lo - 2 ^ 16
    | none => lo
  rels * 2 ^ 32 + lo

/-- How a group holds an object, as a function number: 0 not at all, 1 exclusively, 2 shared. -/
def holdCode (how : Option Bool) : Nat :=
  match how with
  | none => 0
  | some true => 1
  | some false => 2
def holdOf (fn : Nat) : Option Bool := if fn = 1 then some true else if fn = 2 then some false else none

/-- The new word of an atomic (R176 to R178), and of an acquisition or a release of an object (R185, R186). -/
def atomNew (kind : AccKind) (fn w old x : Nat) : Nat :=
  match kind with
  | .acq => (takeObject old (fn == 1)).getD old
  | .rel => giveObject old (holdOf fn)
  | .atomCas => if old = x % 2 ^ (8 * w) then x / 2 ^ (8 * w) else old
  | .atomFadd => faddWord fn old x
  | _ => atomicFn fn (8 * w) old x

/-- Dirty bytes that the hearth and its stove hold of a line go to its home first, so that an agent's own accesses
stay in order (R167). -/
def State.pushLine (s : State) (h : Nat) (l : Loc) : State :=
  let s := match s.cch.l1.find? fun e => e.h == h && e.loc == l.line128 with
    | some e =>
      let t := s.writeBackL1 e
      { t with cch := t.cch.modL1 h l fun e => { e with dirty := 0 } }
    | none => s
  match s.cch.l2.find? fun e => e.stove == stoveOf h && e.loc == l.line with
  | some e =>
    let t := s.writeBackL2 e
    { t with cch := { t.cch with l2 := t.cch.l2.map fun x => if x == e then { x with dirty := 0 } else x } }
  | none => s

/-- The agent's own copies of bytes take what was written at their home. -/
def State.refreshCopies (s : State) (h : Nat) (l : Loc) (bs : List Byte) : State :=
  let s := s.updateL1 h l (fun _ => true) bs
  let upd := fun (e : L2Copy) =>
    if e.stove == stoveOf h && e.loc == l.line && !(e.bytes.isEmpty) then
      { e with bytes := putMasked e.bytes (l.pa % 256) (fun _ => true) bs } else e
  { s with cch := { s.cch with l2 := s.cch.l2.map upd } }

/-- The pending contributions of a word, in ascending key order (R180). -/
def insertKey (c : Contrib) : List Contrib → List Contrib
  | [] => [c]
  | d :: r => if decide (c.key ≤ d.key) then c :: d :: r else d :: insertKey c r

/-- Close the epoch of a word: its contributions in ascending key order (R180). -/
def Caches.closeWord (c : Caches) (l : Loc) (v : Nat) : Caches × Nat :=
  let mine := (c.contribs.filter fun x => x.loc == l).foldl (fun r x => insertKey x r) []
  ({ c with contribs := c.contribs.filter fun x => x.loc != l },
    mine.foldl (fun v x => (addFloat f32 0 v x.val.toNat).1) v)

/-- Record a contribution at its home, or spill it; refused when neither has room (R179, R181). -/
def State.contribute (s : State) (l : Loc) (key : List Nat) (x ovfn : Nat) : Option State :=
  let n := (s.cch.contribs.filter fun c => c.loc == l && c.key.dropLast == key).length
  let home := (s.cch.contribs.filter fun c => !c.spilled && homeStove c.loc.pa == homeStove l.pa && c.loc.tgt == l.tgt).length
  let spill := decide (Config.contributionCap ≤ home)
  let used := (s.cch.contribs.filter fun c => c.spilled && c.key.head? == key.head?).length
  if spill && decide (ovfn ≤ used) then none
  else
    let c : Contrib := { loc := l, key := key ++ [n], val := BitVec.ofNat 32 x, spilled := spill }
    some { s with cch := { s.cch with contribs := s.cch.contribs ++ [c] } }

/-- An atomic on a word of this device's memory-side unit or host port: the old word, or a refused contribution. -/
def State.atomHome (s : State) (kind : AccKind) (fn w : Nat) (l : Loc) (world : Nat) (key : List Nat) (ovfn x : Nat) :
    Option (State × Nat) :=
  let old := leNat (s.homeRead l w)
  match kind with
  | .atomOfa => (s.contribute l key x ovfn).map fun s => (s, 0)
  | .atomOclose =>
    let r := s.cch.closeWord l old
    some (({ s with cch := r.1 } : State).homeWrite l (natLe 4 r.2) world, r.2)
  | _ => some (s.homeWrite l (natLe w (atomNew kind fn w old x)) world, old)

/-- The placement allows the function (R274). -/
def placementOk (apl : Nat) (tgt : Nat) (kind : AccKind) (fn : Nat) : Bool :=
  match apl with
  | 0 => true
  | 1 => kind != .atomOfa && kind != .atomOclose
  | 2 => tgt == 1 && (kind == .atomCas || (kind == .atom && (fn == 0 || fn == 8)))
  | _ => false

/-- OP of an atomic request to another device: R88's function codes, and the model's for the others (log entry 31). -/
def atomOp (kind : AccKind) (fn : Nat) : Nat :=
  match kind with
  | .atomCas => 16
  | .atomFadd => 32 + fn
  | .atomOfa => 48
  | .atomOclose => 49
  | .acq => 50 + fn
  | .rel => 52 + fn
  | _ => fn

/-- The key of a contribution without its n (R179). -/
def contribKey (p : Part) (g : Group) (lane : Nat) : List Nat :=
  [p.launch, p.team, if p.image.stove then p.p else 0, g.num, lane]

/-- Send an atomic of a function to another device: one word of `w` bytes a flit, its operands in EXT (R373, R374; log entry 31). -/
def State.askWord (s : State) (a : Access) (g : Group) (p : Part) (lane : Nat) (l : Loc) (fn w x : Nat) : Option State :=
  let k := contribKey p g lane
  let ext := natLe 16 x ++ natLe 4 (k.getD 0 0) ++ natLe 4 (k.getD 1 0) ++ ((k.drop 2).flatMap fun n => natLe 1 n) ++ natLe 8 p.ovfn
  let keep := fun (t : State) => if a.kind == .atomOfa
    then { t with fab := { t.fab with ordered := ((p.launch, p.world, l) :: t.fab.ordered).eraseDups } } else t
  (s.sendRemote 3 l.dev p.world (atomOp a.kind fn) l.pa (LaneMask.build fun i => decide (i < w)) [] ext a.id
    (BitVec.twoPow 128 lane) true (a.h + 1)).map keep
/-- Send an atomic to another device. -/
def State.askAtomic (s : State) (a : Access) (g : Group) (p : Part) (lane : Nat) (l : Loc) (x : Nat) : Option State :=
  s.askWord a g p lane l a.func (widthBytes a.width) x

/-- An atomic in the hearth's L1 (R275). -/
def State.atomNear (s : State) (a : Access) (p : Part) (va : W64) (l : Loc) (x : Nat) : State × Nat :=
  let w := widthBytes a.width
  let r := s.readL1 a.h p.world (va.toNat / 128) false l w 0
  let old := leNat r.2
  let t := r.1.dirtyL1 a.h p.world (va.toNat / 128) false l (natLe w (atomNew a.kind a.func w old x))
  ({ t with cch := t.cch.note a.h l }, old)

/-- An atomic of one lane at its placement. -/
def State.atomLane (s : State) (a : Access) (g : Group) (p : Part) (lane : Nat) (va : W64) (x : Nat) : LaneRes :=
  s.transLane a p va fun s l leaf =>
    if l.tgt = 3 then .trap s trapMeadowWrite 0 va
    else if !(placementOk (leafApl leaf) l.tgt a.kind a.func) then .trap s trapAccess 5 va
    else match s.lineState l a.seq p.world with
    | .abort r => .trap s trapMemAbort r va
    | .waits => .wait
    | .good =>
      let noted := fun (s : State) => if a.dst.isEmpty then s else s.noteLoad a g p va.toNat l (widthBytes a.width)
      if leafApl leaf = 1 && !(leafNC leaf) then
        s.inL1 a lane p.world va false l fun s => let r := (noted s).atomNear a p va l x; .got r.1 r.2
      else
      let s := noted s
      if l.tgt = 2 then
        match s.askAtomic a g p lane l x with
        | some s => .sent s
        | none => .trap s trapMemAbort 3 va
      else if leafApl leaf = 2 && Config.freeNat s.cch.free % 2 = 1 then
        .trap { s with cch := { s.cch with free := s.cch.free + 1 } } trapMemAbort 4 va
      else
      let s := if leafApl leaf = 2 then { s with cch := { s.cch with free := s.cch.free + 1 } } else s
      match (s.pushLine a.h l).atomHome a.kind a.func (widthBytes a.width) l p.world (contribKey p g lane) p.ovfn x with
      | none => .trap s trapOrdered 0 va
      | some (t, old) => .got (t.refreshCopies a.h l (t.homeRead l (widthBytes a.width))) old

/-! ### Direct loads, prefetch, the meadow -/

/-- A lane of ld.gs: its bytes go to the scratchpad under code 000 (R174, R269). -/
def State.gsLane (s : State) (a : Access) (g : Group) (p : Part) (lane : Nat) (va : W64) (dst : Nat) : LaneRes :=
  match s.loadLane a g p lane va with
  | .got s x =>
    let w := widthBytes a.width
    let c := s.core.padWrite g a.seq 0 dst (natLe w x)
    let c := c.modPart p.id fun p => p.touch s.cycle a.off a.slot a.split g.num true (wordsOf dst w)
    .got { s with core := c } 0
  | r => r

/-- A prefetch of one lane: dropped unless its page is present (R166, R182). -/
def State.pfLane (s : State) (a : Access) (p : Part) (n : Nat) (va : W64) : LaneRes :=
  match s.translate (stoveOf a.h) p.world va.toNat .read with
  | .fault _ _ => .got s 0
  | .ok t l leaf =>
    if leafNC leaf || !l.cached || t.lineState l a.seq p.world != .good then .got t 0
    else if a.func = 0 then
      t.inL1 a n p.world va false l fun t => .got (t.readL1 a.h p.world (va.toNat / 128) false l 1 0).1 0
    else .got (t.touchL2 (stoveOf a.h) l p.world) 0

/-- A meadow load of one lane: it waits out its bank's window (R173), and uncorrectable data aborts it (R383, R387). -/
def State.mdLane (s : State) (a : Access) (g : Group) (p : Part) (off : W64) : LaneRes :=
  let d := dieOf a.h
  let l : Loc := { tgt := 3, dev := 0, pa := d * 2 ^ 31 + off.toNat }
  match s.lineState l a.seq p.world with
  | .abort r => .trap s trapMemAbort r off
  | .waits => .wait
  | .good =>
    if meadowBusy d s.cycle off.toNat then .wait
    else .got (s.noteRead a g p off.toNat l (widthBytes a.width)) (leNat (s.homeRead l (widthBytes a.width)))

/-! ### Sync objects, spawn and monitors -/

/-- The word of an object at its home, under the group's held stores. -/
def State.objectWord (s : State) (g : Group) (l : Loc) : Nat := leNat (overlayAt g.gated l (s.homeRead l 8))

/-- The split's wait in a state ends (R238). -/
def Core.wake (c : Core) (h slot split cycle : Nat) (st : SplitState) : Core :=
  if split = 4 then
    match c.group? h slot with
    | none => c
    | some g => c.modPart g.part fun p =>
        { p with handler := p.handler.map fun r => if r.wait.1 = st.code then { r with wait := (1, 0) } else r }
  else c.modSplit h slot split fun e => if e.state = st then e.enter cycle .ready 0 else e

/-- The lines that hold a byte of a region bound to an object (R280). -/
def State.covered (s : State) (p : Part) (obj : W64) : Cover := fun l =>
  (s.core.bindingsOf p).any fun b => b.1 == obj &&
    (List.range (ceilDiv (b.2.1 % 4096 + b.2.2) 4096)).any fun i =>
      let va := b.2.1 - b.2.1 % 4096 + 4096 * i
      match s.place (stoveOf p.h) p.world va .read with
      | none => false
      | some x => x.tgt == l.tgt && x.dev == l.dev && x.pa / 4096 == l.pa / 4096 &&
          regionsMeet (va + l.pa % 4096 - l.pa % 256) 256 b.2.1 b.2.2

/-- The group holds an object it has acquired, and its split goes on: an acquire at the object's scope has taken place in the same
step (R185). -/
def State.acquired (s : State) (a : Access) (p : Part) (obj : W64) (w : Nat) : State :=
  let t := s.acquire a.h (p.scopeOf (w % 8)) (s.covered p obj)
  let c := t.core.modGroup a.h a.slot fun g => { g with holds := g.holds ++ [(obj, a.func == 0)] }
  { t with core := c.wake a.h a.slot a.split t.cycle .longwait }

/-- How the group holds an object. -/
def Group.holdOf (g : Group) (obj : W64) : Option Bool := (g.holds.find? fun x => x.1 == obj).map fun x => x.2
/-- The group holds an object no more (R186). -/
def State.given (s : State) (a : Access) (obj : W64) : State :=
  { s with core := s.core.modGroup a.h a.slot fun g =>
    { g with holds := match g.holds.findIdx? fun x => x.1 == obj with | some i => g.holds.eraseIdx i | none => g.holds } }

/-- One atomic step on an object at its home, on this device or on another one (R185, R186, R373). -/
def State.objectLane (s : State) (a : Access) (g : Group) (p : Part) (obj : W64) (fn : Nat) (here : State → Loc → LaneRes) : LaneRes :=
  s.transLane a p obj fun s l _ =>
    if l.tgt = 3 then .trap s trapMeadowWrite 0 obj
    else match s.lineState l a.seq p.world with
    | .abort r => .trap s trapMemAbort r obj
    | .waits => .wait
    | .good =>
      if l.tgt = 2 then
        match s.askWord a g p 0 l fn 8 0 with
        | some s => .sent s
        | none => .trap s trapMemAbort 3 obj
      else here (s.pushLine a.h l) l

/-- An acquisition (R185): one atomic step at the object's home. -/
def State.acqLane (s : State) (a : Access) (g : Group) (p : Part) (obj : W64) : LaneRes :=
  s.objectLane a g p obj a.func fun s l =>
    let w := s.objectWord g l
    match takeObject w (a.func == 1) with
    | none => .wait
    | some x => .got (((s.homeWrite l (natLe 8 x) p.world).refreshCopies a.h l (natLe 8 x)).acquired a p obj w) 0

/-- The last step of a rel (R186). -/
def State.relLane (s : State) (a : Access) (g : Group) (p : Part) (obj : W64) : LaneRes :=
  s.objectLane a g p obj (holdCode (g.holdOf obj)) fun s l =>
    let x := giveObject (s.objectWord g l) (g.holdOf obj)
    .got (((s.homeWrite l (natLe 8 x) p.world).refreshCopies a.h l (natLe 8 x)).given a obj) 0

/-- SCOPE of the object a rel names; 6 when it cannot be read at once. -/
def State.relScope (s : State) (a : Access) (g : Group) (p : Part) : Nat :=
  p.scopeOf <| if a.kind != .rel then (if a.kind == .spawn then 4 else a.scope)
  else match s.peek (stoveOf a.h) p.world (a.addrs.headD 0).toNat 8 .read with
    | some bs => leNat (overlayGated g.gated (a.addrs.headD 0).toNat bs) % 8
    | none => 6

/-- Change a launch queue. -/
def Launching.modQueue (l : Launching) (func q : Nat) (f : LQueue → LQueue) : Launching :=
  { l with queues := l.queues.map fun x => if x.func == func && x.queue == q then f x else x }
/-- Records a queue holds (R320). -/
def LQueue.count (q : LQueue) : Nat := q.spawned.length + q.held.length + (if q.cur.isEmpty then 0 else 1)

/-- A spawn, once its record is read (R123). -/
def State.spawnLane (s : State) (a : Access) (g : Group) (p : Part) (va : W64) : LaneRes :=
  s.transLane a p va fun s l leaf =>
    match s.lineState l a.seq p.world with
    | .abort r => .trap s trapMemAbort r va
    | .waits => .wait
    | .good =>
      let have' := fun (k : State → List Byte → LaneRes) =>
        if l.tgt = 2 then s.farBytes a 0 p.world va false (leafNC leaf) l k
        else if l.tgt = 3 || leafNC leaf then k s []
        else s.inL1 a 0 p.world va false l fun s => k s []
      have' fun s line =>
      let r := if l.tgt = 2 then (s, line) else s.spawnBytes a.h p.world va.toNat l leaf
      let bs := overlayAt g.gated l r.2
      let s := (r.1).noteLoad a g p va.toNat l 128
      let q := leAt bs 104 1 % 64
      let w := leAt bs 106 1
      match s.lch.queue? p.func q with
      | none => .trap s trapAccess 9 va
      | some x =>
        if w ≠ p.world then .trap s trapWorld 0 (BitVec.ofNat 64 w)
        else if 256 ≤ x.count then
          (if a.split = 4 then .wait
           else if (g.split a.split).state == .longwait then .wait
           else .held { s with core := s.core.modSplit a.h a.slot a.split fun e => e.enter s.cycle .longwait 7 })
        else .got { s with lch := s.lch.modQueue p.func q fun x => { x with spawned := x.spawned ++ [bs] },
                           core := s.core.wake a.h a.slot a.split s.cycle .longwait } 0

/-- The home L2 a monitor of a line stands at (R264, R284). -/
def Loc.monitorHome (l : Loc) : Nat := if l.tgt = 0 then homeStove l.pa else 32 + l.tgt

/-- Arm a monitor at a line's home: one more waiter, or a new entry that may cost the home its oldest (R284). The
waiters that lose theirs are returned. -/
def Caches.arm (c : Caches) (l : Loc) (who : Option (Nat × Nat × Nat)) (remote : Option (Nat × Nat)) :
    Caches × List HomeMonitor :=
  let l := l.line
  if c.monitors.any fun m => m.loc == l then
    ({ c with monitors := c.monitors.map fun m =>
        if m.loc == l then { m with locals := m.locals ++ who.toList, remotes := m.remotes ++ remote.toList } else m }, [])
  else
    let e : HomeMonitor := { loc := l, locals := who.toList, remotes := remote.toList, rung := false }
    let here := c.monitors.filter fun m => m.loc.monitorHome == l.monitorHome
    if l.tgt = 0 && decide (Config.homeMonitors ≤ here.length) then
      ({ c with monitors := (c.monitors.filter fun m => some m != here.head?) ++ [e] }, here.take 1)
    else ({ c with monitors := c.monitors ++ [e] }, [])

/-- Send a flit that is no request: a response or a notice (R374). -/
def State.sendFlit (s : State) (type vc dst tag world pa : Nat) (data ext : List Byte) : State :=
  let f : Flit := { type := BitVec.ofNat 8 type, vc := BitVec.ofNat 8 vc, src := s.fab.device.getD 0, dst := dst,
                    tag := BitVec.ofNat 16 tag, world := world, op := 0, addr := BitVec.ofNat 64 pa, mask := 0,
                    data := data, ext := ext }
  { s with fab := { s.fab with out := s.fab.out ++ [f] } }

/-- Wake the waiters of home monitors: splits here, and other devices by a flit (R284, R373). -/
def State.wakeMonitors (s : State) (ms : List HomeMonitor) : State :=
  ms.foldl (fun s m =>
    let s := m.locals.foldl (fun (s : State) w =>
      { s with core := (s.core.modSplit w.1 w.2.1 w.2.2 fun e => { e with monitor := none }).wake w.1 w.2.1 w.2.2 s.cycle .longwait }) s
    m.remotes.foldl (fun (s : State) r =>
      s.sendFlit 11 1 r.1 r.2 0 m.loc.pa [] []) s) s

/-- Arm the monitor of a wmon, unless a write came after the split's latest load of the line (R121). -/
def State.wmonLane (s : State) (a : Access) (g : Group) (p : Part) (va : W64) : LaneRes :=
  s.transLane a p va fun s l _ =>
    let seen := ((g.split a.split).loads.find? fun x => x.1 == l.line.key).map fun x => x.2
    let wrote := (s.cch.wrote.filter fun x => x.1 == l.line).map fun x => x.2
    let near := (s.cch.near.filter fun x => x.1 == a.h && x.2.1 == l.line).map fun x => x.2.2
    let passed := match seen with | some n => (wrote ++ near).any fun m => decide (n < m) | none => false
    let lim := a.vals.headD 0
    if a.split = 4 || passed || !((g.split a.split).state == .longwait) then
      .got { s with core := s.core.wake a.h a.slot a.split s.cycle .longwait } 0
    else if l.tgt = 2 then
      match s.sendRemote 10 l.dev p.world 0 (l.pa - l.pa % 256) 0 [] [] a.id 1 false with
      | none => .trap s trapMemAbort 3 va
      | some t => .got { t with core := t.core.modSplit a.h a.slot a.split fun e =>
          { e with monitor := some (l.line.key, if lim = 0 then none else some (a.cycle + lim)) } } 0
    else
      let r := s.cch.arm l (some (a.h, a.slot, a.split)) none
      let c := s.core.modSplit a.h a.slot a.split fun e =>
        { e with monitor := some (l.line.key, if lim = 0 then none else some (a.cycle + lim)) }
      .got (({ s with cch := r.1, core := c } : State).wakeMonitors r.2) 0

/-- The scope of a bound object is checked once it can be read (R184). -/
def State.bindLane (s : State) (a : Access) (g : Group) (p : Part) (obj : W64) : LaneRes :=
  s.transLane a p obj fun s l leaf =>
    match s.readLane a g p 0 obj false l leaf 8 with
    | .got s x =>
      if scopeReserved (x % 8) then
        .trap { s with core := { s.core with parts := s.core.parts.map fun q => if q.launch != p.launch || q.team != p.team then q else
          { q with bindings := q.bindings.filter fun b => !(b == (obj, a.vals.getD 0 0, a.vals.getD 1 0)) } } } trapAccess 8 obj
      else .got s 0
    | r => r

/-! ### The region area (R242, R245) -/

/-- Write or read one entry, at its home; `x` holds the bytes to be written. -/
def State.regionLane (s : State) (a : Access) (g : Group) (p : Part) (lane : Nat) (e x : Nat) : LaneRes :=
  let va := regionAddr p g e
  s.transLane a p va fun s l lf =>
    let leaf := lf ||| 0x100
    if a.kind == .regionWrite then
      (if l.tgt = 3 then .trap s trapMeadowWrite 0 va
       else .got (s.privPut a.h a.slot a.seq p.world va l leaf (natLe 64 x) false) 0)
    else match s.readLane a g p lane va true l leaf 32, s.readLane a g p lane va true { l with pa := l.pa + 32 } leaf 32 with
      | .got _ lo, .got t hi => .got t (lo + hi * 2 ^ 256)
      | r, .got _ _ => r
      | _, r => r

/-- The 64 bytes of an entry, without a trace; zeros where they cannot be had. -/
def State.regionPeek (s : State) (g : Group) (p : Part) (e : Nat) : List Byte :=
  let va := regionAddr p g e
  match s.place (stoveOf g.h) p.world va.toNat .read with
  | none => List.replicate 64 0
  | some l => s.homeRead l 64

/-- The chain of spilled records from an entry: entries and identities. -/
def State.spillChain (s : State) (g : Group) (p : Part) : Nat → Nat → List (Nat × Nat)
  | 0, _ => []
  | n + 1, e =>
    let bs := s.regionPeek g p (e % 256)
    (e % 256, leAt bs 2 2) :: s.spillChain g p n (leAt bs 0 2)

/-- LINK as it was read names the side that is now the top of the stack: one that the group has deferred, or whatever stands at
that entry (R242, R245). -/
def Group.relink (g : Group) (link : Nat) : Group :=
  if link = 0xFFFF then { g with sides := [] }
  else match g.sides.dropWhile fun d => d.hdr != link % 256 with
    | [] => { g with sides := [{ hdr := link % 256, slo := 0, shi := 0, spill := [], ids := [], offset := 0, mask := 0,
                                 bank := List.replicate 16 0, born := none, stored := true }] }
    | l => { g with sides := l }

/-- A side's header as it stood in memory enters the split it was restored to (R245). -/
def State.restoreFrom (s : State) (a : Access) (g : Group) (p : Part) (hdr : List Byte) : State :=
  let e := g.split a.split
  let bank := [leAt hdr 40 2, leAt hdr 42 2].flatMap fun x =>
    let bs := s.regionPeek g p (x % 256)
    (List.range 8).map fun i => le64 bs (8 * i)
  let inl := leAt hdr 2 1
  let spn := leAt hdr 3 1
  let ids := (List.range (Nat.min inl 8)).map fun i => leAt hdr (24 + 2 * i) 2
  let own := e.spill.length = spn && (spn = 0 || e.spill.headD 0 = leAt hdr 44 2)
  let chain := if own then e.spill.zip (e.ids.drop 8) else s.spillChain g p spn (leAt hdr 44 2)
  let e' : SplitE := { e with offset := leAt hdr 4 4, mask := BitVec.ofNat 128 (leAt hdr 8 16), bank := bank,
                              ids := ids ++ chain.map (fun x => x.2), spill := chain.map fun x => x.1 }
  let c := s.core.modSplit a.h a.slot a.split fun _ => e'
  let c := if leAt hdr 0 2 = a.vals.headD 0xFFFF then c else c.modGroup a.h a.slot fun g => g.relink (leAt hdr 0 2)
  let x : Ctx := { c.ctx with h := a.h, slot := a.slot, split := a.split, off := e'.offset }
  let trap := fun (t : TrapInfo) => match c.group? a.h a.slot with
    | none => c
    | some g => c.raise g (t.event x 0 s.cycle)
  let c := if leAt hdr 46 18 ≠ 0 || 8 < inl then trap (trapOf trapReservedField e'.mask (11 + 46 * 8 % 64 * 256) 0)
    else if e'.offset ≠ e.offset && !(s.landing p e'.offset) then trap (trapOf trapBadTarget e'.mask e'.offset 0)
    else c
  { s with core := c }

/-- Spilled records come back into a split that has popped `a.arg` records: the first becomes record 7 at the first pop and moves
up with each further one (R243, R245). -/
def State.recordBack (s : State) (a : Access) : State :=
  { s with core := s.core.modSplit a.h a.slot a.split fun e =>
      { e with ids := a.got.zipIdx.foldl (fun ids x =>
          if a.arg ≤ 8 + x.2 then ids.set (8 + x.2 - a.arg) (leAt (natLe 64 x.1) 2 2) else ids) e.ids } }

/-- What the region reads of an access do once all are there. -/
def State.regionDone (s : State) (a : Access) : State :=
  match s.core.group? a.h a.slot with
  | none => s
  | some g =>
    match s.core.part? g.part with
    | none => s
    | some p =>
      let first := natLe 64 (a.got.headD 0)
      if a.kind != .regionRead then s
      else if a.arg = 0 then s.restoreFrom a g p first
      else s.recordBack a

/-! ### One access -/

/-- Carry out one lane, or one entry, of an access. -/
def State.laneOf (s : State) (a : Access) (g : Group) (p : Part) (n : Nat) : LaneRes :=
  let va := a.addrs.getD n 0
  let x := a.vals.getD n 0
  match a.kind with
  | .ldG => s.loadLane a g p n va
  | .ldSc => s.loadLane a g p n va
  | .stG => s.storeLane a p va x
  | .stSc => s.storeLane a p va x
  | .ldPv => s.privLane a g p n va x
  | .stPv => s.privLane a g p n va x
  | .ldMd => s.mdLane a g p va
  | .ldGs => s.gsLane a g p n va x
  | .atom => s.atomLane a g p n va x
  | .atomCas => s.atomLane a g p n va x
  | .atomFadd => s.atomLane a g p n va x
  | .atomOfa => s.atomLane a g p n va x
  | .atomOclose => s.atomLane a g p n va x
  | .pf => s.pfLane a p n va
  | .acq => s.acqLane a g p va
  | .rel => s.relLane a g p va
  | .fence => .got s 0
  | .spawn => s.spawnLane a g p va
  | .wmon => s.wmonLane a g p va
  | .bind => s.bindLane a g p va
  | .regionWrite => s.regionLane a g p n va.toNat x
  | .regionRead => s.regionLane a g p n va.toNat x
  | .flueWait => .wait

/-- A pass over the lanes of an access: the state, the access, and the traps met. -/
structure Pass where
  s : State
  a : Access
  traps : List (Nat × Nat × Nat × W64)

/-- One lane of a pass; what a discarded run of the op has done stands (R301). -/
def Pass.lane (q : Pass) (n : Nat) : Pass :=
  match q.s.core.group? q.a.h q.a.slot with
  | none => q
  | some g =>
    match q.s.core.part? g.part with
    | none => q
    | some p =>
      let bit := BitVec.twoPow 128 n
      let stands := fun (s : State) (a : Access) => { q with s := s, a := { a with todo := a.todo &&& ~~~bit, walked := a.walked ||| bit } }
      if q.a.done.has n then
        stands (if q.a.kind.once then { q.s with core := q.s.core.wake q.a.h q.a.slot q.a.split q.s.cycle .longwait } else q.s) q.a
      else if q.a.lost.has n then
        { stands q.s q.a with traps := q.traps ++ [(n, trapMemAbort, 3, q.a.addrs.getD n 0)] }
      else match q.s.laneOf q.a g p n with
      | .got s x => stands s { q.a with done := q.a.done ||| bit, got := q.a.got.set n x }
      | .sent s => { q with s := s, a := { q.a with remote := q.a.remote ||| bit, walked := q.a.walked ||| bit } }
      | .held s => { q with s := s, a := { q.a with walked := q.a.walked ||| bit } }
      | .fault kd lv va =>
        let r : FaultReq := { id := q.a.id, va := va, world := p.world, kind := kd, acc := q.a.kind.cls, level := lv }
        let dup := q.s.cch.faultq.any fun e => e.id == r.id && e.va.toNat / 4096 == va.toNat / 4096
        { q with
          s := { q.s with cch := { q.s.cch with faultq := if dup then q.s.cch.faultq else q.s.cch.faultq ++ [r] } }
          a := { q.a with faulted := q.a.faulted ||| bit, todo := q.a.todo &&& ~~~bit } }
      | .trap s code i1 va =>
        { q with s := s, a := { q.a with todo := q.a.todo &&& ~~~bit }, traps := q.traps ++ [(n, code, i1, va)] }
      | .wait => { q with a := { q.a with walked := q.a.walked ||| bit } }

/-- The traps of a pass, one event for each cause, its lowest lane's address in INFO0 (R287). -/
def State.passTraps (s : State) (a : Access) (l : List (Nat × Nat × Nat × W64)) : State :=
  ((l.map fun t => (t.2.1, t.2.2.1)).eraseDups).foldl (fun s k =>
    let own := l.filter fun t => (t.2.1, t.2.2.1) == k
    let m := LaneMask.build fun n => own.any fun t => t.1 == n
    { s with core := s.core.trapAfter a (a.lanesOf m) k.1 ((own.head?.map fun t => t.2.2.2.toNat).getD 0) k.2 s.cycle }) s

/-- Nothing of the access is left to do. -/
def Access.finished (a : Access) : Bool := a.todo == 0 && a.faulted == 0 && a.remote == 0

/-- The register writes of a finished load (R163, R167). -/
def Access.writes (a : Access) : List RegWrite :=
  match a.kind with
  | .ldSc => match a.dst with
    | [r] => if a.done = 0 then [] else [.scalar r (BitVec.ofNat 64 (extendLoad a.width a.sx 64 (a.got.headD 0)))]
    | _ => []
  | _ => if a.done = 0 then [] else a.dst.zipIdx.filterMap fun e => match e.1 with
    | .v n => some (.lanes n a.done (Vec.build fun i =>
        BitVec.ofNat 32 (extendLoad a.width (a.sx && a.kind != .atom && a.kind != .atomFadd) (32 * a.dst.length)
          (a.got.getD i 0) >>> (32 * e.2))))
    | _ => none

/-- What an op returned is kept in the read log until its interval's checkpoint closes (R301). -/
def Core.keepAnswer (c : Core) (a : Access) : Core :=
  if !a.kind.answered || a.done == 0 then c else c.modGroup a.h a.slot fun g => { g with answers := g.answers ++ [a] }

/-- An access whose last lane is decided: a result lands in the next cycle, anything else is over (R297). -/
def State.settle (s : State) (a : Access) : State :=
  if !a.finished then { s with core := s.core.modAccess a.id fun _ => a }
  else if a.dst.isEmpty && a.kind != .ldGs then
    let s := s.regionDone a
    { s with core := (s.core.dropAccess a.id).keepAnswer a }
  else { s with core := s.core.modAccess a.id fun _ => { a with due := some (s.cycle + 1) } }

/-- The lanes of an access that neither are done nor wait for another device. -/
def Access.left (a : Access) : LaneMask := a.todo &&& ~~~a.remote

/-- The hearth's L1 accepts requests of an access, in ascending line address, as far as the cycle allows (R265, R341). -/
def State.acceptRequests (s : State) (a : Access) (g : Group) (p : Part) : State × Access :=
  let new := (a.unaccepted g p a.left).take (Config.acceptWidth - s.core.accepting a.h)
  if new.isEmpty then (s, a)
  else
    let n := s.core.accepting a.h + new.length
    ({ s with core := { s.core.countGroup g 0x09 new.length with requests := (a.h, n) :: s.core.requests.filter fun r => r.1 != a.h } },
      { a with accepted := a.accepted ++ new })

/-- The tier that serves a load's request for the line at an address: the L1, the stove's L2, the home's L2, or memory (R343). -/
def State.tierOf (s : State) (h world va : Nat) : Option Nat :=
  match s.translate (stoveOf h) world va .read with
  | .fault _ _ => none
  | .ok s l leaf =>
    let held := fun (st : Nat) => s.cch.l2.any fun e => e.stove == st && e.loc == l.line
    let memory := if l.tgt = 2 then 6 else if l.tgt = 1 then 5 else if l.pa < ddrBase then 3 else 4
    if leafNC leaf then some memory
    else if s.cch.hasSector h l then some 0
    else if l.tgt = 2 then some 6
    else if held (stoveOf h) then some 1
    else if l.tgt = 0 && held (homeStove l.pa) then some 2
    else some memory

/-- A sampled load whose first request is accepted: the tier that serves it (R343; log entry 51). -/
def State.noteTier (s : State) (a : Access) (world : Nat) : State :=
  match a.accepted.head? with
  | none => s
  | some line =>
    if !(a.kind == .ldG || a.kind == .ldSc || a.kind == .ldPv) || !(s.core.samples.any fun m => m.acc == a.id && m.tier.isNone) then s
    else
      let t := s.tierOf a.h world (128 * line)
      { s with core := { s.core with samples := s.core.samples.map fun m => if m.acc = a.id && m.tier.isNone then { m with tier := t } else m } }

/-- The bank of a side that was restored in the cycle of its deferral, for the entries that hold it. -/
def Core.bornBank (c : Core) (g : Group) (a : Access) (e : W64) : Option (List Byte) :=
  (c.accs.find? fun r => r.kind == .regionRead && r.h == a.h && r.slot == a.slot && r.arg == 0 && r.addrs.contains e &&
      (g.split r.split).born == some (a.split, a.cycle)).bind fun r =>
    let bank := (g.split r.split).bank
    if r.addrs[1]? == some e then some ((bank.take 8).flatMap fun x => natLe 8 x.toNat)
    else if r.addrs[2]? == some e then some ((bank.drop 8).flatMap fun x => natLe 8 x.toNat) else none

/-- What a region write puts into its entries, as it stands after the writes that land in the cycle of the issue (R239). -/
def State.withRegion (s : State) (a : Access) : Access :=
  if a.kind != .regionWrite || a.cycle != s.cycle then a
  else match s.core.group? a.h a.slot with
    | none => a
    | some g => { a with vals := a.addrs.zipIdx.map fun e => match (g.areaBytes e.1.toNat).orElse fun _ => s.core.bornBank g a e.1 with
        | some bs => leNat bs
        | none => a.vals.getD e.2 0 }

/-- Try every lane that is still to be done; an acquire reads at its point of coherence (R280, R296, R297). -/
def State.bindPass (s : State) (a : Access) : State :=
  let a := s.withRegion (if a.got.isEmpty then { a with got := List.replicate a.addrs.length 0 } else a)
  match s.core.group? a.h a.slot with
  | none => s.settle a
  | some g => match s.core.part? g.part with
    | none => s.settle a
    | some p =>
      let s := if a.acquires then s.acquire a.h (p.scopeOf a.scope) else s
      let r := s.acceptRequests a g p
      let q := (r.2.admitted g p a.left).foldl Pass.lane ({ s := r.1.noteTier r.2 p.world, a := r.2, traps := [] } : Pass)
      (q.s.passTraps q.a q.traps).settle q.a

/-! ### When an access may go on -/

/-- Every access of the split issued before is decided. -/
def Core.earlierBound (c : Core) (a : Access) (loads : Bool) : Bool :=
  !(c.accs.any fun b => b.h == a.h && b.slot == a.slot && b.split == a.split && decide (b.seq < a.seq) && b.due.isNone &&
    (!loads || (b.kind.need == .read)))

/-- The named tags of a rel or fence are complete (R186, R187). -/
def Access.tagsDone (a : Access) (g : Group) : Bool :=
  (List.range 16).all fun n => !(bitNat a.arg n) || (g.tag n).count == 0
def Access.tagFailed (a : Access) (g : Group) : Bool :=
  (List.range 16).any fun n => bitNat a.arg n && (g.tag n).failed.isSome

/-- A release needs a checkpoint first: the group holds stores and the scope is team or wider (R279). -/
def needsCheckpoint (g : Group) (a : Access) (scope : Nat) : Bool :=
  (a.kind == .rel || a.kind == .fence) && decide (2 ≤ scope) && g.gated.any fun e => decide (e.seq ≤ a.seq)

/-- The release of an access may begin: tags complete, earlier accesses decided, held stores released. -/
def State.releaseReady (s : State) (a : Access) (g : Group) (p : Part) : Bool :=
  s.core.earlierBound a false &&
  (!(a.kind == .rel || a.kind == .fence) || (a.tagsDone g && !a.tagFailed g)) &&
  !(needsCheckpoint g a (s.relScope a g p))

/-- Every lane of an access whose requests are accepted waits for something else: a refresh window, a line, an object, queue
space. -/
def State.allWait (s : State) (a : Access) (g : Group) (p : Part) : Bool :=
  (a.admitted g p a.left).all fun n => match s.laneOf a g p n with | .wait => true | _ => false

/-- The region area is written before it is read (R245). -/
def Core.regionAfter (c : Core) (a : Access) : Bool :=
  a.kind == .regionRead && c.accs.any fun b => b.kind == .regionWrite && b.h == a.h && b.slot == a.slot && decide (b.seq ≤ a.seq)

/-- An access can go on now. -/
def State.workable (s : State) (a : Access) : Bool :=
  !(s.core.regionAfter a) && decide (a.ready ≤ s.cycle) && a.due.isNone && a.kind != .flueWait && a.left != 0 &&
  match s.core.group? a.h a.slot with
  | none => false
  | some g =>
    match s.core.part? g.part with
    | none => false
    | some p =>
      if a.releases && a.stage == 0 then s.releaseReady a g p
      else a.stage != 1 && (!(a.releases) || a.stage == 2) &&
        (!(a.kind == .fence) || (a.tagsDone g && !a.tagFailed g)) && (!a.afterReads || s.core.earlierBound a true) &&
        ((!(a.unaccepted g p a.left).isEmpty && decide (s.core.accepting a.h < Config.acceptWidth)) ||
          (a.admitted g p (a.left &&& ~~~a.walked)).any (fun _ => true) || !(s.allWait a g p))

/-- An access to the region area. -/
def Access.ofRegion (a : Access) : Bool := a.kind == .regionWrite || a.kind == .regionRead

/-- The access that goes on next, in the order of arrival (R265). -/
def State.nextAccess (s : State) : Option Access :=
  (s.core.accs.filter fun a => !a.ofRegion && s.workable a).foldl (fun b a => match b with
    | none => some a
    | some x => if a.ready < x.ready then some a else some x) none

/-- The first access to the region area that can go on: after the results that land in the cycle (R239). -/
def State.regionDue (s : State) : Option Access := s.core.accs.find? fun a => a.ofRegion && s.workable a

/-- One step of an access: its release, which from device scope on waits for the homes (R280), or a pass over its
lanes. -/
def State.bindAccess (s : State) (a : Access) : State :=
  if a.releases && a.stage == 0 then
    match s.core.group? a.h a.slot with
    | none => s
    | some g =>
      match s.core.part? g.part with
      | none => s
      | some p =>
        let sc := s.relScope a g p
        let t := if a.kind == .rel then s.release a.h sc (s.covered p (a.addrs.headD 0)) else s.release a.h sc
        { t with core := t.core.modAccess a.id fun a => { a with stage := if 4 ≤ sc then 1 else 2 } }
  else s.bindPass a

/-- R296 walkComplete: the first access that can go on is translated and carried out as far as its pages allow. -/
def execWalkComplete (s : State) : Host.Outcome State Fault Refusal :=
  .next (match s.nextAccess.orElse fun _ => s.regionDue with | some a => s.bindAccess a | none => s)

/-- Accesses to the region area that a boundary has begun are carried out, at most `n`. -/
def State.walkRegions (s : State) : Nat → State
  | 0 => s
  | n + 1 => match s.regionDue with
    | some a => (s.bindAccess a).walkRegions n
    | none => s

/-- An access whose push the homes have confirmed: from domain scope on, every remote write too (R280, R375). -/
def State.pushDue (s : State) : Option Access :=
  s.core.accs.find? fun a => a.stage == 1 &&
    match s.core.group? a.h a.slot with
    | none => true
    | some g => match s.core.part? g.part with
      | none => true
      | some p => decide (s.relScope a g p < 5) || !(s.fab.remotes.any fun r => r.write)

/-- R280 releasePushComplete. -/
def execReleasePushComplete (s : State) : Host.Outcome State Fault Refusal :=
  .next (match s.pushDue with
    | some a => { s with core := s.core.modAccess a.id fun a => { a with stage := 2 } }
    | none => s)

/-- The first meadow load whose bank has left its window (R272). -/
def State.windowDue (s : State) : Option Access :=
  s.core.accs.find? fun a => a.kind == .ldMd && s.workable a

/-- R272 meadowRefreshWindow: the reads that waited go on. -/
def execMeadowRefreshWindow (s : State) : Host.Outcome State Fault Refusal :=
  .next (match s.windowDue with | some a => s.bindAccess a | none => s)

/-! ### Replays (R297, R298) -/

/-- Faulted lanes with a word in one of the pages. -/
def Access.inPages (a : Access) (g : Group) (p : Part) (pages : List Nat) : LaneMask :=
  LaneMask.build fun n => a.faulted.has n && (a.vaOf g p n).any fun x => pages.contains (x / 4096)

/-- R297 loggedReplay: lanes whose pages were answered as mapped walk again from the operand log. -/
def execLoggedReplay (s : State) : Host.Outcome State Fault Refusal :=
  .next (match s.core.accs.find? fun a => !a.replay.isEmpty with
    | none => s
    | some a =>
      match s.core.group? a.h a.slot with
      | none => { s with core := s.core.dropAccess a.id }
      | some g =>
        match s.core.part? g.part with
        | none => { s with core := s.core.dropAccess a.id }
        | some p =>
          let m := a.inPages g p a.replay
          let a := { a with replay := [], faulted := a.faulted &&& ~~~m, todo := a.todo ||| m }
          ({ s with core := s.core.modAccess a.id fun _ => a } : State).bindPass a)

/-- Faulted lanes of a page are answered with a trap: they are decided (R297). -/
def State.failLanes (s : State) (a : Access) (page code i1 : Nat) : State :=
  match s.core.group? a.h a.slot with
  | none => { s with core := s.core.dropAccess a.id }
  | some g =>
    match s.core.part? g.part with
    | none => { s with core := s.core.dropAccess a.id }
    | some p =>
      let m := a.inPages g p [page]
      let va := ((m.lowest.map fun n => a.vaOf g p n).bind fun l => l.find? fun x => x / 4096 == page).getD 0
      let mask := if a.kind.cls = 4 then (g.split a.split).mask else a.lanesOf m
      let t : State := if m = 0 then s else { s with core := s.core.trapAfter a mask code va i1 s.cycle }
      t.settle { a with faulted := a.faulted &&& ~~~m }

/-! ### Direct loads arrive (R174) -/

/-- The first ld.gs whose last lane is written. -/
def State.gsDue (s : State) : Option Access :=
  s.core.accs.find? fun a => a.kind == .ldGs && (match a.due with | some d => decide (d ≤ s.cycle) | none => false)

/-- R174 ldGsArrival: one more arrival at the barrier. -/
def execLdGsArrival (s : State) : Host.Outcome State Fault Refusal :=
  .next (match s.gsDue with
    | none => s
    | some a =>
      let c := s.core.dropAccess a.id
      { s with core := match s.core.group? a.h a.slot with
        | none => c
        | some g => match s.core.part? g.part with
          | none => c
          | some p => c.modPart (c.barHome p a.arg) fun p =>
              { p with bars := p.bars.modify a.arg fun b => { b with arrived := b.arrived + 1 } } })

end Sys2Proof.Machine
end

