-- ==== Sys2Proof/Machine/Engine.lean ====
section
/-! DEFINITION. The A slot: operand forms (R188), order tags (R189 to R191), the range scoreboard (R192), copies, gathers
and scatters (R193, R194), collectives (R195 to R197), tensor loads (R198), flues (R199 to R201), and the engines that
carry them out. -/

namespace Sys2Proof.Machine

/-! ### Operand forms (R89, R188) -/

/-- What OPC0 to OPC2 of an A op hold. -/
inductive AUse where
  | none
  /-- A source; the literal stands for the last one. -/
  | src
  /-- A destination. -/
  | dst
  /-- An entry number. -/
  | num
  deriving DecidableEq, Repr

/-- An A op's form. -/
structure ASpec where
  uses : List AUse
  funcs : Nat → Bool := fun n => n == 0
  immediate : Bool := false

/-- The operand that a routed literal replaces. -/
def ASpec.lastSrc (sp : ASpec) : Option Nat := ((List.range 3).filter fun i => sp.uses.getD i .none == .src).getLast?

/-- Operand fields of an A op. -/
def opcField (f : AFields) (i : Nat) : Nat :=
  match i with
  | 0 => f.opc0.toNat
  | 1 => f.opc1.toNat
  | _ => f.opc2.toNat
/-- Consumed-tag fields. -/
def ctagField (f : AFields) (i : Nat) : Nat :=
  match i with
  | 0 => f.ctag0.toNat
  | 1 => f.ctag1.toNat
  | _ => f.ctag2.toNat

/-- An operand field is not what the op needs. -/
def opcBad (v : View) (sp : ASpec) (f : AFields) (i : Nat) : Bool :=
  match sp.uses.getD i .none with
  | .none => opcField f i != 0
  | .src => if v.routed .a && sp.lastSrc == some i then opcField f i != 0 else !isSA (opcField f i)
  | .dst => !isSA (opcField f i)
  | .num => false

/-- The reserved values of an A op (R88, R89). -/
def aBad (sp : ASpec) (f : AFields) (v : View) : Option Nat :=
  let n := if sp.immediate then 0 else f.ntag.toNat
  firstBad ([sqBad f.hdr, (opcBad v sp f 0, 14), (opcBad v sp f 1, 20), (opcBad v sp f 2, 26),
    (sp.immediate && f.ntag != 0, 48), (!sp.funcs f.func.toNat, 50), (f.rsv != 0, 54)] ++
    (List.range 3).map fun i => (decide (n ≤ i) && ctagField f i != 0, 36 + 4 * i))

/-- A source of an A op: a register, or the literal in its place. -/
def View.aVal (v : View) (sp : ASpec) (f : AFields) (i : Nat) : W64 :=
  if v.routed .a && sp.lastSrc == some i then v.literal .a else v.scalar (opcField f i)

/-- The flue that FUNC names (R199). -/
def flueNum (f : AFields) : Nat := f.func.toNat % 8

/-! ### Queueing (R188, R189) -/

/-- Tags an op consumes. -/
def consumed (f : AFields) : List Nat := ((List.range 3).map (ctagField f)).take f.ntag.toNat

/-- The first failure among tags. -/
def Group.tagFailure (g : Group) (tags : List Nat) : Option (Nat × Nat × W64) :=
  tags.findSome? fun n => (g.tag n).failed

/-- Change a tag. -/
def Group.modTag (g : Group) (n : Nat) (f : Tag → Tag) : Group := { g with tags := g.tags.modify n f }

/-- Queue an op: its tag's count rises, and it waits for the producers issued before of the tags it consumes; with
one of those failed it fails too (R189, R191). -/
def View.queueOp (v : View) (f : AFields) (kind : EngKind) (o : List W64) (ranges : List (Nat × Nat)) : Core :=
  let c := v.st.core
  let prod := c.engs.filter fun e => e.h == v.x.h && e.slot == v.x.slot && (consumed f).contains e.otag
  let bad := v.g.tagFailure (consumed f)
  let e : EngOp := { id := c.seq, kind := kind, h := v.x.h, slot := v.x.slot, split := v.x.split,
                     off := match bad with | some b => b.2.1 | none => v.x.off,
                     seq := v.x.seq, cycle := v.st.cycle, func := f.func.toNat, o0 := o.getD 0 0, o1 := o.getD 1 0,
                     o2 := o.getD 2 0, otag := f.otag.toNat, ctags := consumed f, waits := prod.map fun e => e.id,
                     ranges := ranges, started := false, done := 0, due := 0, wait := 0,
                     failed := bad.map fun b => (b.1, b.2.2) }
  ({ c with engs := c.engs ++ [e], seq := c.seq + 1 } : Core).modGroup v.x.h v.x.slot fun g =>
    g.modTag f.otag.toNat fun t => { t with count := t.count + 1 }

/-- A trap at issue of an A op. -/
def aTrap (code : Nat) (act : LaneMask) (i0 i1 : Nat) : OpResult := .trap (trapOf code act i0 i1) 0
/-- RESERVED_FIELD for an operand of the A slot. -/
def View.aReserved (v : View) (act : LaneMask) (bit : Nat) : OpResult := .trap (v.reserved 2 act bit) 0
/-- A scratchpad range leaves SCRATCH. -/
def View.beyond (v : View) (off n : Nat) : Bool := decide (v.p.image.scratch < off + n)

/-! ### Copies (R193) -/

/-- The form of a copy. -/
def copySpec : ASpec := { uses := [.src, .src, .src] }

/-- Some unit of a meadow range is not the world's (R332). -/
def View.unitsBad (v : View) (off n : Nat) : Bool :=
  (List.range (ceilDiv (off % 2 ^ 24 + n) (2 ^ 24))).any fun i => !(v.st.hst.ownsUnit (dieOf v.x.h) (off / 2 ^ 24 + i) v.p.world)

/-- A copy: alignment, limit, and the ranges it reaches (R193). `pads` are its scratchpad operands. -/
def View.copyOp (v : View) (act : LaneMask) (f : AFields) (kind : EngKind) (limit : Nat) (pads : List Nat) : OpResult :=
  let o := (List.range 3).map (v.aVal copySpec f)
  let n := (o.getD 2 0).toNat
  let at' := fun i => (o.getD i 0).toNat
  if at' 0 % 16 ≠ 0 then aTrap trapMisalign act (at' 0) 0
  else if at' 1 % 16 ≠ 0 then aTrap trapMisalign act (at' 1) 0
  else if n % 16 ≠ 0 then aTrap trapMisalign act n 0
  else if n = 0 then .ok v.st.core
  else if limit < n then v.aReserved act 26
  else match pads.find? fun i => v.beyond (at' i) n with
    | some i => aTrap trapAccess act (at' i) 3
    | none =>
      if kind = .cpMs && decide (2 ^ 31 < at' 1 + n) then aTrap trapAccess act (at' 1) 4
      else if kind = .cpMs && v.unitsBad (at' 1) n then aTrap trapAccess act (at' 1) 1
      else .ok (v.queueOp f kind o (pads.map fun i => (at' i, n)))

/-- R193 cp.gs. -/
def execCpGs (f : AFields) (s : State) : Host.Outcome State Fault Refusal :=
  coreOp s fun s => slotOp s .a f.hdr (aBad copySpec f) (fun v act => v.copyOp act f .cpGs 1048576 [0])
/-- R193 cp.sg. -/
def execCpSg (f : AFields) (s : State) : Host.Outcome State Fault Refusal :=
  coreOp s fun s => slotOp s .a f.hdr (aBad copySpec f) (fun v act => v.copyOp act f .cpSg 1048576 [1])
/-- R193 cp.gg. -/
def execCpGg (f : AFields) (s : State) : Host.Outcome State Fault Refusal :=
  coreOp s fun s => slotOp s .a f.hdr (aBad copySpec f) (fun v act => v.copyOp act f .cpGg (2 ^ 32 - 16) [])
/-- R193 cp.ms. -/
def execCpMs (f : AFields) (s : State) : Host.Outcome State Fault Refusal :=
  coreOp s fun s => slotOp s .a f.hdr (aBad copySpec f) (fun v act => v.copyOp act f .cpMs 1048576 [0])

/-! ### Gathers and scatters (R194) -/

/-- COUNT + 1 rows, row bytes and list offset of a descriptor. -/
def gatherRows (d : Nat) : Nat := bitsNat d 35 20 + 1
def gatherList (d : Nat) : Nat := bitsNat d 19 0
def gatherSize (func : Nat) : Nat := 16 * 2 ^ func

/-- A gather or scatter: its list and its scratchpad rows lie within SCRATCH (log entry 32). -/
def View.gatherOp (v : View) (act : LaneMask) (f : AFields) (kind : EngKind) (pad : Nat) : OpResult :=
  let o := (List.range 3).map (v.aVal copySpec f)
  let d := (o.getD 2 0).toNat
  let rows := (o.getD pad 0).toNat
  if d / 2 ^ 36 ≠ 0 then .trap (v.reserved 2 act (operandBit + 36)) 0
  else if gatherList d % 4 ≠ 0 then aTrap trapMisalign act (gatherList d) 0
  else if v.beyond (gatherList d) (4 * gatherRows d) then aTrap trapAccess act (gatherList d) 3
  else if v.beyond rows (gatherRows d * gatherSize f.func.toNat) then aTrap trapAccess act rows 3
  else .ok (v.queueOp f kind o [(rows, gatherRows d * gatherSize f.func.toNat), (gatherList d, 4 * gatherRows d)])

/-- The form of gth and sct. -/
def gatherSpec : ASpec := { copySpec with funcs := fun n => decide (n ≤ 12) }

/-- R194 gth. -/
def execGth (f : AFields) (s : State) : Host.Outcome State Fault Refusal :=
  coreOp s fun s => slotOp s .a f.hdr (aBad gatherSpec f) (fun v act => v.gatherOp act f .gth 0)
/-- R194 sct. -/
def execSct (f : AFields) (s : State) : Host.Outcome State Fault Refusal :=
  coreOp s fun s => slotOp s .a f.hdr (aBad gatherSpec f) (fun v act => v.gatherOp act f .sct 1)

/-! ### Collectives (R195, R196) -/

/-- A collective: only its form is checked at issue. -/
def View.collOp (v : View) (f : AFields) (kind : EngKind) : OpResult :=
  .ok (v.queueOp f kind ((List.range 3).map (v.aVal copySpec f)) [])

/-- R196 coll.bc. -/
def execCollBc (f : AFields) (s : State) : Host.Outcome State Fault Refusal :=
  coreOp s fun s => slotOp s .a f.hdr (aBad copySpec f) (fun v _ => v.collOp f .collBc)
/-- R196 coll.red: FUNC 0 add, 1 min, 2 max. -/
def execCollRed (f : AFields) (s : State) : Host.Outcome State Fault Refusal :=
  coreOp s fun s => slotOp s .a f.hdr (aBad { copySpec with funcs := fun n => decide (n ≤ 2) } f)
    (fun v _ => v.collOp f .collRed)
/-- R196 coll.ag. -/
def execCollAg (f : AFields) (s : State) : Host.Outcome State Fault Refusal :=
  coreOp s fun s => slotOp s .a f.hdr (aBad copySpec f) (fun v _ => v.collOp f .collAg)
/-- R196 coll.a2a. -/
def execCollA2a (f : AFields) (s : State) : Host.Outcome State Fault Refusal :=
  coreOp s fun s => slotOp s .a f.hdr (aBad copySpec f) (fun v _ => v.collOp f .collA2a)

/-! ### Tensor identifiers (R198) -/

def tnWrSpec : ASpec := { uses := [.src, .num], funcs := fun n => decide (n < 8), immediate := true }
def tnRdSpec : ASpec := { uses := [.dst, .num], funcs := fun n => decide (n < 8), immediate := true }
def tnLdSpec : ASpec := { uses := [.src, .num] }

/-- R198 tn.wr: the word is written at the end of the cycle. -/
def execTnWr (f : AFields) (s : State) : Host.Outcome State Fault Refusal :=
  coreOp s fun s => slotOp s .a f.hdr (aBad tnWrSpec f)
    (fun v _ => .ok (v.sendTo v.st.core 0 false none 0 [.tensor f.opc1.toNat f.func.toNat (v.aVal tnWrSpec f 0)] [] 0))

/-- R198 tn.rd. -/
def execTnRd (f : AFields) (s : State) : Host.Outcome State Fault Refusal :=
  coreOp s fun s => slotOp s .a f.hdr (aBad tnRdSpec f)
    (fun v _ =>
      let x := (v.p.tn.getD f.opc1.toNat []).getD f.func.toNat 0
      .ok (v.sendTo v.st.core 0 false none 0 [.scalar (codeReg f.opc0.toNat) x] [] 0))

/-- R198 tn.ld: the entry is pending until the load lands. -/
def execTnLd (f : AFields) (s : State) : Host.Outcome State Fault Refusal :=
  coreOp s fun s => slotOp s .a f.hdr (aBad tnLdSpec f)
    (fun v act =>
      let a := v.aVal tnLdSpec f 0
      if a.toNat % 64 ≠ 0 then aTrap trapMisalign act a.toNat 0
      else .ok ((v.queueOp f .tnLd [a, BitVec.ofNat 64 f.opc1.toNat] []).modPart v.p.id fun p =>
        { p with tnPend := p.tnPend ++ [f.opc1.toNat] }))

/-! ### Flues (R199 to R201) -/

def qInitSpec : ASpec := { uses := [.src, .src], funcs := fun n => decide (n < 8), immediate := true }
def qAdvSpec : ASpec := { uses := [.src], funcs := fun n => decide (n < 7) }
def qWtSpec : ASpec := { uses := [.src, .dst], funcs := fun _ => true, immediate := true }
def sqLdSpec : ASpec := { uses := [.src, .src], funcs := fun n => decide (n < 2) }
def sqDrpSpec : ASpec := { uses := [.src] }

/-- Distance of two counts, modulo 2^32 (R199). -/
def countSub (a b : Nat) : Nat := (a + 2 ^ 32 - b) % 2 ^ 32
/-- A count stepped by `n`. -/
def countAdd (a n : Nat) : Nat := (a + n) % 2 ^ 32

/-- The flue an op names. -/
def Group.flue? (g : Group) (n : Nat) : Option Flue := g.flues.getD n none
/-- An op of the group changes a flue, here and in the copies kept at boundaries after it (R203). -/
def Group.setFlue (g : Group) (seq n : Nat) (f : Option Flue → Option Flue) : Group :=
  { g.alsoSaved seq fun s => { s with flues := s.flues.modify n f } with flues := g.flues.modify n f }
/-- Change an initialised flue. -/
def Group.modFlue (g : Group) (seq n : Nat) (f : Flue → Flue) : Group := g.setFlue seq n fun q => q.map f
/-- The issuing group's flue changes. -/
def View.stepFlue (v : View) (c : Core) (n : Nat) (f : Flue → Flue) : Core :=
  c.modGroup v.x.h v.x.slot fun g => g.modFlue v.x.seq n f

/-- R199 q.init. -/
def execQInit (f : AFields) (s : State) : Host.Outcome State Fault Refusal :=
  coreOp s fun s => slotOp s .a f.hdr (aBad qInitSpec f)
    (fun v act =>
      let base := (v.aVal qInitSpec f 0).toNat
      let size := (v.aVal qInitSpec f 1).toNat
      let okSize := if flueNum f = 7 then size == 16384
        else (List.range 12).any fun i => size == 256 * 2 ^ i
      if base % 256 ≠ 0 then aTrap trapMisalign act base 0
      else if !okSize then v.aReserved act 20
      else if v.beyond base size then aTrap trapAccess act base 3
      else
        let q : Flue := { base := base, size := size, p := 0, c := 0, pq := 0, cq := 0, bad := [] }
        .ok (v.st.core.modGroup v.x.h v.x.slot fun g => g.setFlue v.x.seq (flueNum f) fun _ => some q))

/-- An op on an initialised flue (R199). -/
def View.withFlue (v : View) (act : LaneMask) (n : Nat) (k : Flue → OpResult) : OpResult :=
  match v.g.flue? n with
  | some q => k q
  | none => v.aReserved act 50

/-- R200 q.advp. -/
def execQAdvp (f : AFields) (s : State) : Host.Outcome State Fault Refusal :=
  coreOp s fun s => slotOp s .a f.hdr (aBad qAdvSpec f)
    (fun v act => v.withFlue act (flueNum f) fun q =>
      let n := v.aVal qAdvSpec f 0
      let used := countSub q.pq q.c
      if q.size < used + n.toNat then aTrap trapQueueImbalance act n.toNat (q.size - used)
      else .ok (v.stepFlue (v.queueOp f .qAdvp [n] []) (flueNum f) fun q => { q with pq := countAdd q.pq n.toNat }))

/-- R200 q.advc. -/
def execQAdvc (f : AFields) (s : State) : Host.Outcome State Fault Refusal :=
  coreOp s fun s => slotOp s .a f.hdr (aBad qAdvSpec f)
    (fun v act => v.withFlue act (flueNum f) fun q =>
      let n := v.aVal qAdvSpec f 0
      let avail := countSub q.p q.cq
      if avail < n.toNat then aTrap trapQueueImbalance act n.toNat avail
      else .ok (v.stepFlue (v.queueOp f .qAdvc [n] []) (flueNum f) fun q => { q with cq := countAdd q.cq n.toNat }))

/-- The condition of a q.wt (R200). -/
def Flue.has (q : Flue) (space : Bool) (n : Nat) : Bool :=
  if space then decide (n ≤ q.size - countSub q.pq q.c) else decide (n ≤ countSub q.p q.cq)
/-- What a q.wt writes. -/
def Flue.place (q : Flue) (space : Bool) : Nat := q.base + (if space then q.pq else q.cq) % q.size

/-- R200 q.wt: a long wait until the flue has the bytes or the room; its destination is pending meanwhile. -/
def execQWt (f : AFields) (s : State) : Host.Outcome State Fault Refusal :=
  coreOp s fun s => slotOp s .a f.hdr (aBad qWtSpec f)
    (fun v act => v.withFlue act (flueNum f) fun q =>
      let n := (v.aVal qWtSpec f 0).toNat
      if q.size < n then aTrap trapQueueImbalance act n q.size
      else
        let r := codeReg f.opc1.toNat
        let id := v.st.core.seq
        let c := v.st.core.startAccess { v.x.access .flueWait v.st.cycle act with
          vals := [n], dst := [r], arg := f.func.toNat, todo := 1 }
        let c := c.modGroup v.x.h v.x.slot fun g => { g with pend := g.pend ++ [(r, v.x.split, id)] }
        .ok (if q.has (bitNat f.func.toNat 3) n then c
             else v.waitIn c .longwait (BitVec.ofNat 32 (3 + 65536 * flueNum f))))

/-- R201 sq.ld. -/
def execSqLd (f : AFields) (s : State) : Host.Outcome State Fault Refusal :=
  coreOp s fun s => slotOp s .a f.hdr (aBad sqLdSpec f)
    (fun v act => v.withFlue act 7 fun q =>
      let a := v.aVal sqLdSpec f 0
      let n := (v.aVal sqLdSpec f 1).toNat
      let used := countSub q.pq q.c
      if a.toNat % 4 ≠ 0 then aTrap trapMisalign act a.toNat 0
      else if !(within 1 4096 n) then v.aReserved act 20
      else if 4096 < used + n then aTrap trapQueueImbalance act n (4096 - used)
      else if f.func = 1 && v.beyond a.toNat (4 * n) then aTrap trapAccess act a.toNat 3
      else .ok (v.stepFlue (v.queueOp f .sqLd [a, BitVec.ofNat 64 n] (if f.func = 1 then [(a.toNat, 4 * n)] else [])) 7
        fun q => { q with pq := countAdd q.pq n }))

/-- R201 sq.drp. -/
def execSqDrp (f : AFields) (s : State) : Host.Outcome State Fault Refusal :=
  coreOp s fun s => slotOp s .a f.hdr (aBad sqDrpSpec f)
    (fun v act => v.withFlue act 7 fun q =>
      let n := v.aVal sqDrpSpec f 0
      let avail := countSub q.pq q.cq
      if avail < n.toNat then aTrap trapQueueImbalance act n.toNat avail
      else .ok (v.stepFlue (v.queueOp f .sqDrp [n] []) 7 fun q => { q with cq := countAdd q.cq n.toNat }))

/-! ### Tag test (R202) -/

def tagTstSpec : ASpec := { uses := [.dst, .src], immediate := true }

/-- R202 tag.tst. -/
def execTagTst (f : AFields) (s : State) : Host.Outcome State Fault Refusal :=
  coreOp s fun s => slotOp s .a f.hdr (aBad tagTstSpec f)
    (fun v _ =>
      let m := (v.aVal tagTstSpec f 1).toNat
      let x := (List.range 16).foldl (fun x i =>
        if !(bitNat m i) then x
        else x + (if (v.g.tag i).count = 0 then 0 else 2 ^ i) + (if (v.g.tag i).failed.isNone then 0 else 2 ^ (16 + i))) 0
      .ok (v.sendTo v.st.core 0 false none 0 [.scalar (codeReg f.opc0.toNat) (BitVec.ofNat 64 x)] [] 0))

/-! ### Starting (R190, R191, R201) -/

/-- Change a queued op. -/
def Core.modEng (c : Core) (id : Nat) (f : EngOp → EngOp) : Core :=
  { c with engs := c.engs.map fun e => if e.id == id then f e else e }

/-- Every earlier access of the split is decided, and its earlier fences, acquisitions and releases are done (R187, R190,
R277). -/
def Core.accessesBefore (c : Core) (h slot split seq : Nat) : Bool :=
  !(c.accs.any fun a => a.h == h && a.slot == slot && a.split == split && decide (a.seq < seq) && a.due.isNone &&
    (a.kind.logged || a.kind == .rel || a.kind == .fence || a.kind == .acq))

/-- An earlier op of the group stands in the way of a scale-flue op (R201). -/
def Core.flueOrder (c : Core) (e : EngOp) : Bool :=
  let earlierLd := c.engs.any fun d => d.h == e.h && d.slot == e.slot && d.kind == .sqLd && decide (d.seq < e.seq)
  let earlierMma := c.mats.any fun m => m.h == e.h && m.slot == e.slot && m.scales != 0 && decide (m.seq < e.seq)
  match e.kind with
  | .sqLd => !earlierLd
  | .sqDrp => !earlierLd && !earlierMma
  | _ => true

/-- The op's team is being pre-empted: what has not started is saved (R203). -/
def State.engHeld (s : State) (e : EngOp) : Bool :=
  match (s.core.group? e.h e.slot).bind fun g => s.core.part? g.part with
  | some p => s.lch.launches.any fun l => l.id == p.launch && l.teams.any fun t => t.index == p.team && decide (2 ≤ t.leaving)
  | none => false

/-- The group is rolled back and its rerun is not over: its ops stand still (R302, R303). -/
def State.frozen (s : State) (h slot : Nat) : Bool :=
  s.svc.reruns.any fun r => r.saved.any fun x => x.group.h == h && x.group.slot == slot

/-! ### Moving bytes -/

/-- Where a piece comes from. -/
inductive PSrc where
  | glob (va : Nat)
  | pad (off : Nat)
  | meadow (off : Nat)
  deriving DecidableEq, Repr

/-- Where a piece goes to. -/
inductive PDst where
  | glob (va : Nat)
  | pad (off : Nat)
  /-- Tensor entry. -/
  | tensor (n : Nat)
  /-- Byte offset among the entries an sq.ld appends. -/
  | ring (off : Nat)
  deriving DecidableEq, Repr

/-- A piece: it lies within one 128-byte line at both ends. -/
structure Piece where
  src : PSrc
  dst : PDst
  len : Nat
  deriving DecidableEq, Repr

/-- Offset within the line of 128 bytes. -/
def PSrc.low : PSrc → Nat
  | .glob a => a % 128
  | .pad a => a % 128
  | .meadow a => a % 128
def PDst.low : PDst → Nat
  | .glob a => a % 128
  | .pad a => a % 128
  | .tensor _ => 0
  | .ring a => a % 4
/-- Step a place on. -/
def PSrc.step (p : PSrc) (n : Nat) : PSrc :=
  match p with | .glob a => .glob (a + n) | .pad a => .pad (a + n) | .meadow a => .meadow (a + n)
def PDst.step (p : PDst) (n : Nat) : PDst :=
  match p with | .glob a => .glob (a + n) | .pad a => .pad (a + n) | .tensor k => .tensor k | .ring a => .ring (a + n)

/-- The longest piece a destination takes. -/
def PDst.room (p : PDst) : Nat := match p with | .ring _ => 4 | d => 128 - d.low

/-- Cut a range into pieces. -/
def cutPieces : Nat → PSrc → PDst → Nat → List Piece
  | 0, _, _, _ => []
  | fuel + 1, a, b, n =>
    if n = 0 then []
    else
      let k := Nat.min n (Nat.min (128 - a.low) b.room)
      { src := a, dst := b, len := k } :: cutPieces fuel (a.step k) (b.step k) (n - k)

/-- Row index `j` of a gather or scatter (R194). -/
def rowIndex (p : Part) (list j : Nat) : Nat := leNat (p.padRead 0 (list + 4 * j) 4)

/-- The pieces of a data-moving op. -/
def EngOp.pieces (e : EngOp) (p : Part) : List Piece :=
  let a := e.o0.toNat
  let b := e.o1.toNat
  let n := e.o2.toNat
  let rows := gatherRows n
  let size := gatherSize e.func
  let row := fun j => rowIndex p (gatherList n) j
  match e.kind with
  | .cpGs => cutPieces n (.glob b) (.pad a) n
  | .cpSg => cutPieces n (.pad b) (.glob a) n
  | .cpGg => cutPieces n (.glob b) (.glob a) n
  | .cpMs => cutPieces n (.meadow b) (.pad a) n
  | .gth => (List.range rows).flatMap fun j => cutPieces size (.glob ((b + row j * size) % 2 ^ 64)) (.pad (a + j * size)) size
  | .sct => (List.range rows).flatMap fun j => cutPieces size (.pad (b + j * size)) (.glob ((a + row j * size) % 2 ^ 64)) size
  | .tnLd => cutPieces 64 (.glob a) (.tensor b) 64
  | .sqLd => cutPieces (4 * b) (if e.func = 0 then .glob a else .pad a) (.ring 0) (4 * b)
  | _ => []

/-- What became of a read or write by an engine. -/
inductive EngRes (α : Type) where
  | ok (s : State) (x : α)
  | fault (s : State)
  | fail (s : State) (code : Nat) (va : W64)
  | away (s : State)
  | wait (s : State)
  /-- The bank is being refreshed. -/
  | busy (s : State)

/-- A translation fault of an engine op (R191, R351). -/
def State.engFault (s : State) (e : EngOp) (world va kind level acc : Nat) : State :=
  let r : FaultReq := { id := e.id, va := BitVec.ofNat 64 va, world := world, kind := kind, acc := acc, level := level }
  { s with cch := { s.cch with faultq := s.cch.faultq ++ [r] } }

/-- What an engine read consumes, for the record of R300. -/
def State.noteEngine (s : State) (e : EngOp) (l : Loc) (n : Nat) : State :=
  { s with core := s.core.modGroup e.h e.slot fun g => g.recordSectors e.seq 5 l n }

/-- An engine reads global bytes within one 128-byte line, at the stove's L2, under the hearth's near-atomic results and the
group's held stores (R263, R275, R277, R279); a cp.gg does not read what it has itself written (R193). -/
def State.engRead (s : State) (e : EngOp) (g : Group) (p : Part) (va n : Nat) : EngRes (List Byte) :=
  let held := g.gated.filter fun x => !(e.kind == .cpGg && x.eng == e.id)
  if 2 ^ 57 ≤ va then .fail s trapAccess (BitVec.ofNat 64 va)
  else match s.translate (stoveOf e.h) p.world va .read with
  | .fault k l => .fault (s.engFault e p.world va k l 7)
  | .ok s l leaf =>
    match s.lineState l e.seq p.world with
    | .abort _ => .fail s trapMemAbort (BitVec.ofNat 64 va)
    | .waits => .wait s
    | .good =>
      let note := fun (s : State) => s.noteEngine e l n
      if l.tgt = 2 then
        match s.fab.lineFor e.id l with
        | some [] => .fail s trapMemAbort (BitVec.ofNat 64 va)
        | some bs => .ok (note s) (overlayAt held l ((bs.drop (va % 128)).take n))
        | none => match s.sendRemote 1 l.dev p.world 4 (l.pa - l.pa % 128) 0 [] [] e.id 1 false with
          | some s => .away s
          | none => .fail s trapMemAbort (BitVec.ofNat 64 va)
      else
        let r := if l.tgt = 3 || leafNC leaf then (s, s.homeRead l n) else s.readL2 (stoveOf e.h) l p.world n
        .ok (note r.1) (overlayAt held l (r.1.cch.nearBytes e.h l r.2))

/-- An engine writes global bytes: held like a store (R193). -/
def State.engWrite (s : State) (e : EngOp) (p : Part) (va : Nat) (bs : List Byte) : EngRes Unit :=
  if 2 ^ 57 ≤ va then .fail s trapAccess (BitVec.ofNat 64 va)
  else match s.translate (stoveOf e.h) p.world va .write with
  | .fault k l => .fault (s.engFault e p.world va k l 8)
  | .ok s l leaf =>
    if l.tgt = 3 then .fail s trapMeadowWrite (BitVec.ofNat 64 va)
    else
      let w : Gated := { seq := e.seq, split := e.split, world := p.world, va := BitVec.ofNat 64 va, tgt := l.tgt,
                         dev := l.dev, pa := l.pa, nc := leafNC leaf, bytes := bs, eng := e.id }
      let hold := fun (g : Group) => { g.recordSectors e.seq 6 l bs.length with gated := g.gated ++ [w] }
      .ok { s with core := s.core.modGroup e.h e.slot hold } ()

/-- Bytes of a cp.gg that lie in both its ranges are undefined (R193). -/
def State.blur (s : State) (e : EngOp) (dst : Nat) (bs : List Byte) : State × List Byte :=
  let lo := e.o1.toNat
  let hit := fun i => e.kind == .cpGg && decide (lo ≤ dst + i) && decide (dst + i < lo + e.o2.toNat)
  if !((List.range bs.length).any hit) then (s, bs)
  else ({ s with core := { s.core with free := s.core.free + bs.length } },
    bs.mapIdx fun i b => if hit i then Config.freeByte (s.core.free + i) else b)

/-- Meadow bytes of a cp.ms: uncorrectable data fails the op, and a bank that is being refreshed makes the line wait (R191,
R272). -/
def State.meadowPiece (s : State) (e : EngOp) (off n : Nat) : EngRes (List Byte) :=
  let l : Loc := { tgt := 3, dev := 0, pa := dieOf e.h * 2 ^ 31 + off }
  match s.lineState l e.seq 0 with
  | .abort _ => .fail s trapMemAbort (BitVec.ofNat 64 off)
  | .waits => .wait s
  | .good => if meadowBusy (dieOf e.h) s.cycle off then .busy s else .ok (s.noteEngine e l n) (s.homeRead l n)

/-- Move one piece. -/
def State.movePiece (s : State) (e : EngOp) (g : Group) (p : Part) (q : Piece) : EngRes Unit :=
  let rd : EngRes (List Byte) := match q.src with
    | .glob va => s.engRead e g p va q.len
    | .pad off => .ok { s with core := s.core.padRead g e.seq 0 [(off, q.len)] } (p.padRead 0 off q.len)
    | .meadow off => s.meadowPiece e off q.len
  match rd with
  | .fault s => .fault s
  | .fail s c va => .fail s c va
  | .away s => .away s
  | .wait s => .wait s
  | .busy s => .busy s
  | .ok s bs =>
    match q.dst with
    | .glob va => let r := s.blur e va bs; r.1.engWrite e p va r.2
    | .pad off =>
      .ok { s with core := (s.core.padWrite g e.seq 0 off bs).modPart p.id fun p => p.touchEngine (wordsOf off bs.length) } ()
    | .tensor n =>
      .ok { s with core := s.core.modPart p.id fun p => { p with tn := p.tn.set n ((List.range 8).map fun j => le64 bs (8 * j)) } } ()
    | .ring k =>
      match g.flue? 7 with
      | none => .ok s ()
      | some f => .ok { s with core := s.core.padWrite g e.seq 0 (f.base + (4 * f.p + k) % 16384) bs } ()

/-- How far a run of an engine op has come. -/
inductive EngEnd where
  | done
  /-- It stops here and waits for this. -/
  | stop (wait : Nat)
  | fail (code : Nat) (va : W64)
  deriving DecidableEq, Repr

/-- What a run of a data-moving op leaves: the pieces passed, those of them still to be moved, and how it ended. -/
structure MoveRun where
  s : State
  done : Nat
  late : List Nat
  fin : EngEnd

/-- Move numbered pieces until one cannot be moved; a line whose bank is being refreshed is passed by (R272). -/
def State.movePieces (s : State) (e : EngOp) : List (Nat × Piece) → Nat → List Nat → MoveRun
  | [], k, late => { s := s, done := k, late := late, fin := if late.isEmpty then .done else .stop 5 }
  | (i, q) :: qs, k, late =>
    let left := fun (s : State) (w : EngEnd) =>
      ({ s := s, done := k, late := late ++ (((i, q) :: qs).filter fun x => decide (x.1 < k)).map fun x => x.1, fin := w } : MoveRun)
    match s.core.group? e.h e.slot with
    | none => { s := s, done := k, late := [], fin := .done }
    | some g =>
      match s.core.part? g.part with
      | none => { s := s, done := k, late := [], fin := .done }
      | some p =>
        match s.movePiece e g p q with
        | .ok s _ => State.movePieces s e qs (Nat.max k (i + 1)) late
        | .busy s => State.movePieces s e qs (Nat.max k (i + 1)) (late ++ [i])
        | .fault s => left s (.stop 1)
        | .away s => left s (.stop 2)
        | .wait s => left s (.stop 4)
        | .fail s c va => left s (.fail c va)

/-! ### Completing and failing (R189, R191) -/

/-- A tag fails: the queued ops that consume it fail with the same cause and offset (R191). -/
def Core.failConsumers (c : Core) (h slot tag off code : Nat) (va : W64) : Core :=
  { c with engs := c.engs.map fun e =>
      if e.h == h && e.slot == slot && !e.started && e.failed.isNone && e.ctags.contains tag then
        { e with failed := some (code, va), off := off } else e }

/-- The opcode of an engine op (R91). -/
def EngKind.opcode : EngKind → Nat
  | .cpGs => 1 | .cpSg => 2 | .cpGg => 3 | .cpMs => 4 | .gth => 5 | .sct => 6 | .collBc => 7 | .collRed => 8
  | .collAg => 9 | .collA2a => 10 | .tnLd => 13 | .sqLd => 14 | .sqDrp => 15 | .qAdvp => 17 | .qAdvc => 18

/-- An engine entry of a dump (R416). -/
def EngOp.entry (e : EngOp) (fate cause : Nat) : List Byte :=
  natLe 1 e.kind.opcode ++ natLe 1 fate ++ natLe 1 e.otag ++ natLe 1 cause ++ natLe 4 e.off ++ natLe 8 e.o0.toNat ++
  natLe 8 e.o1.toNat ++ natLe 8 e.o2.toNat

/-- The kinds that run as collectives. -/
def EngKind.collective : EngKind → Bool
  | .collBc | .collRed | .collAg | .collA2a => true
  | _ => false

/-- Instances of a key that this device has issued and that are over. -/
def Fabric.collCount (f : Fabric) (key : Nat) : Nat := ((f.collDone.find? fun x => x.1 == key).map fun x => x.2).getD 0

/-- The collective that an op has issued is over (R197). -/
def Fabric.dropCollect (f : Fabric) (eng : Nat) : Fabric :=
  match f.collects.find? fun c => c.eng == some eng with
  | none => f
  | some c => { f with
      collects := f.collects.filter fun c => c.eng != some eng
      collDone := (c.key, c.inst + 1) :: f.collDone.filter fun x => x.1 != c.key }

/-- An op that a rollback has discarded leaves its collective; what it has sent stays sent (R203). -/
def Fabric.leaveCollect (f : Fabric) (eng : Nat) : Fabric :=
  { f with collects := f.collects.map fun c => if c.eng = some eng then { c with eng := none, left := some eng } else c }

/-- An op that its reruns have brought back has its collective again (R303). -/
def Fabric.rejoinCollect (f : Fabric) (eng : Nat) : Fabric :=
  { f with collects := f.collects.map fun c => if c.left = some eng then { c with eng := some eng, left := none } else c }

/-- What an op leaves in its group when it ends. -/
def EngOp.close (e : EngOp) (failed : Option (Nat × W64)) (g : Group) : Group :=
  match e.kind with
  | .sqLd => g.modFlue e.seq 7 fun q =>
      let bad := match failed with
        | some (code, va) => q.bad ++ [(q.p, e.o1.toNat, code, e.off, va)]
        | none => q.bad
      { q with p := countAdd q.p e.o1.toNat, bad := bad }
  | .sqDrp => if e.started then g else g.modFlue e.seq 7 fun q => { q with c := countAdd q.c e.o0.toNat }
  | .qAdvp => if e.started then g else g.modFlue e.seq (e.func % 8) fun q => { q with pq := countSub q.pq e.o0.toNat }
  | .qAdvc => if e.started then g else g.modFlue e.seq (e.func % 8) fun q => { q with cq := countSub q.cq e.o0.toNat }
  | _ => g

/-- INFO1 of a cause of failure, for the trap of a multiply that needs what a failed sq.ld should have brought (R221, R287). -/
def State.causeInfo (s : State) (e : EngOp) (world code : Nat) (va : W64) : Nat :=
  if code = trapPageFault || code = trapStarvation then 1
  else if code = trapAccess then (if 2 ^ 57 ≤ va.toNat then 2 else 1)
  else if code = trapMemAbort then
    match s.translate (stoveOf e.h) world va.toNat .read with
    | .fault _ _ => 3
    | .ok t l _ => match t.lineState l e.seq world with | .abort r => r | _ => if l.tgt = 2 then 3 else 1
  else 0

/-- An op ends: its tag's count falls, and a failure marks the tag (R189, R191). -/
def State.endEng (s : State) (e : EngOp) (failed : Option (Nat × W64)) : State :=
  let c := { s.core with engs := s.core.engs.filter fun x => x.id != e.id }
  match c.group? e.h e.slot with
  | none => { s with core := c }
  | some g =>
    let c := c.modPart g.part fun p =>
      { p with
        tnPend := if e.kind = .tnLd then p.tnPend.erase e.o1.toNat else p.tnPend
        fates := p.fates.map fun x => if x.2.1 == e.id then
          (x.1, x.2.1, match failed with | some (code, _) => e.entry 3 code | none => e.entry 1 0) else x }
    let first := fun (t : Tag) => match t.failed, failed with
      | some x, _ => some x
      | none, some (code, va) => some (code, e.off, va)
      | none, none => none
    let world := ((s.core.part? g.part).map fun p => p.world).getD 0
    let why := failed.map fun x => (x.1 + 256 * s.causeInfo e world x.1 x.2, x.2)
    let tag := fun (t : Tag) => { t with count := t.count - 1, failed := first t }
    let c := c.modGroup e.h e.slot fun g =>
      ((e.close why g).alsoSaved e.seq fun n => { n with tags := n.tags.modify e.otag tag }).modTag e.otag tag
    { s with
      fab := if e.kind.collective then s.fab.dropCollect e.id else s.fab
      core := match failed with
        | some (code, va) => c.failConsumers e.h e.slot e.otag e.off code va
        | none => c }

/-! ### Collectives (R195 to R197) -/

/-- Devices of a member set, ascending. -/
def memberList (m : Nat) : List Nat := (List.range 192).filter (bitNat m)

/-- The parameters that members must share: MEMBERS, COUNT, FMT, ROOT, FUNC, op (R197). -/
def collParams (d : List Byte) (kind : EngKind) (func : Nat) : List Byte :=
  d.take 24 ++ (d.drop 32).take 6 ++ natLe 1 func ++
    natLe 1 (match kind with | .collBc => 7 | .collRed => 8 | .collAg => 9 | _ => 10)

/-- The descriptor fits the op and this device (R195, R197). -/
def collOk (own : Nat) (d : List Byte) (kind : EngKind) : Bool :=
  let fmt := leAt d 36 1
  let w := fmtWidth fmt
  bitNat (leAt d 0 24) own && leAt d 38 26 == 0 && within 1 (2 ^ 28) (leAt d 32 4) &&
  (if kind == .collRed then [0, 1, 2, 8, 12].contains fmt else decide (8 ≤ w)) &&
  (if kind == .collBc then bitNat (leAt d 0 24) (leAt d 37 1) else leAt d 37 1 == 0)

/-- Combine two elements (R196). -/
def collCombine (fmt func a b : Nat) : Nat :=
  match floatFmt fmt with
  | some F => if func = 0 then (addFloat F 0 a b).1 else (minMax F (func == 2) a b).1
  | none =>
    let w := fmtWidth fmt
    if func = 0 then (a + b) % 2 ^ w
    else
      let less := decide (intVal fmt a < intVal fmt b)
      if less == (func == 2) then b else a

/-- Bytes of one block of a collective. -/
def blockBytes (params : List Byte) : Nat := leAt params 24 4 * (fmtWidth (leAt params 28 1) / 8)

/-- Put pieces of a block together, when all are there. -/
def Collect.block (c : Collect) (src blk n : Nat) : Option (List Byte) :=
  let mine := c.parts.filter fun q => q.1 == src && q.2.1 == blk
  if (mine.map fun q => q.2.2.2.length).sum < n then none
  else some (mine.foldl (fun bs q => bs.take q.2.2.1 ++ q.2.2.2 ++ bs.drop (q.2.2.1 + q.2.2.2.length)) (List.replicate n 0))

/-- The destination bytes of a collective once every block this member needs is here (R196). -/
def Collect.result (c : Collect) (own : Nat) : Option (List Byte) :=
  let ms := memberList (leAt c.params 0 24)
  let n := blockBytes c.params
  let fmt := leAt c.params 28 1
  let from' := fun blk => ms.mapM fun d => c.block d (blk d) n
  match leAt c.params 31 1 with
  | 7 => c.block (leAt c.params 29 1) 0 n
  | 8 => (from' fun _ => 0).map fun bs =>
      let k := fmtWidth fmt / 8
      match bs with
      | [] => []
      | b :: rest => (List.range (leAt c.params 24 4)).flatMap fun i =>
          natLe k (rest.foldl (fun r x => collCombine fmt (leAt c.params 30 1) r (leAt x (k * i) k)) (leAt b (k * i) k))
  | 9 => (from' fun _ => 0).map List.flatten
  | _ => (from' fun _ => ms.findIdx (· == own)).map List.flatten

/-- Blocks this member supplies, with the members each goes to (R196). -/
def collSends (params : List Byte) (own : Nat) : List (Nat × List Nat) :=
  let ms := memberList (leAt params 0 24)
  match leAt params 31 1 with
  | 7 => if leAt params 29 1 = own then [(0, ms)] else []
  | 8 => [(0, ms)]
  | 9 => [(0, ms)]
  | _ => ms.mapIdx fun j d => (j, [d])

/-- A piece of a block goes to a member: kept here, or sent as a flit with the key, the block and the parameters in
EXT (R196, R374; log entry 31). None when the member cannot be reached. -/
def State.sendPiece (s : State) (key inst own : Nat) (params : List Byte) (blk off dst : Nat) (bs : List Byte) : Option State :=
  if dst = own then
    some { s with fab := { s.fab with collects := s.fab.collects.map fun c =>
      if c.key == key && c.inst == inst then { c with parts := c.parts ++ [(own, blk, off, bs)] } else c } }
  else match s.fab.portFor dst off with
    | none => none
    | some _ =>
      let f : Flit := { type := 9, vc := 2, src := own, dst := dst, tag := 0, world := 0, op := 0,
                        addr := BitVec.ofNat 64 off, mask := LaneMask.build fun i => decide (i < bs.length),
                        data := (bs ++ List.replicate 128 0).take 128,
                        ext := natLe 8 key ++ natLe 2 blk ++ params ++ natLe 4 inst }
      some { s with fab := { s.fab with out := s.fab.out ++ [f] } }

/-- The source pieces of a collective: block, offset in it, address and length. -/
def collPieces (e : EngOp) (params : List Byte) (own : Nat) : List (Nat × Nat × Nat × Nat) :=
  let n := blockBytes params
  (collSends params own).flatMap fun b =>
    (cutPieces n (.glob (e.o1.toNat + (if leAt params 31 1 = 10 then b.1 * n else 0))) (.pad 0) n).filterMap fun q =>
      match q.src, q.dst with
      | .glob va, .pad off => some (b.1, off, va, q.len)
      | _, _ => none

/-- Send source pieces, from the next one on. -/
def State.collSend (s : State) (e : EngOp) (key inst own : Nat) (params : List Byte) :
    List (Nat × Nat × Nat × Nat) → Nat → State × Nat × EngEnd
  | [], k => (s, k, .done)
  | (blk, off, va, n) :: qs, k =>
    match s.core.group? e.h e.slot with
    | none => (s, k, .done)
    | some g =>
      match s.core.part? g.part with
      | none => (s, k, .done)
      | some p =>
        match s.engRead e g p va n with
        | .fault s => (s, k, .stop 1)
        | .away s => (s, k, .stop 2)
        | .wait s => (s, k, .stop 4)
        | .busy s => (s, k, .stop 4)
        | .fail s c va => (s, k, .fail c va)
        | .ok s bs =>
          let dsts := ((collSends params own).find? fun b => b.1 == blk).map fun b => b.2
          match (dsts.getD []).foldl (fun (r : Option State) d => r.bind fun s => s.sendPiece key inst own params blk off d bs) (some s) with
          | some s => State.collSend s e key inst own params qs (k + 1)
          | none => (s, k, .fail trapMemAbort (BitVec.ofNat 64 va))

/-- Write the destination of a collective, from byte piece `k` on. -/
def State.collWrite (s : State) (e : EngOp) (p : Part) : List (Nat × List Byte) → Nat → State × Nat × EngEnd
  | [], k => (s, k, .done)
  | (va, bs) :: qs, k =>
    match s.engWrite e p va bs with
    | .ok s _ => State.collWrite s e p qs (k + 1)
    | .fault s => (s, k, .stop 1)
    | .away s => (s, k, .stop 2)
    | .wait s => (s, k, .stop 4)
    | .busy s => (s, k, .stop 4)
    | .fail s c va => (s, k, .fail c va)

/-- Bytes cut at 128-byte lines. -/
def cutBytes : Nat → Nat → List Byte → List (Nat × List Byte)
  | 0, _, _ => []
  | fuel + 1, va, bs =>
    if bs.isEmpty then []
    else let k := 128 - va % 128; (va, bs.take k) :: cutBytes fuel (va + k) (bs.drop k)

/-- How an op joins the collective of its key on this device (R197). -/
inductive Joined where
  | ok (f : Fabric) (c : Collect)
  /-- Another op of this device has it already. -/
  | taken
  /-- Its members disagree: those that are to learn of it. -/
  | differ (members : List Nat)

/-- The collective of a key on this device, joined by the op that issues it here. -/
def Fabric.joinCollect (f : Fabric) (key eng : Nat) (params : List Byte) : Joined :=
  let n := f.collCount key
  match f.collects.find? fun c => c.key == key && c.inst == n with
  | none =>
    let c : Collect := { key := key, inst := n, eng := some eng, left := none, sent := 0, bad := false, params := params, parts := [] }
    .ok { f with collects := f.collects ++ [c] } c
  | some c =>
    if c.eng.isSome then .taken
    else if c.bad || (!c.parts.isEmpty && c.params != params) then .differ (memberList (leAt params 0 24) ++ memberList (leAt c.params 0 24))
    else
      let d := { c with eng := some eng, left := none, params := params }
      .ok { f with collects := f.collects.map fun x => if x == c then d else x } d

/-- Tell members that an instance is faulty: a flit of collective data with OP 1 and no bytes (R197; log entry 31). -/
def State.tellFault (s : State) (key inst : Nat) (members : List Nat) : State :=
  let own := s.fab.device.getD 192
  let f : Flit := { type := 9, vc := 2, src := own, dst := 0, tag := 0, world := 0, op := 1, addr := 0, mask := 0,
                    data := List.replicate 128 0, ext := natLe 8 key ++ natLe 2 0 ++ List.replicate 32 0 ++ natLe 4 inst }
  let far := (members.eraseDups).filter fun d => d != own && (s.fab.portFor d 0).isSome
  { s with fab := { s.fab with out := s.fab.out ++ far.map fun d => { f with dst := d } } }

/-- The instance that an op would have joined is over for this device. -/
def Fabric.spendCollect (f : Fabric) (key : Nat) : Fabric :=
  let n := f.collCount key
  { f with collects := f.collects.filter fun c => !(c.key == key && c.inst == n)
           collDone := (key, n + 1) :: f.collDone.filter fun x => x.1 != key }

/-- Go on with a collective that the op has joined: its sends, then its destination. Pieces are counted through both. -/
def State.goCollect (s : State) (e : EngOp) (p : Part) (c : Collect) : State × Nat × EngEnd :=
  let own := s.fab.device.getD 192
  let ps := collPieces e c.params own
  let from' := Nat.max e.done c.sent
  let r := s.collSend e c.key c.inst own c.params (ps.drop from') from'
  let sent := Nat.min r.2.1 ps.length
  let note := fun (x : Collect) => if x.eng = some e.id then { x with sent := Nat.max x.sent sent } else x
  let t : State := { r.1 with fab := { r.1.fab with collects := r.1.fab.collects.map note } }
  match r.2.2 with
  | .done =>
    match (t.fab.collects.find? fun x => x.eng == some e.id).bind fun c => c.result own with
    | none => (t, r.2.1, .stop 3)
    | some bs =>
      let w := cutBytes (bs.length + 1) e.o2.toNat bs
      t.collWrite e p (w.drop (r.2.1 - ps.length)) r.2.1
  | x => (t, r.2.1, x)

/-- A faulty descriptor fails the op here and on every member that has issued (R197). -/
def State.badCollect (s : State) (e : EngOp) (key : Nat) (members : List Nat) : State × Nat × EngEnd :=
  let t := s.tellFault key (s.fab.collCount key) members
  ({ t with fab := t.fab.spendCollect key }, e.done, .fail trapReservedField e.o0)

/-- Run a collective: its descriptor once, then its bytes. -/
def State.runCollect (s : State) (e : EngOp) (g : Group) (p : Part) : State × Nat × EngEnd :=
  match s.fab.collects.find? fun c => c.eng == some e.id with
  | some c => s.goCollect e p c
  | none =>
    let a := e.o0.toNat
    if a % 64 ≠ 0 then (s, e.done, .fail trapReservedField e.o0)
    else match s.engRead e g p a 64 with
    | .fault s => (s, e.done, .stop 1)
    | .away s => (s, e.done, .stop 2)
    | .wait s => (s, e.done, .stop 4)
    | .busy s => (s, e.done, .stop 4)
    | .fail s c va => (s, e.done, .fail c va)
    | .ok s d =>
      let key := leAt d 24 8
      let params := collParams d e.kind e.func
      if !(collOk (s.fab.device.getD 192) d e.kind) then s.badCollect e key (memberList (leAt d 0 24))
      else match s.fab.joinCollect key e.id params with
      | .taken => (s, e.done, .fail trapReservedField e.o0)
      | .differ ms => s.badCollect e key ms
      | .ok f c => ({ s with fab := f } : State).goCollect e p c

/-! ### Running an op -/

/-- A piece of a cp.ms that was passed by can be read now (R272). -/
def State.bankOpen (s : State) (e : EngOp) : Bool :=
  e.late.any fun i => !(meadowBusy (dieOf e.h) s.cycle (e.o1.toNat - e.o1.toNat % 128 + 128 * i))

/-- The first op that completes, fails or moves on now; a scale-flue op that fails keeps its place (R201). -/
def State.engDue? (s : State) : Option EngOp :=
  s.core.engs.find? fun e => !(s.frozen e.h e.slot) &&
    ((e.failed.isSome && s.core.flueOrder e) ||
      (e.started && decide (e.due ≤ s.cycle) && (e.wait == 0 || (e.wait == 5 && s.bankOpen e))))

/-- Run an op as far as it goes. -/
def State.runEng (s : State) (e : EngOp) : State :=
  match s.core.group? e.h e.slot with
  | none => s.endEng e none
  | some g =>
    match s.core.part? g.part with
    | none => s.endEng e none
    | some p =>
      let all := (e.pieces p).mapIdx fun i q => (i, q)
      let r : MoveRun := if e.kind.collective then let r := s.runCollect e g p; { s := r.1, done := r.2.1, late := [], fin := r.2.2 }
        else s.movePieces e ((all.filter fun x => e.late.contains x.1) ++ all.drop e.done) e.done []
      match r.fin with
      | .done => r.s.endEng e none
      | .fail c va => r.s.endEng e (some (c, va))
      | .stop w => { r.s with core := r.s.core.modEng e.id fun e => { e with done := r.done, late := r.late, wait := w } }

/-- R189 aOpComplete: the first due op completes, fails, or stops at a byte it cannot have yet. -/
def execAOpComplete (s : State) : Host.Outcome State Fault Refusal :=
  .next (match s.engDue? with
    | none => s
    | some e => match e.failed with
      | some x => s.endEng e (some x)
      | none => s.runEng e)

/-! ### Flue waits (R200) -/

/-- The flue of a q.wt has what it waits for. -/
def Core.flueReady (c : Core) (a : Access) : Bool :=
  a.kind == .flueWait &&
  match (c.group? a.h a.slot).bind fun g => c.part? g.part with
  | some _ => match (c.group? a.h a.slot).bind fun g => g.flue? (a.arg % 8) with
    | some q => q.has (bitNat a.arg 3) (a.vals.headD 0)
    | none => true
  | none => true

/-- The bus lanes and ports that a late result needs (R23). -/
def Access.ports (a : Access) : LaneMask × Nat := if a.kind = .flueWait then (0, a.dst.length) else portNeed a.writes

/-- The late results that can land now: what they wait for has come, and their bus or port is free (R23). -/
def State.lateReady (s : State) : List Access :=
  s.core.accs.filter fun a => !a.orphan && (s.core.flueReady a || (a.kind != .ldGs && a.landsBy s.cycle)) &&
    s.core.portsFree a.h a.ports

/-- A result of acc.mv that can land now, when no earlier op's result can. -/
def State.moveDue (s : State) : Option Landing :=
  s.core.land.find? fun l => l.late && decide (l.due ≤ s.cycle) && s.core.portsFree l.h (portNeed l.writes) &&
    !(s.lateReady.any fun a => decide (a.seq < l.seq)) &&
    !(s.core.land.any fun m => m.late && decide (m.due ≤ s.cycle) && decide (m.seq < l.seq) && m.h == l.h)

/-- The late result that lands next: the earliest issued of a load's or a flue's (R21). -/
def State.lateDue (s : State) : Option Access :=
  if s.moveDue.isSome then none
  else s.lateReady.foldl (fun b a => match b with
    | none => some a
    | some x => if a.seq < x.seq then some a else some x) none

/-- A q.wt writes its place and its split goes on (R200, R24). -/
def State.flueDone (s : State) (a : Access) : State :=
  match (s.core.group? a.h a.slot).bind fun g => s.core.part? g.part with
  | none => { s with core := s.core.dropAccess a.id }
  | some _ =>
    let x := match (s.core.group? a.h a.slot).bind fun g => g.flue? (a.arg % 8) with | some q => q.place (bitNat a.arg 3) | none => 0
    let ws := a.dst.map fun r => RegWrite.scalar r (BitVec.ofNat 64 x)
    let c := (s.core.landLate a.h a.slot a.split a.seq s.cycle a.dst ws).dropAccess a.id
    { s with core := c.wake a.h a.slot a.split s.cycle .longwait }

/-- R24 variableLatencyResult: a load, a returning atomic, a flue read or an acc.mv lands and its pending bits clear. -/
def execVariableLatencyResult (s : State) : Host.Outcome State Fault Refusal :=
  .next (match s.moveDue with
    | some l =>
      let c := { s.core with land := s.core.land.erase l }
      let dst := l.writes.filterMap fun w => match w with | .lanes n _ _ => some (Reg.v n) | _ => none
      { s with core := c.landLate l.h l.slot l.split l.seq s.cycle dst l.writes }
    | none => match s.lateDue with
      | none => s
      | some a =>
        if a.kind == .flueWait then s.flueDone a
        else
          let c := (s.core.landLate a.h a.slot a.split a.seq s.cycle a.dst a.writes).dropAccess a.id
          { s with core := c.keepAnswer a })

end Sys2Proof.Machine
end

