-- ==== Sys2Proof/Machine/Trap.lean ====
section
/-! DEFINITION. How splits stop and go on: the team trap handler's start and end (R291 to R295), debug stops (R305), the
end and halt of a team (R410), traps at a fetch (R66, R80, R91), and results that land (R20). -/

namespace Sys2Proof.Machine

/-! ### Ending a team (R295, R318, R410) -/

/-- A launch by its number. -/
def Launching.launch? (l : Launching) (id : Nat) : Option Launch := l.launches.find? fun x => x.id == id
/-- Change a launch. -/
def Launching.modLaunch (l : Launching) (id : Nat) (f : Launch → Launch) : Launching :=
  { l with launches := l.launches.map fun x => if x.id == id then f x else x }
/-- %LAUNCH of a part. -/
def State.launchNum (s : State) (p : Part) : Nat := ((s.lch.launch? p.launch).map fun x => x.num).getD 0

/-- The queued A ops of a part, by group number and op, as they stand: 1 started, 2 not (R416). -/
def Core.engineEntries (c : Core) (p : Part) : List (Nat × Nat × List Byte) :=
  c.engs.filterMap fun e => match c.group? e.h e.slot with
    | some g => if g.part = p.id then some (g.num, e.id, e.entry (if e.started then 1 else 2) 0) else none
    | none => none

/-- The op belongs to a group of a part. -/
def Core.ofPart (c : Core) (p : Part) (h slot : Nat) : Bool :=
  match c.group? h slot with | some g => g.part == p.id | none => false

/-- A claim of one of a part's splits is over (R255). -/
def Core.dropClaim (c : Core) (p : Part) : Core :=
  c.modHearth p.h fun hr => { hr with claim := hr.claim.filter fun x => !(c.ofPart p p.h x.1) }

/-- A part stops for good: ops not started go, faulted lanes are forgotten, and nothing issues any more (R410, R411). -/
def Core.haltPart (c : Core) (p : Part) (ev : Option TrapEv) : Core :=
  let own := fun (h slot : Nat) => c.ofPart p h slot
  let stay := fun (q : Part) => { q with
    halt := 1, dump := if ev.isSome then 1 else 0, fates := c.engineEntries p, handler := none, stop := [],
    events := ev.toList }
  let c' := (c.dropClaim p).modPart p.id stay
  let gone := (c.mats.filter fun m => own m.h m.slot && m.left == m.steps && !m.running).map fun m => m.id
  { c' with
    engs := c'.engs.filter fun e => !(own e.h e.slot) || e.started
    mats := c'.mats.filter fun m => !(gone.contains m.id)
    groups := c'.groups.map fun g => { g with pend := g.pend.filter fun x => !(gone.contains x.2.2) }
    accs := c'.accs.filterMap fun a =>
      if !(own a.h a.slot) then some a
      else
        let b := { a with faulted := 0, replay := [] }
        if b.due.isSome || b.todo != 0 || b.remote != 0 then some b
        else if b.done != 0 && !b.dst.isEmpty then some { b with due := some b.cycle } else none }

/-- A launch ends early: the first cause stands, and its teams that are not resident go (R318). -/
def Launch.finish (l : Launch) (why : Nat × Nat × Nat × Nat × Nat) : Launch :=
  let ended := fun (t : Team) =>
    match t.state with
    | .resident => { t with state := .halted }
    | .halted => t
    | _ => { t with state := .done, saved := [] }
  { l with status := match l.status with | some x => some x | none => some why, teams := l.teams.map ended }

/-- End a launch early, halting its resident teams; `keep` says what dump a part leaves (R318, R410). -/
def State.endLaunch (s : State) (id : Nat) (why : Nat × Nat × Nat × Nat × Nat) (keep : Part → Option TrapEv) : State :=
  match s.lch.launch? id with
  | none => s
  | some l =>
    if l.status.isSome then s
    else
      let c := (s.core.parts.filter fun p => p.launch == id && p.halt == 0).foldl (fun c p => c.haltPart p (keep p)) s.core
      let lch := s.lch.modLaunch id fun l => l.finish why
      { s with core := c, lch := { lch with swapMons := lch.swapMons.filter fun m => m.launch != id } }

/-- A team ends on an event: STATUS 6 by the handler's choice, 7 without (R293, R295). The event names %GROUP for the
dump, and the first halted cycle. -/
def State.endTeam (s : State) (p : Part) (ev : TrapEv) (status code2 : Nat) : State :=
  let num := ((s.core.group? p.h ev.slot).map fun g => g.num).getD ev.slot
  let ev' : TrapEv := { ev with slot := num, cycle := s.cycle + 1 }
  s.endLaunch p.launch (status, ev.code, code2, p.team, ev.pc) fun q => if q.team = p.team then some ev' else none

/-! ### Sequencer runs that go on (R110 to R112) -/

/-- Body cycles of a run. -/
def SeqRun.total (r : SeqRun) : Nat := (r.trip + r.stages - 1) * r.ii

/-- A split's run steps to its next body cycle, or ends (R110, R111). -/
def Group.seqNext (g : Group) (n : Nat) : Group :=
  match (g.split n).seqRun with
  | none => g
  | some r =>
    if r.t + 1 < r.total then g.modSplit n fun e => { e with seqRun := some { r with t := r.t + 1 } }
    else
      let after := match r.body.getLast? with | some b => b.2 | none => r.last
      { g.modSplit n fun e => { e with seqRun := none, offset := after } with
        vrot := (r.vrotStart + 16 - r.trip % 16) % 16, seqIter := BitVec.ofNat 64 r.trip }

/-! ### The end of a handler run (R293, R294) -/

/-- A split is released, unless a trap held for it is delivered first (R288, R293). -/
def Core.resume (c : Core) (p : Part) (slot split cycle : Nat) (f : SplitE → SplitE) : Core :=
  match c.group? p.h slot with
  | none => c
  | some g =>
    let e := g.split split
    let ready := fun (e : SplitE) =>
      let n := f e
      { n with state := .ready, waitarg := 0, waitstart := cycle + 1, age := 0, stopped := false, refetch := none,
               born := some (9, cycle), passBrk := n.passBrk && n.offset == e.offset }
    match e.held with
    | [] => c.modSplit p.h slot split ready
    | ev :: r =>
      let c := c.modSplit p.h slot split fun e => { ready e with held := r }
      match c.group? p.h slot with
      | some g => c.raise g { ev with cycle := cycle }
      | none => c

/-- Splits of a group that a stop parked (R305). -/
def Group.stoppedSplits (g : Group) : List Nat :=
  (List.range 4).filter fun n => (g.split n).state == .parked && (g.split n).stopped

/-- Release what a stop of the group parked (R305). -/
def Core.releaseStop (c : Core) (p : Part) (slot cycle : Nat) : Core :=
  match c.group? p.h slot with
  | none => c
  | some g => g.stoppedSplits.foldl (fun c n => c.resume p slot n cycle id) c

/-- The handler of a part has issued a tret with this action, its results have landed, and a checkpoint has released
what the selected group held (R279, R293). -/
def State.tretDue (s : State) (action : Nat) : Option (Part × HandlerRun) :=
  s.core.parts.findSome? fun p => match p.handler with
    | none => none
    | some r =>
      let busy := s.core.land.any fun l => l.split == 4 && s.core.ofPart p l.h l.slot
      let held := match s.core.group? p.h r.slot with | some g => !g.gated.isEmpty | none => false
      if r.done && r.lanes != 0 && r.action == action && p.halt == 0 && !busy && !held then some (p, r) else none

/-- The run is over; the next may start at the next cycle (R291). A split that it selected, left TRAPPED and did not come
back to is an event again (R288). -/
def Core.endRun (c : Core) (p : Part) (cycle : Nat) : Core :=
  let left := match p.handler with
    | none => []
    | some r => r.shown.filter fun e => !(e.slot == r.slot && e.split == r.split) && (match c.group? p.h e.slot with
        | some g => g.part == p.id && (g.split e.split).state == .trapped
        | none => false)
  c.modPart p.id fun p => { p with handler := none, handlerAt := cycle + 1, events := left ++ p.events }

/-- A run whose last lane has ended is over without an action: a split that it has selected and left TRAPPED is an event again
(R106, R291; log entry 93). -/
def Core.quitRun (c : Core) (p : Part) (cycle : Nat) : Core :=
  let left := match p.handler with
    | none => []
    | some r => r.shown.filter fun e => match c.group? p.h e.slot with
        | some g => g.part == p.id && (g.split e.split).state == .trapped
        | none => false
  c.modPart p.id fun p => { p with handler := none, handlerAt := cycle + 1, events := left ++ p.events }

/-- Runs of the handler that have no lane left end. -/
def Core.quitRuns (c : Core) (cycle : Nat) : Core :=
  (c.parts.filter fun p => p.halt == 0 && match p.handler with
    | some r => r.lanes == 0 && !(c.land.any fun l => l.split == 4 && c.ofPart p l.h l.slot)
    | none => false).foldl (fun c p => c.quitRun p cycle) c

/-- The selected split stood still when the run ended. -/
def Core.stands (c : Core) (p : Part) (r : HandlerRun) : Bool :=
  match c.group? p.h r.slot with
  | none => false
  | some g => (g.split r.split).state == .parked || (g.split r.split).state == .trapped

/-- The bank that SBANK writes back (R289). -/
def HandlerRun.bankFor (r : HandlerRun) (e : SplitE) : SplitE := if r.sbank then { e with bank := r.bank } else e

/-- The offset after the record at %TRAP_PC, a reserved byte being a record of length 1 (R65, R294); that offset itself when no
record stands there. -/
def State.afterPc (s : State) (p : Part) (pc : Nat) : Nat :=
  match s.recordAt p pc with
  | .ok r => r.nxt
  | .bad code _ _ off => if code = trapReservedField then off + 1 else pc
  | .absent _ => pc

/-- %TRAP_PC as a stream offset. -/
def HandlerRun.offsetOf (r : HandlerRun) : Nat := r.pc.toNat % 2 ^ 32

/-- The split goes on with its whole mask, and no replayed record is left to issue (R293). -/
def SplitE.whole (e : SplitE) : SplitE := { e with rmask := LaneMask.all, replay := none }

/-- The record at %TRAP_PC is still to issue in a sequencer run's schedule: the split stopped at or before it (R112, R286). -/
def HandlerRun.inPlace (r : HandlerRun) (e : SplitE) : Bool :=
  let before := r.origin == 0 || r.origin == 4 || r.origin == 5 || (r.origin == 6 && decide (0x100 ≤ (r.info.getD 0 0).toNat))
  before && e.nextOffsets.contains r.offsetOf

/-- The iteration of the op that trapped, when %TRAP_PC still names its record. -/
def HandlerRun.iter (r : HandlerRun) : Option Nat :=
  (r.shown.find? fun e => e.slot == r.slot && e.split == r.split && e.pc == r.offsetOf).bind fun e => e.iter

/-- The record at %TRAP_PC is issued next under %TRAP_MASK: in a sequencer run as part of its schedule when it is still to issue
there, else once before the schedule goes on, with the iteration that it had (R112, R293; log entry 108). -/
def SplitE.again (e : SplitE) (r : HandlerRun) : SplitE :=
  if e.seqRun.isNone then { e.whole with offset := r.offsetOf, rmask := r.mask }
  else if r.inPlace e then { e with rmask := r.mask }
  else { e with rmask := r.mask, replay := some (r.offsetOf, r.iter) }

/-- The split goes on after the record at %TRAP_PC; within a sequencer run its schedule goes on (R112, R293). -/
def State.skipTo (s : State) (c : Core) (p : Part) (r : HandlerRun) : Core :=
  match c.group? p.h r.slot with
  | none => c
  | some g =>
    let e := g.split r.split
    let c := if e.seqRun.isSome && e.replay.isNone && r.inPlace e then c.putGroup (g.seqNext r.split) else c
    let to' := if e.seqRun.isSome then fun (e : SplitE) => e.whole else fun e => { e.whole with offset := s.afterPc p r.offsetOf }
    c.resume p r.slot r.split s.cycle fun e => r.bankFor (to' e)

/-- A tret whose action lets the split stand or go on: `f` is what becomes of it, and a stop releases what it parked. -/
def State.tret (s : State) (action : Nat) (f : Core → Part → HandlerRun → Core) : State :=
  match s.tretDue action with
  | none => s
  | some (p, r) =>
    let s := s.release p.h (p.scopeOf 2)
    let c := s.core.endRun p s.cycle
    let c := f c p r
    { s with core := if r.code = trapDebugStop && r.origin = 6 && s.core.stands p r then c.releaseStop p r.slot s.cycle else c }

/-- R293 REPLAY: the record at %TRAP_PC issues once under %TRAP_MASK. -/
def execTretReplay (s : State) : Host.Outcome State Fault Refusal :=
  .next (s.tret 0 fun c p r =>
    if !(c.stands p r) then c
    else c.resume p r.slot r.split s.cycle fun e => r.bankFor (e.again r))

/-- R293 SKIP: the split goes on after the record at %TRAP_PC. -/
def execTretSkip (s : State) : Host.Outcome State Fault Refusal :=
  .next (s.tret 1 fun c p r => if c.stands p r then s.skipTo c p r else c)

/-- R293 GOTO: the split goes on at %TRAP_PC; an illegal target traps BAD_TARGET there. -/
def execTretGoto (s : State) : Host.Outcome State Fault Refusal :=
  .next (s.tret 2 fun c p r =>
    if !(c.stands p r) then c
    else
      let c := c.resume p r.slot r.split s.cycle fun e => r.bankFor { e.whole with offset := r.offsetOf, seqRun := none }
      if s.landing p r.offsetOf then c
      else match c.group? p.h r.slot with
        | none => c
        | some g =>
          let m := (g.split r.split).mask
          let x : Ctx := { c.ctx with h := p.h, slot := r.slot, split := r.split, off := r.offsetOf, iter := none }
          c.raise g ((trapOf trapBadTarget m r.offsetOf 0).event x 0 s.cycle))

/-- R293 EXIT: lanes of %TRAP_MASK end, and the rest goes on as SKIP. -/
def execTretExit (s : State) : Host.Outcome State Fault Refusal :=
  .next (s.tret 3 fun c p r =>
    match c.group? p.h r.slot with
    | none => c
    | some g =>
      let still := c.stands p r
      let c := c.putGroup (g.endLanes r.split (r.mask &&& (g.split r.split).mask))
      if still && (g.split r.split).mask &&& ~~~r.mask != 0 then s.skipTo c p r else c)

/-- R293 PARK: only a later selection and tret release the split. -/
def execTretPark (s : State) : Host.Outcome State Fault Refusal :=
  .next (s.tret 4 fun c p r =>
    if !(c.stands p r) then c
    else c.modSplit p.h r.slot r.split fun e =>
      r.bankFor { e with state := .parked, waitarg := 0, waitstart := s.cycle + 1, stopped := false, refetch := none })

/-- The event that the handler's selection shows. -/
def HandlerRun.event (r : HandlerRun) (cycle : Nat) : TrapEv :=
  { slot := r.slot, split := r.split, code := r.code, origin := r.origin, pc := r.offsetOf, mask := r.mask,
    info0 := r.info.getD 0 0, info1 := r.info.getD 1 0, info2 := r.info.getD 2 0, info3 := r.info.getD 3 0, cycle := cycle }

/-- R293 END: the team ends, and the launch reports CODE and %TRAP_PC. -/
def execTretEnd (s : State) : Host.Outcome State Fault Refusal :=
  .next (match s.tretDue 5 with
    | none => s
    | some (p, r) => ({ s with core := s.core.endRun p s.cycle } : State).endTeam p (r.event s.cycle) 6 0)

/-! ### The start of a handler run (R288, R291, R295) -/

/-- The event served first: by cycle, then slot, then split (R288). -/
def firstEvent (l : List TrapEv) : Option TrapEv :=
  l.foldl (fun b e => match b with
    | none => some e
    | some x => if [e.cycle, e.slot, e.split] < [x.cycle, x.slot, x.split] then some e else some x) none

/-- A part whose handler starts, or which ends on a trap inside its handler or for want of one. -/
def State.handlerDue (s : State) : Option (Part × TrapEv) :=
  s.core.parts.findSome? fun p =>
    if p.halt != 0 then none
    else match p.events.find? fun e => e.split == 4 with
      | some e => some (p, e)
      | none =>
        if p.handler.isSome then none
        else match firstEvent p.events with
          | none => none
          | some e => if p.handlerOff == 0xFFFFFFFF || decide (p.handlerAt ≤ s.cycle + 1) then some (p, e) else none

/-- R291 handlerStart: the handler selects the oldest event and begins. -/
def execHandlerStart (s : State) : Host.Outcome State Fault Refusal :=
  .next (match s.handlerDue with
    | none => s
    | some (p, e) =>
      if e.split = 4 then
        match p.handler with
        | some r => s.endTeam p (r.event s.cycle) 7 e.code
        | none => { s with core := s.core.modPart p.id fun p => { p with events := p.events.filter fun x => x.split != 4 } }
      else if p.handlerOff = 0xFFFFFFFF then s.endTeam p e 7 0
      else
        let r : HandlerRun :=
          { offset := p.handlerOff, bank := [], slot := e.slot, split := e.split, sbank := false, action := 0,
            hsel := false, origin := 0, code := 0, pc := 0, mask := 0, info := [0, 0, 0, 0], age := 1023,
            ready := s.cycle + 1, wait := (1, 0), waitOff := 0, done := false, shown := [] }
        let s := s.acquire p.h (p.scopeOf 2)
        let c := s.core.modPart p.id fun p => { p with handler := some r }
        { s with core := selectSplit c p r e.slot e.split s.cycle })

/-! ### Debug stops (R305, R367) -/

/-- The breakpoint that a split stands at. -/
def Part.breakAt (p : Part) (e : SplitE) : Option Nat :=
  if e.passBrk || e.seqRun.isSome && e.nextOffsets.isEmpty then none
  else if e.state == .ready || e.state == .held || e.state == .ember then
    p.brk.findIdx? fun b => b != 0xFFFFFFFF && e.nextOffsets.contains b
  else none

/-- The first split of a part at a breakpoint, as the stop it gives. -/
def State.breakDue (s : State) (p : Part) : Option TrapEv :=
  if !p.started then none
  else (s.core.groups.filter fun g => g.part == p.id).findSome? fun g =>
    (List.range 4).findSome? fun n => (p.breakAt (g.split n)).map fun b =>
      { slot := g.slot, split := n, code := trapDebugStop, origin := 6, pc := p.brk.getD b 0, mask := (g.split n).mask,
        info0 := BitVec.ofNat 64 (0x100 + b), info1 := 0, info2 := 0, info3 := 0, cycle := s.cycle }

/-- A part with a debug stop to carry out. -/
def State.stopDue (s : State) : Option (Part × TrapEv) :=
  s.core.parts.findSome? fun p =>
    if p.halt != 0 then none
    else match p.stop with
      | e :: _ => some (p, e)
      | [] => (s.breakDue p).map fun e => (p, e)

/-- The split that takes a stop: the one named, or the group's first one. -/
def Group.stopSplit (g : Group) (n : Nat) : Nat :=
  if (g.split n).state != .free then n else g.liveSplits.headD n

/-- R305 debugStop: the whole group stops; the debugger or the handler hears of it. -/
def execDebugStop (s : State) : Host.Outcome State Fault Refusal :=
  .next (match s.stopDue with
    | none => s
    | some (p, ev) =>
      let c := s.core.modPart p.id fun p => { p with stop := p.stop.drop 1 }
      match c.group? p.h ev.slot with
      | none => { s with core := c }
      | some g =>
        let n := g.stopSplit ev.split
        let ev : TrapEv := { ev with split := n, mask := if ev.mask = 0 then (g.split n).mask else ev.mask }
        let c := c.modSplit p.h ev.slot n fun e => { e with passBrk := true }
        let c := (List.range 4).foldl (fun c m => c.modSplit p.h ev.slot m fun e => e.parkFor s.cycle) c
        if bitNat p.flags 3 then
          let c := c.modPart p.id fun p => { p with stopAt := some ev }
          ({ s with core := c } : State).adminEvent p.func (4 + 2 ^ 8 * p.team + 2 ^ 32 * s.launchNum p)
        else
          match c.group? p.h ev.slot with
          | none => { s with core := c }
          | some g => { s with core := c.raise g ev })

/-! ### Traps of the record itself (R29, R66, R80, R91) -/

/-- R91: an unlisted opcode traps RESERVED_FIELD when its active mask is not empty. -/
def execReservedOpcode (sl : Slot) (w : BitVec 64) (s : State) : Host.Outcome State Fault Refusal :=
  coreOp s fun s => slotOp s sl (readHdr w) (fun _ => some 0) fun v _ => .ok v.st.core

/-- R80 refusedEntryIssue: ILLEGAL_ENTRY with the split's whole mask. -/
def execRefusedEntryIssue (s : State) : Host.Outcome State Fault Refusal :=
  coreOp s fun s =>
    if s.core.ctx.reason = 0 then s.core
    else takeTrap s (trapOf trapIllegalEntry s.core.ctx.smask (s.core.ctx.idx + s.core.ctx.reason * 2 ^ 20) 0) 0

/-- R66 streamFetchFault: what the fetch met, as a trap of that record's issue. -/
def execStreamFetchFault (s : State) : Host.Outcome State Fault Refusal :=
  coreOp s fun s =>
    if s.core.ctx.fetch.1 = 0 then s.core
    else takeTrap s (trapOf s.core.ctx.fetch.1 s.core.ctx.smask s.core.ctx.fetch.2.1 s.core.ctx.fetch.2.2) 0

/-! ### Fixed-latency results (R20, R21) -/

/-- The result that lands first among those due: the earliest issued. -/
def State.landDue (s : State) : Option Landing :=
  (s.core.land.filter fun l => !l.late && decide (l.due ≤ s.cycle)).foldl (fun b l => match b with
    | none => some l
    | some x => if [l.due, l.seq] < [x.due, x.seq] then some l else some x) none

/-- R20 resultWriteback. -/
def execResultWriteback (s : State) : Host.Outcome State Fault Refusal :=
  .next (match s.landDue with
    | none => s
    | some l => { s with core := ({ s.core with land := s.core.land.erase l } : Core).landResult l s.cycle })

end Sys2Proof.Machine
end

