-- ==== Sys2Proof/Machine/Check.lean ====
section
/-! DEFINITION. Checkpoints (R115, R300, R301), the release of held stores (R279, R280), rollback, reruns and retirement
(R302, R303, R384, R385), data that fails its checks (R387, R388), and predictive counters (R392, R393). -/

namespace Sys2Proof.Machine

/-! ### The checkpoint (R115, R301) -/

/-- A group as it stands at a boundary. -/
def Group.save (g : Group) (seq cycle : Nat) (tiles : List (Nat × Tile)) : GroupSave :=
  { v := g.v, k := g.k, sh := g.sh, a := g.a, fflags := g.fflags, isat := g.isat, fctl := g.fctl, vrot := g.vrot,
    seqIter := g.seqIter, issues := g.issues, splits := g.splits, idents := g.idents, regionCtr := g.regionCtr,
    areaFree := g.areaFree, sides := g.sides, tags := g.tags, tiles := tiles, stCount := g.stCount,
    flues := g.flues, seq := seq, cycle := cycle }

/-- Ask for a checkpoint at this boundary, with the tiles of a mask named (R115); `who` are the splits whose next bundle it
lets issue, after a rollback too (R301). -/
def Group.askCheckpoint (g : Group) (mask seq cycle : Nat) (who : List Nat) : Group :=
  if g.ckptReq.isSome then g
  else
    let n := g.save (seq - 1) cycle []
    let pass := n.splits.mapIdx fun i e => if who.contains i then { e with ckptOk := true } else e
    { g with ckptReq := some (mask, seq - 1), next := some { n with splits := pass } }

/-- A line that the group has consumed waits for its check (R115, R388). -/
def Caches.unverified (c : Caches) (g : Group) : Bool :=
  g.recorded.any fun r => r.2.1 == 5 && !r.1 && c.refetch.any fun l => (Loc.ofLine r.2.2).line == l

/-- The checkpoint of a group can close (R301). -/
def State.canClose (s : State) (g : Group) : Bool :=
  match g.ckptReq with
  | none => false
  | some (_, b) =>
    let here := fun (h slot : Nat) => h == g.h && slot == g.slot
    let results := fun (a : Access) => match a.kind with
      | .pf | .acq | .rel | .fence | .spawn | .wmon | .bind => false
      | _ => true
    !(s.core.accs.any fun a => here a.h a.slot && ((a.kind.logged && a.faulted != 0) || (results a && decide (a.seq ≤ b)))) &&
    !(s.core.mats.any fun m => here m.h m.slot && decide (m.seq ≤ b)) &&
    !(s.core.land.any fun l => here l.h l.slot && decide (l.seq ≤ b)) &&
    decide (g.lastLand + 16 ≤ s.cycle) && !(s.cch.unverified g)

/-- Where a held store goes. -/
def Gated.loc (e : Gated) : Loc := { tgt := e.tgt, dev := e.dev, pa := e.pa }

/-- A held store is released: to the hearth's L1 and the stove L2, or to its home when the L2 does not keep it (R262, R280). The
lanes of one op that write one line make one request (R266). -/
def State.releaseStore (s : State) (h : Nat) (e : Gated) (reqs : Nat := 1) : State :=
  let all := fun _ => true
  if e.nc then s.sendHome e.world e.loc all e.bytes (h + 1)
  else
    let s : State := { s with cch := s.cch.note h e.loc }
    (s.updateL1 h e.loc all e.bytes).writeL2 (stoveOf h) e.loc e.world all e.bytes reqs (h + 1)

/-- Held stores issued up to `b` are released in order (R279). -/
def State.releaseHeld (s : State) (g : Group) (b : Nat) : State :=
  let out := g.gated.filter fun e => decide (e.seq ≤ b)
  let same := fun (d e : Gated) => d.seq == e.seq && d.loc.line128 == e.loc.line128
  let s := out.zipIdx.foldl (fun s e => s.releaseStore g.h e.1 (if (out.take e.2).any fun d => same d e.1 then 0 else 1)) s
  { s with core := s.core.modGroup g.h g.slot fun g => { g with gated := g.gated.filter fun e => !(decide (e.seq ≤ b)) } }

/-- The split waited at the boundary for this checkpoint. -/
def ckptWaiter (e old : SplitE) : Bool :=
  e.state == .held && e.waitarg == 6 && old.state == .held && old.waitarg == 6 && e.waitstart == old.waitstart

/-- What closing leaves of a group: its records of the interval go, and its tiles are shadowed one after another. -/
def Group.closed (g : Group) (mask cycle : Nat) : Group :=
  let named := (List.range 4).filter (bitNat mask)
  let keep := (g.recorded.filter fun r => r.1).map fun r => (false, r.2)
  let bytes := (keep.map fun r => recordBytes r.2.1).sum
  let old := match g.next with | some n => n.splits | none => g.splits
  { g with
    ckpt := g.next.map fun n => { n with tiles := named.filterMap fun t => (g.acc[t]?).map fun x => (t, x) }
    next := none
    ckptReq := none
    recorded := keep
    ckptBytes := bytes
    blocks := Nat.min g.blocks (ceilDiv bytes 4096)
    full := false
    answers := g.answers.filter fun a => a.orphan || (match g.next with | some n => decide (n.seq < a.seq) | none => false)
    undo := (g.undo.filter fun u => u.after).map fun u => { u with after := false }
    reads := (g.reads.filter fun r => r.1).map fun r => (false, r.2)
    shadowing := g.shadowing ++ named.mapIdx fun i t => (t, cycle + 128 * (i + 1))
    splits := g.splits.mapIdx fun i e => { e with ckptOk := e.ckptOk || ((old.getD i freeSplit).ckptOk && ckptWaiter e (old.getD i freeSplit)) } }

/-- HELD with cause 6, as the handler waits for a checkpoint of its group (R292, R301). -/
def handlerHeld : Nat × W32 := (2, 6)
/-- The checkpoint that it waits for has been asked for. -/
def handlerAsked : Nat × W32 := (2, 0x206)
/-- That checkpoint has closed. -/
def handlerPast : Nat × W32 := (1, 6)

/-- The handler's checkpoint of a group has closed. -/
def Part.closed (p : Part) (slot : Nat) : Part :=
  { p with handler := p.handler.map fun r => if r.slot = slot && r.wait = handlerAsked then { r with wait := handlerPast } else r }

/-- The first group whose checkpoint can close. -/
def State.closeDue (s : State) : Option Group := s.core.groups.find? s.canClose

/-- R301 checkpointClose: held stores are released and the interval's records are discarded. -/
def execCheckpointClose (s : State) : Host.Outcome State Fault Refusal :=
  .next (match s.closeDue with
    | none => s
    | some g => match g.ckptReq with
      | none => s
      | some (mask, b) =>
        let t := s.releaseHeld g b
        { t with core := (t.core.modGroup g.h g.slot fun g => g.closed mask s.cycle).modPart g.part fun p => p.closed g.slot })

/-- The first tile whose shadow is complete. -/
def State.shadowDue (s : State) : Option (Group × Nat × Nat) :=
  s.core.groups.findSome? fun g => (g.shadowing.find? fun t => decide (t.2 ≤ s.cycle)).map fun t => (g, t)

/-- R115 tileShadowDone. -/
def execTileShadowDone (s : State) : Host.Outcome State Fault Refusal :=
  .next (match s.shadowDue with
    | none => s
    | some (g, t) => { s with core := s.core.modGroup g.h g.slot fun g => { g with shadowing := g.shadowing.erase t } })

/-! ### Rollback (R302) -/

/-- Put back an overwritten byte. -/
def State.undoByte (s : State) (g : Group) (p : Part) (u : Undo) : State :=
  if u.space = 0 then
    { s with core := s.core.modPart p.id fun p => { p with scratch := cellWrite p.scratch u.addr u.old } }
  else
    match s.translate (stoveOf g.h) p.world u.addr .write with
    | .fault _ _ => s
    | .ok t l leaf => t.privPut g.h g.slot 0 p.world (BitVec.ofNat 64 u.addr) l leaf [u.old] false

/-- A group as its checkpoint saved it; tiles not named hold undefined values (R115). Tags count the ops that are still
queued, and writes of ops issued before the checkpoint are held as they were. -/
def Group.fromSave (g : Group) (n : GroupSave) (free : Nat) (counts : List Nat) : Group :=
  { g with
    v := n.v, k := n.k, sh := n.sh, a := n.a, fflags := n.fflags, isat := n.isat, fctl := n.fctl, vrot := n.vrot
    seqIter := n.seqIter, issues := n.issues, splits := n.splits, idents := n.idents, regionCtr := n.regionCtr
    areaFree := n.areaFree, sides := n.sides, stCount := n.stCount, flues := n.flues
    tags := n.tags.mapIdx fun i t => { t with count := counts.getD i 0 }
    acc := g.acc.mapIdx fun i _ => match n.tiles.find? fun t => t.1 == i with
      | some t => t.2
      | none => (List.range 128).map fun r => Vec.build fun c => Config.freeWord (free + 16384 * i + 128 * r + c)
    pend := [], gated := g.gated.filter fun e => decide (e.seq ≤ n.seq), recorded := [], undo := [], reads := [], ckptReq := none
    next := none, ckptBytes := 0, blocks := 0, full := false, shadowing := [] }

/-- The discarded ops whose effect a rerun does not repeat: what they did stays in the read log (R301, R304). -/
def Group.keepDone (g : Group) (gone : List Access) : Group :=
  let done := gone.filter fun a => a.kind.answered && (a.done != 0 || a.remote != 0 || a.lost != 0)
  { g with answers := (g.answers ++ done).map fun a => { a with orphan := true } }

/-- Ops of the group issued after its checkpoint are forgotten (R203, R208). -/
def State.dropAfter (s : State) (g : Group) (b : Nat) : State :=
  let gone := fun (h slot seq : Nat) => h == g.h && slot == g.slot && decide (b < seq)
  let c := s.core
  let engs := c.engs.filter fun e => gone e.h e.slot e.seq
  let loads := (engs.filter fun e => e.kind == .tnLd).map fun e => e.o1.toNat
  let c' : Core := { c with
    land := c.land.filter fun l => !(gone l.h l.slot l.seq)
    accs := c.accs.filter fun a => !(gone a.h a.slot a.seq)
    engs := c.engs.filter fun e => !(gone e.h e.slot e.seq)
    mats := c.mats.filter fun m => !(gone m.h m.slot m.seq) }
  { s with
    core := (c'.modGroup g.h g.slot fun x => x.keepDone (c.accs.filter fun a => gone a.h a.slot a.seq)).modPart g.part fun p =>
      { p with tnPend := loads.foldl (fun l n => l.erase n) p.tnPend }
    fab := engs.foldl (fun f e => f.leaveCollect e.id) s.fab }

/-- The entries of a group's region area that its sides and splits use stand again as they say (R242, R302). -/
def State.regionRestore (s : State) (h slot : Nat) : State :=
  match s.core.group? h slot with
  | none => s
  | some g => match s.core.part? g.part with
    | none => s
    | some p => (List.range 256).foldl (fun s e => match g.areaBytes e with
        | none => s
        | some bs =>
          let va := privBaseOf p g - 16384 + 64 * e
          match s.translate (stoveOf h) p.world va .write with
          | .fault _ _ => s
          | .ok t l leaf => t.privPut h slot 0 p.world (BitVec.ofNat 64 va) l (leaf ||| 0x100) bs false) s

/-- A trap or stop that a rollback of a slot to a boundary does not withdraw (R304). -/
def TrapEv.stays (e : TrapEv) (slot cycle : Nat) : Bool := e.slot != slot || decide (e.cycle ≤ cycle)

/-- Traps and stops of the discarded interval are withdrawn; a handler's run that acts on the group is over (R304). -/
def Part.calm (p : Part) (slot cycle : Nat) : Part :=
  let stays := fun (e : TrapEv) => e.stays slot cycle
  let back := match p.handler with | some r => if r.slot = slot then r.shown.filter stays else [] | none => []
  { p with
    events := p.events.filter stays ++ back
    stop := p.stop.filter stays
    handler := (p.handler.filter fun r => r.slot != slot).map fun r => { r with shown := r.shown.filter stays } }

/-- Restore one group to its checkpoint; traps it raised since are withdrawn (R302, R304). -/
def State.rollGroup (s : State) (h slot : Nat) : State :=
  match s.core.group? h slot with
  | none => s
  | some g =>
    match s.core.part? g.part, g.ckpt with
    | some p, some n =>
      let s := (g.undo.foldl (fun s u => s.undoByte g p u) s).dropAfter g n.seq
      let c := s.core
      let counts := (List.range 16).map fun i => (c.engs.filter fun e => e.h == h && e.slot == slot && e.otag == i).length
      let free := s.core.free
      let c := c.modGroup h slot fun g => g.fromSave n free counts
      ({ s with core := { (c.modPart p.id fun p => p.calm slot n.cycle) with free := free + 65536 } } : State).regionRestore h slot
    | _, _ => s

/-- Groups of a part that read scratchpad granules which the groups of the numbers `l` wrote in their intervals (R302), and
those groups. -/
def Core.readers (c : Core) (part : Nat) (l : List Nat) : List Nat :=
  let own := c.groups.filter fun g => g.part == part
  let wrote := (own.filter fun g => l.contains g.num).flatMap fun g => (g.undo.filter fun u => u.space == 0).map fun u => u.addr / 64
  (own.filter fun g => l.contains g.num || g.reads.any fun r => wrote.contains r.2).map fun g => g.num

/-- Numbers of the groups that a rollback of some takes with it, on every hearth of the team (R302). -/
def Core.dependants (c : Core) (ps : List Part) : Nat → List Nat → List Nat
  | 0, l => l
  | n + 1, l =>
    let m := (l ++ ps.flatMap fun p => c.readers p.id l).eraseDups
    if m.length = l.length then l else c.dependants ps n m

/-- The parts of a part's team. -/
def Core.allParts (c : Core) (p : Part) : List Part := c.parts.filter fun q => q.launch == p.launch && q.team == p.team

/-- The groups that a rollback of the groups of these numbers restores: in a stove team, on all 16 hearths (R302). -/
def Core.rollSet (c : Core) (p : Part) (nums : List Nat) : List Group :=
  let l := c.dependants (c.allParts p) 16 nums
  c.groups.filter fun g => (c.allParts p).any (fun q => q.id == g.part) && l.contains g.num

/-- Roll a group back, with those that depend on it (R302). -/
def State.rollback (s : State) (h slot : Nat) : State :=
  match s.core.group? h slot with
  | none => s
  | some g => match s.core.part? g.part with
    | none => s
    | some p => (s.core.rollSet p [g.num]).foldl (fun s x => s.rollGroup x.h x.slot) s

/-! ### What the reruns bring back (R303) -/

/-- A byte of private memory as the hearth sees it. -/
def State.privByte (s : State) (g : Group) (p : Part) (va : Nat) : Byte :=
  match s.translate (stoveOf g.h) p.world va .read with
  | .fault _ _ => 0
  | .ok t l leaf => (if leafNC leaf || 2 ≤ l.tgt then t.homeRead l 1 else (t.readL1 g.h p.world (va / 128) true l 1).2).headD 0

/-- A group and its interval's ops as they stand. -/
def State.snapshot (s : State) (h slot : Nat) : Option Rolled :=
  match s.core.group? h slot with
  | none => none
  | some g =>
    match s.core.part? g.part, g.ckpt with
    | some p, some n =>
      let gone := fun (h' slot' seq : Nat) => h' == h && slot' == slot && decide (n.seq < seq)
      let at' := fun (k : Nat) => (g.undo.filter fun u => u.space == k).map fun u => u.addr
      some
        { group := g, cycle := s.cycle
          pad := (at' 0).map fun x => (x, cellRead p.scratch x)
          priv := (at' 1).map fun x => (x, s.privByte g p x)
          land := s.core.land.filter fun l => gone l.h l.slot l.seq
          accs := s.core.accs.filter fun a => gone a.h a.slot a.seq
          engs := s.core.engs.filter fun e => gone e.h e.slot e.seq
          mats := s.core.mats.filter fun m => gone m.h m.slot m.seq
          events := p.events.filter fun e => !(e.stays slot n.cycle)
          stop := p.stop.filter fun e => !(e.stays slot n.cycle)
          handler := p.handler.filter fun r => r.slot == slot }
    | _, _ => none

/-- Roll groups back, keeping how they stood. -/
def State.rollKeep (s : State) (l : List Group) : State × List Rolled :=
  l.foldl (fun (r : State × List Rolled) g => (r.1.rollGroup g.h g.slot, r.2 ++ (r.1.snapshot g.h g.slot).toList)) (s, [])

/-- An access of a group that its reruns have brought back to D: its pages and lines are tried again, and what was outstanding
has been answered meanwhile or is asked for again; an effect outside the group is in the read log (R301). -/
def Access.again (a : Access) (log : List Access) (late : Nat) : Access :=
  let a := { a with todo := a.todo ||| a.faulted, faulted := 0, replay := [], walked := 0, remote := 0, ready := a.ready + late
                    due := a.due.map (· + late) }
  match log.find? fun b => b.id == a.id with
  | some b => { a with done := b.done, got := b.got, remote := b.remote, lost := b.lost }
  | none => a

/-- The second rerun's state stands: the group is as it stood at D, later by the time of the reruns (R303). -/
def State.putRolled (s : State) (r : Rolled) : State :=
  let g := r.group
  match s.core.group? g.h g.slot with
  | none => s
  | some old =>
    match s.core.part? g.part with
    | none => s
    | some p =>
      let late := s.cycle - r.cycle
      let accs := r.accs.map fun a => a.again old.answers late
      let part := fun (p : Part) => { p with
        scratch := r.pad.foldl (fun m x => cellWrite m x.1 x.2) p.scratch
        tnPend := p.tnPend ++ (r.engs.filter fun e => e.kind == .tnLd).map fun e => e.o1.toNat
        events := p.events ++ r.events, stop := p.stop ++ r.stop
        handler := match p.handler with | some x => some x | none => r.handler }
      let c := (s.core.modGroup g.h g.slot fun _ => { g with
        busyUntil := g.busyUntil + late, lastLand := g.lastLand + late, shadowing := g.shadowing.map fun t => (t.1, t.2 + late)
        holds := old.holds }).modPart p.id part
      let c : Core := { c with
        land := c.land ++ r.land.map fun l => { l with due := l.due + late }
        accs := c.accs ++ accs
        engs := c.engs ++ r.engs.map fun e => { e with due := e.due + late, wait := if e.wait = 3 then 3 else 0 }
        mats := c.mats ++ r.mats.map fun m => { m with ready := m.ready + late } }
      r.priv.foldl (fun s x => s.undoByte g p { after := false, space := 1, addr := x.1, old := x.2 })
        { s with core := c, fab := r.engs.foldl (fun f e => f.rejoinCollect e.id) s.fab }

/-! ### Retirement of a hearth (R385) -/

/-- Change a team of a launch. -/
def Launching.modTeam (l : Launching) (id team : Nat) (f : Team → Team) : Launching :=
  l.modLaunch id fun x => { x with teams := x.teams.map fun t => if t.index == team then f t else t }

/-- A resident team is to be pre-empted. -/
def State.askLeave (s : State) (id team : Nat) (admin : Option (Nat × Nat)) : State :=
  let go := fun (t : Team) => if t.state = .resident && t.leaving != 2 then
      { t with leaving := 2, admin := match t.admin with | some x => some x | none => admin } else t
  let ps := s.core.parts.filter fun p => p.launch == id && p.team == team
  { s with lch := s.lch.modTeam id team go, core := ps.foldl Core.dropClaim s.core }

/-- A record of a hearth's position. -/
def State.hearthRecord (s : State) (h sev unit kind : Nat) : ErrRec :=
  { hubRecord sev unit kind with
    die := dieOf h, stove := stoveOf h % 8, pos := ((s.core.hearth? h).map fun x => x.pos).getD 0xFF }

/-- Position 16 of a hearth's stove can take a logical number. -/
def State.spareFree (s : State) (h : Nat) : Bool :=
  !(s.svc.retired.contains (stoveOf h, 16)) && !(s.core.hearths.any fun x => stoveOf x.h == stoveOf h && x.present && x.pos == 16)

/-- Retire a hearth's position: the spare takes its number, or the number is vacant; its teams leave (R385). -/
def State.retireHearth (s : State) (h : Nat) : State :=
  match s.core.hearth? h with
  | none => s
  | some hr =>
    if !hr.present then s
    else
      let free := s.spareFree h
      let r := s.hearthRecord h 3 0x02 5
      let s : State := { s with
        svc := { s.svc with retired := s.svc.retired ++ [(stoveOf h, hr.pos)] }
        core := s.core.modHearth h fun x => if free then { x with pos := 16 } else { x with present := false } }
      let s := s.file r
      let s := if free then s else s.replace 1 r
      (s.core.parts.filter fun p => p.h == h).foldl (fun s p => s.askLeave p.launch p.team none) s

/-! ### Predictive counters (R392) -/

/-- Advisory and action thresholds by kind of counter. -/
def Service.limits (v : Service) (kind : Nat) : Nat × Nat := (v.thresholds.getD (2 * kind) 0, v.thresholds.getD (2 * kind + 1) 0)

/-- Unit code of a kind of counter. -/
def counterUnit (kind : Nat) : Nat := match kind with | 0 => 0x11 | 1 => 0x12 | 2 => 0x13 | 3 => 0x10 | _ => 0x02

/-- Step a counter, with what the spec gives when it passes a threshold. -/
def State.predict (s : State) (kind unit : Nat) (r : ErrRec) (act : State → State) : State :=
  let old := (s.svc.counters.find? fun p => p.kind == kind && p.unit == unit).getD
    { kind := kind, unit := unit, buckets := List.replicate 24 0, advised := false, acted := false }
  let b := old.buckets.modify 0 (· + 1)
  let adv := decide ((s.svc.limits kind).1 < b.sum)
  let hit := decide ((s.svc.limits kind).2 < b.sum)
  let new : Predict := { old with buckets := b, advised := adv, acted := hit }
  let lim := s.svc.limits kind
  let rest := s.svc.counters.filter fun p => !(p.kind == kind && p.unit == unit)
  let s : State := { s with svc := { s.svc with counters := rest ++ [new] } }
  let note : ErrRec := { r with sev := 5, unit := counterUnit kind, kind := 7, detail := natLe 8 b.sum ++ natLe 8 lim.1 }
  let s := if adv && !old.advised then s.file note else s
  if hit && !old.acted then (act s).file { note with detail := natLe 8 b.sum ++ natLe 8 lim.2 } else s

/-- An hour ends: every window slides (R392). -/
def State.slideDue (s : State) : Bool := !s.svc.counters.isEmpty && s.cycle != 0 && s.cycle % 2880000000000 == 0 &&
  s.svc.counters.any fun p => p.buckets.length == 24

/-- R392 counterWindowSlide: the oldest bucket goes; the newest opens at the end of the cycle. -/
def execCounterWindowSlide (s : State) : Host.Outcome State Fault Refusal :=
  .next (if !s.slideDue then s
    else
      let slide := fun (p : Predict) =>
        let b := p.buckets.take 23
        { p with buckets := b, advised := p.advised && decide ((s.svc.limits p.kind).1 < b.sum),
                 acted := p.acted && decide ((s.svc.limits p.kind).2 < b.sum) }
      { s with svc := { s.svc with counters := s.svc.counters.map slide } })

/-! ### Compute errors and reruns (R302, R303, R384) -/

/-- A rerun of some group of the team holds it. -/
def State.rerunning (s : State) (p : Part) : Bool :=
  s.svc.reruns.any fun r => match s.core.group? r.h r.slot with
    | none => false
    | some g => (s.core.allParts p).any fun q => q.id == g.part

/-- Every split of a group that holds lanes takes CHECKPOINT_FAIL (R303). -/
def Core.checkpointFail (c : Core) (g : Group) (cycle : Nat) : Core :=
  g.liveSplits.foldl (fun c n =>
    let e := g.split n
    let x : Ctx := { c.ctx with h := g.h, slot := g.slot, split := n, off := e.offset }
    c.raise g ((trapOf trapCheckpoint e.mask 0 0).event x 0 cycle)) c

/-- The rollback counter of a physical hearth, whose action retires it (R392). -/
def State.countRollback (s : State) (g : Group) : State :=
  let h := g.h
  let pos := ((s.core.hearth? h).map fun x => x.pos).getD 0
  let s : State := { s with core := s.core.countGroup g 0x10 1, svc := { s.svc with rollbacks := s.svc.rollbacks + 1 } }
  s.predict 4 (17 * stoveOf h + pos) (s.hearthRecord h 5 0x02 7) fun s => s.retireHearth h

/-- The two %ISSUES counts and CRC-32C signatures of a pair of reruns, as a record's DETAIL holds them (R389; log entry
106). -/
def rerunDetail (one two : Nat × W32) : List Byte :=
  natLe 8 one.1 ++ natLe 8 two.1 ++ natLe 4 one.2.toNat ++ natLe 4 two.2.toNat

/-- The team goes back to its checkpoints and leaves its hearth, which is retired (R303, R385). -/
def State.giveUpHearth (s : State) (h slot unit : Nat) (detail : List Byte) : State :=
  match (s.core.group? h slot).bind fun g => s.core.part? g.part with
  | none => s
  | some p =>
    let s := s.file { s.hearthRecord h 2 unit 4 with detail := detail }
    let ps := s.core.allParts p
    let team := s.core.groups.filter fun x => ps.any fun q => q.id == x.part
    let s : State := { s with svc := { s.svc with
      reruns := s.svc.reruns.filter fun r => !(team.any fun x => x.h == r.h && x.slot == r.slot) } }
    (team.foldl (fun s x => s.rollGroup x.h x.slot) s).retireHearth h

/-- Groups of one part meet a compute error: those that no record covers, or whose share of the checkpoint buffer failed, take
CHECKPOINT_FAIL; a second error of the team gives the hearth up; else they and those that depend on them roll back (R302,
R303, R384). -/
def State.computeErrorIn (s : State) (p : Part) (gs : List Group) (unit : Nat) (covered : Bool) : State :=
  match gs with
  | [] => s
  | g :: _ =>
    if !covered then
      gs.foldl (fun s g => ({ s with core := s.core.checkpointFail g s.cycle } : State).file (s.hearthRecord g.h 3 unit 2)) s
    else if s.rerunning p then s.giveUpHearth g.h g.slot unit []
    else
      let r := s.rollKeep (s.core.rollSet p (gs.map fun x => x.num))
      let run : Rerun := { h := g.h, slot := g.slot, unit := unit, saved := r.2 }
      ({ r.1 with svc := { r.1.svc with reruns := r.1.svc.reruns ++ [run] } } : State).countRollback g

/-- R302 computeError: the group that owns the failing op or storage, or with slot 16 every group of the hearth; not
`covered` when no undo record covers the word or the checkpoint buffer itself failed (R303, R384). -/
def execComputeError (h slot unit : Nat) (covered : Bool) (s : State) : Host.Outcome State Fault Refusal :=
  .next ((s.core.parts.filter fun p => p.h == h).foldl
    (fun s p => s.computeErrorIn p
      (s.core.groups.filter fun g => g.h == h && g.part == p.id && (g.slot == slot || slot == 16)) unit covered) s)

/-- R303 rerunCompare: each rerun's %ISSUES and the CRC-32C of what it wrote. When they agree the groups go on from D; else
the hearth is retired (log entry 106). -/
def execRerunCompare (h slot : Nat) (runs : RerunPair) (s : State) : Host.Outcome State Fault Refusal :=
  .next (match s.svc.reruns.find? fun r => r.h == h && r.slot == slot with
    | none => s
    | some r =>
      let s : State := { s with svc := { s.svc with reruns := s.svc.reruns.erase r } }
      if runs.one = runs.two then
        (r.saved.foldl State.putRolled s).file { s.hearthRecord h 2 r.unit 3 with detail := rerunDetail runs.one runs.two }
      else s.giveUpHearth h slot r.unit (rerunDetail runs.one runs.two))

/-! ### Data that fails its checks (R387, R388) -/

/-- A line is found with an image that passes its check: what it decrypts to is what the device reads from now on (R333, R334). -/
def State.takeImage (s : State) (m : LineMeta) (cipher : List Byte) : State :=
  { s with mem := s.mem.modSpace m.loc.tgt fun c => cellsWrite c m.loc.pa (m.crypt cipher)
           sec := { s.sec with metas := m :: s.sec.metas.filter fun x => x.loc != m.loc } }

/-- R388 macCheckFail: the check of a line that is read as this ciphertext with this metadata. When it fails, the groups that
consumed the line roll back, and it is fetched once more; else the image is a good one (R334). -/
def execMacCheckFail (read : LineImage) (s : State) : Host.Outcome State Fault Refusal :=
  let l := Loc.ofLine read.line
  match s.sec.check l read.cipher read.md with
  | some m => .next (s.takeImage m read.cipher)
  | none =>
  let hit := s.core.groups.filter fun g => g.recorded.any fun r => r.2.1 == 5 && (Loc.ofLine r.2.2).line == l
  let s : State := { s with cch := { s.cch with refetch := if s.cch.refetch.contains l then s.cch.refetch else s.cch.refetch ++ [l] } }
  .next (hit.foldl (fun s g => s.rollback g.h g.slot) s)

/-- R388 macRefetchDone: the line is read once more, as the device left it or as another image; it is used, or those that need it
take MEM_ABORT. -/
def execMacRefetchDone (line : Nat) (image : Option (List Byte × List Byte)) (s : State) : Host.Outcome State Fault Refusal :=
  let l := Loc.ofLine line
  let good := image.bind fun x => (s.sec.check l x.1 x.2).map fun m => (m, x.1)
  let ok := good.isSome || (image.isNone && s.sec.passes l (s.sec.worldOf l))
  let s := match good with | some x => s.takeImage x.1 x.2 | none => s
  let free := fun (e : EngOp) => if e.wait = 4 then { e with wait := 0 } else e
  let s : State := { s with
    cch := { s.cch with refetch := s.cch.refetch.filter fun x => x != l,
                        macBad := if ok then s.cch.macBad else s.cch.macBad ++ [(l, s.core.seq)] }
    core := { s.core with engs := s.core.engs.map free } }
  .next (if ok then s else s.file { hubRecord 3 0x12 2 with addr := l.pa })

/-- The world that owns a stove L2's copy of a line. -/
def Caches.lineWorld (c : Caches) (l : Loc) : Nat := ((c.l2.find? fun e => e.loc == l).map fun e => e.owner).getD 0

/-- Dirty bytes of a line are lost, and memory keeps its older value: a stove's copy never reaches its home; of a line whose home held
them, which older bytes memory shows is open (R387; log entry 62). -/
def State.loseDirty (s : State) (l : Loc) : State :=
  let mine := fun (e : L2Copy) => e.loc == l && e.dirty != 0 && !e.bytes.isEmpty
  if s.cch.l2.any mine then { s with cch := { s.cch with l2 := s.cch.l2.filter fun e => !(mine e) } }
  else
    let bs := (List.range 256).map fun i => Config.freeByte (s.core.free + i)
    { s with mem := s.mem.modSpace l.tgt fun c => cellsWrite c l.pa bs, core := { s.core with free := s.core.free + 256 } }

/-- A line enters the lost-line table, with its world; a table that is full ends the world's launches (R387). -/
def State.enterLost (s : State) (l : Loc) (world : Nat) : State :=
  let s := s.loseDirty l
  if s.cch.lost.contains l then s
  else if 1024 ≤ s.cch.lost.length then
    (s.lch.launches.filter fun x => x.record.world == world).foldl (fun s x => s.endLaunch x.id (8, 0, 0, 0, 0) fun _ => none) s
  else { s with cch := { s.cch with lost := s.cch.lost ++ [l], lostOf := (l, world) :: s.cch.lostOf.filter fun x => x.1 != l } }

/-- R387 uncorrectableData: requesters abort, and lost dirty bytes enter the lost-line table. -/
def execUncorrectableData (line : Nat) (dirty : Bool) (unit : Nat) (s : State) : Host.Outcome State Fault Refusal :=
  let l := Loc.ofLine line
  let w := s.cch.lineWorld l
  let full := dirty && !(s.cch.lost.contains l) && decide (1024 ≤ s.cch.lost.length)
  let s := s.file { hubRecord (if full then 4 else 3) unit 2 with addr := l.pa, world := w }
  let s : State := { s with cch := { s.cch with poison := s.cch.poison ++ [l] } }
  .next (if dirty then s.enterLost l w else s)

/-- R393 rowSpareSwitch: one of the bank's 64 spare rows takes the row, or the module asks for its replacement. -/
def execRowSpareSwitch (die region bank row : Nat) (s : State) : Host.Outcome State Fault Refusal :=
  let used := (s.svc.spareRows.filter fun x => x.1 == die && x.2.1 == region && x.2.2.1 == bank).length
  let r : ErrRec := { hubRecord 0 0x10 6 with die := die, sub := 0x26, subn := row }
  let none' := fun (s : State) => s.replace 2 { hubRecord 5 0x10 7 with die := die, sub := 0x20, subn := bank }
  .next (if 64 ≤ used then none' s
    else
      let t := ({ s with svc := { s.svc with spareRows := s.svc.spareRows ++ [(die, region, bank, row)] } } : State).file r
      if used = 63 then none' t else t)

end Sys2Proof.Machine
end

