-- ==== Sys2Proof/Machine/Matrix.lean ====
section
/-! DEFINITION. The T slot at issue: the checks of R207 and R211 to R225, what an op captures, and the values its steps
compute (R54 to R61, R217 to R230). The steps themselves are in MatStep. -/

namespace Sys2Proof.Machine

/-! ### Operand entries (R209 to R213) -/

/-- The first violated field of a list: its lowest bit. -/
def firstField (l : List (Bool × Nat)) : Option Nat := (l.find? fun c => c.1).map fun c => c.2

/-- An operand entry that R210 or R212 does not allow: the lowest bit of the field. -/
def operandBad (e : List W64) : Option Nat :=
  let w := (e.getD 0 0).toNat
  firstField [(fmtWidth (bitsNat w 4 0) == 0, 0), ((e.drop 1).any (· != 0), 0), (bitsNat w 7 5 != 0, 5),
    (bitsNat w 9 8 != 0, 8), (bitsNat w 15 10 != 0, 10), (!(within 1 128 (bitsNat w 24 16)), 16),
    (bitsNat w 31 25 != 0, 25), (bitsNat w 63 32 == 0, 32)]

/-- Fields of an operand entry. -/
def entryFmt (e : List W64) : Nat := bitsNat (e.getD 0 0).toNat 4 0
def entryRows (e : List W64) : Nat := bitsNat (e.getD 0 0).toNat 24 16
def entryKlen (e : List W64) : Nat := bitsNat (e.getD 0 0).toNat 63 32

/-- Integer formats of a multiply (R213). -/
def matInt (f : Nat) : Bool := f == 10 || f == 14 || f == 11 || f == 15
/-- Quantized formats. -/
def matQuant (f : Nat) : Bool := f == 16 || f == 17
/-- A format of 4 bits. -/
def fourBit (f : Nat) : Bool := fmtWidth f == 4

/-- The RATE of a pair of formats; none when they form no pair of R213. -/
def pairRate (quant : Bool) (a b : Nat) : Option Nat :=
  if quant then
    if matInt a && matQuant b then some (if fourBit a && fourBit b then 2 else 1) else none
  else if (a == 1 || a == 2) && a == b then some 0
  else if (a == 3 || a == 4) && (b == 3 || b == 4) then some 1
  else if matInt a && matInt b then some (if fourBit a && fourBit b then 2 else 1)
  else none

/-- A format stands in a row of R213 with this RATE, on its side (R223). -/
def rateHas (rate f : Nat) (right : Bool) : Bool :=
  match rate with
  | 0 => f == 1 || f == 2
  | 1 => f == 3 || f == 4 || matInt f || (right && matQuant f)
  | 2 => fourBit f && (matInt f || (right && matQuant f))
  | _ => false

/-- K elements of a pass (R213, R222). -/
def passK (rate : Nat) (sp : Bool) : Nat := if sp then 192 else match rate with | 0 => 32 | 1 => 64 | _ => 128
/-- N of a sparse op (R90). -/
def sparseN (spn : Nat) : Nat := match spn with | 1 => 2 | 2 => 3 | 3 => 4 | _ => 6
/-- Elements of a quantization group (R90). -/
def quantGroup (qg : Nat) : Nat := 32 * 2 ^ qg

/-- Bytes of a row of a pass (R213, R222). -/
def rowBytes (kp w : Nat) (sparse : Option Nat) : Nat :=
  match sparse with | some n => 16 * n * w / 8 + 8 * n | none => kp * w / 8

/-! ### Operands at issue (R214, R215) -/

/-- A trap of a T op at issue: after the bundle (R207). -/
def tTrap (code : Nat) (act : LaneMask) (i0 i1 : Nat) : TrapInfo × Nat := (trapOf code act i0 i1, 1)

/-- RESERVED_FIELD of a T op, in its slot or in operand data. -/
def View.tReserved (v : View) (act : LaneMask) (place bit : Nat) : TrapInfo × Nat := (v.reserved place act bit, 1)

/-- A captured operand, or the trap its checks give. -/
abbrev Captured (α : Type) := Except (TrapInfo × Nat) α

/-- The rows that a descriptor reads: pass and row (R215). -/
def descRows (base rp tp rows passes : Nat) : List Nat :=
  (List.range passes).flatMap fun p => (List.range rows).map fun i => base + p * tp + i * rp

/-- A scratchpad descriptor in two scalars (R215). -/
def View.descriptor (v : View) (act : LaneMask) (code rows passes bytes : Nat) (tpZero : Bool) : Captured MatOperand :=
  let x := (v.scalar code).toNat
  let y := (v.scalar (code + 1)).toNat
  let base := bitsNat x 19 0
  let rp := bitsNat x 35 20
  let tp := bitsNat y 19 0
  if x / 2 ^ 36 ≠ 0 then .error (v.tReserved act 11 36)
  else if tpZero && tp != 0 then .error (v.tReserved act 11 0)
  else if bitsNat y 22 20 = 7 then .error (v.tReserved act 11 20)
  else if y / 2 ^ 23 ≠ 0 then .error (v.tReserved act 11 23)
  else match [base, rp, tp].find? fun a => a % 16 != 0 with
    | some a => .error (tTrap trapMisalign act a 0)
    | none => match (descRows base rp tp rows passes).find? fun a => v.beyond a bytes with
      | some a => .error (tTrap trapAccess act a 3)
      | none => .ok (.desc base rp tp (bitsNat y 22 20))

/-- A block of registers (R214): `bit` is the lowest bit of its field. -/
def View.block (v : View) (act : LaneMask) (n rep perPass bit : Nat) : Captured MatOperand :=
  if n % perPass ≠ 0 || v.vregs < n + (rep + 1) * perPass then .error (v.tReserved act 0 bit)
  else .ok (.regs ((List.range ((rep + 1) * perPass)).map fun i => v.vec (n + i)) perPass)

/-- One operand of a multiply: its entry's format and rows, over the K extent it must cover. -/
def View.operand (v : View) (act : LaneMask) (f : TFields) (right : Bool) (fmt rows kext kp : Nat) (sparse : Option Nat) :
    Captured MatOperand :=
  let w := fmtWidth fmt
  let code := if right then f.opb.toNat else f.opa.toNat
  if (if right then f.bsrc else f.asrc) then
    v.descriptor act code rows (ceilDiv kext kp) (rowBytes kp w (if right then none else sparse)) false
  else v.block act code f.rep.toNat (kp * w / 32) (if right then 37 else 31)

/-! ### The multiply family (R216 to R224) -/

/-- Which multiply. -/
structure MmaForm where
  kind : MatKind
  deriving DecidableEq, Repr

/-- The hearth supplies A, B for an mma.st (R223). -/
def suppliesA (p : Nat) : Bool := p % 4 == 0
def suppliesB (p : Nat) : Bool := decide (p < 4)

/-- A descriptor's code is not an even s or a code. -/
def descCodeBad (code : Nat) : Bool := !isSA code || code % 2 != 0

/-- Reserved values in the slot of a multiply (R216, R218). -/
def mmaBad (kind : MatKind) (f : TFields) (v : View) : Option Nat :=
  let st := kind == .mmaSt
  let a := !st || suppliesA v.p.p
  let b := !st || suppliesB v.p.p
  firstBad [(st && !v.p.image.stove, 0), sqBad f.hdr, (v.tileBad f.acc.toNat, 14), (f.rsv16, 16), (f.rate == 3, 17),
    (a && (f.asrc || kind == .mmaSp) && descCodeBad f.opa.toNat, 31), (b && (f.bsrc || kind == .mmaSp) && descCodeBad f.opb.toNat, 37),
    (kind == .mmaSp && !f.asrc, 43), (kind == .mmaSp && !f.bsrc, 44), (!f.incen && f.incr != 0, 49),
    (f.sat && kind == .mmaQ, 54), (if kind == .mmaSp then !(within 1 4 f.spn.toNat) else f.spn != 0, 55),
    (f.qg == 3 || (f.qg != 0 && (kind == .mma || kind == .mmaSp)), 58), (f.rsv != 0, 60),
    (f.incen && !v.route32 .t, routeBit .t)]

/-- Scale entries an op claims from q7 (R221): their number and place, or QUEUE_IMBALANCE. -/
def View.claimScales (v : View) (act : LaneMask) (kext g rows : Nat) : Captured (Nat × Nat) :=
  let e := ceilDiv kext g * rows
  match v.g.flue? 7 with
  | none => .error (tTrap trapQueueImbalance act e 0)
  | some q =>
    let have' := countSub q.pq q.cq
    if 4096 < e || have' < e then .error (tTrap trapQueueImbalance act e have') else .ok (e, q.cq)

/-- What a T op captures at issue, with everything else as its fields give it. -/
def View.matOp (v : View) (act : LaneMask) (f : TFields) (kind : MatKind) (steps : Nat) (i : Instr) : MatOp :=
  { id := v.st.core.seq, kind := kind, h := v.x.h, slot := v.x.slot, split := v.x.split, off := v.x.off, seq := v.x.seq,
    cycle := v.st.cycle, mask := act, sat := f.sat, rate := f.rate.toNat, qg := f.qg.toNat, spn := f.spn.toNat,
    rep := f.rep.toNat, acc := f.acc.toNat, a := .none, b := .none, ea := [], eb := [], arg := 0, arg2 := 0, dst := [],
    steps := steps, left := steps, price := opPrice (v.st.die v.x.h).prices .t i, ready := v.st.cycle + 2, scales := 0,
    spos := 0, inst := 0, running := false, failed := none, iter := v.x.iter }

/-- A T op enters its hearth's queue (R204). -/
def Core.queueMat (c : Core) (m : MatOp) : Core := { c with mats := c.mats ++ [m], seq := c.seq + 1 }

/-- A tensor entry of the team. -/
def View.entry (v : View) (n : Nat) : List W64 := v.p.tn.getD n (List.replicate 8 0)

/-- The auto-increment lands at the end of the issue cycle (R216). -/
def View.increment (v : View) (c : Core) (f : TFields) : Core :=
  if !f.incen then c
  else
    let x := v.g.a.getD f.incr.toNat 0 + BitVec.ofNat 64 (f.rep.toNat + 1) * v.literal .t
    v.sendTo c 0 false none 0 [.scalar (.a f.incr.toNat) x] [] 0

/-- Steps of a multiply (R205). -/
def mmaSteps (kind : MatKind) (f : TFields) : Nat :=
  if kind == .mmaSp then (f.rep.toNat + 1) * (16 * sparseN f.spn.toNat) / 2 ^ f.rate.toNat else 32 * (f.rep.toNat + 1)

/-- The K extent an op computes or a supplier checks (R217, R223). -/
def kExtent (f : TFields) (kp : Nat) (entries : List (List W64)) : Nat :=
  entries.foldl (fun k e => Nat.min k (entryKlen e)) ((f.rep.toNat + 1) * kp)

/-- The checks and captures of a multiply (R212 to R215, R218, R221, R223). -/
def View.captureMma (v : View) (act : LaneMask) (f : TFields) (kind : MatKind) (i : Instr) : Captured MatOp := do
  let st := kind == .mmaSt
  let sp := kind == .mmaSp
  let hasA := !st || suppliesA v.p.p
  let hasB := !st || suppliesB v.p.p
  let ea := if hasA then v.entry f.tna.toNat else []
  let eb := if hasB then v.entry f.tnb.toNat else []
  match (if hasA then operandBad ea else none), (if hasB then operandBad eb else none) with
  | some bit, _ => throw (v.tReserved act 11 bit)
  | none, some bit => throw (v.tReserved act 11 bit)
  | none, none => pure ()
  let fa := entryFmt ea
  let fb := entryFmt eb
  let quant := if st then hasB && matQuant fb else kind == .mmaQ
  let int := (!hasA || matInt fa) && (!hasB || (matInt fb && !(matQuant fb)))
  if !st then
    match pairRate quant fa fb with
    | none => throw (v.tReserved act 11 0)
    | some r => if r ≠ f.rate.toNat then throw (v.tReserved act 0 17)
  if hasA && !(rateHas f.rate.toNat fa false) then throw (v.tReserved act 0 17)
  if hasB && !(rateHas f.rate.toNat fb true) then throw (v.tReserved act 0 17)
  if f.sat && (hasA || hasB) && !int then throw (v.tReserved act 0 54)
  if st && hasB && !quant && f.qg ≠ 0 then throw (v.tReserved act 0 58)
  let kp := passK f.rate.toNat sp
  let sparse := if sp then some (sparseN f.spn.toNat) else none
  let kext := kExtent f kp ((if hasA && !st then [ea] else []) ++ (if hasB && !st then [eb] else []))
  let ka := if st then kExtent f kp [ea] else kext
  let kb := if st then kExtent f kp [eb] else kext
  let a ← if hasA then v.operand act f false fa (entryRows ea) ka kp sparse else pure .none
  let b ← if hasB then v.operand act f true fb (entryRows eb) kb kp sparse else pure .none
  let sc ← if quant then v.claimScales act kb (quantGroup f.qg.toNat) (entryRows eb) else pure (0, 0)
  return { v.matOp act f kind (mmaSteps kind f) i with
    a := a, b := b, ea := ea, eb := eb, scales := sc.1, spos := sc.2, inst := v.g.stCount }

/-- A captured op enters the queue, or its check traps (R207). -/
def queueOr (r : Captured MatOp) (k : MatOp → Core) : OpResult :=
  match r with
  | .error t => .trap t.1 t.2
  | .ok m => .ok (k m)

/-- A multiply at issue. -/
def mmaOp (s : State) (f : TFields) (kind : MatKind) (i : Instr) : Core :=
  slotOp s .t f.hdr (mmaBad kind f) (fun v act => queueOr (v.captureMma act f kind i) fun m =>
    let c := v.increment (v.st.core.queueMat m) f
    let c := if m.scales = 0 then c else v.stepFlue c 7 fun q => { q with cq := countAdd q.cq m.scales }
    if kind == .mmaSt then c.modGroup v.x.h v.x.slot fun g => { g with stCount := g.stCount + 1 } else c)

/-- R217 mma. -/
def execMma (f : TFields) (s : State) : Host.Outcome State Fault Refusal := coreOp s fun s => mmaOp s f .mma (.mma f)
/-- R221 mma.q. -/
def execMmaQ (f : TFields) (s : State) : Host.Outcome State Fault Refusal := coreOp s fun s => mmaOp s f .mmaQ (.mmaQ f)
/-- R222 mma.sp. -/
def execMmaSp (f : TFields) (s : State) : Host.Outcome State Fault Refusal := coreOp s fun s => mmaOp s f .mmaSp (.mmaSp f)
/-- R223 mma.st. -/
def execMmaSt (f : TFields) (s : State) : Host.Outcome State Fault Refusal := coreOp s fun s => mmaOp s f .mmaSt (.mmaSt f)

/-! ### Accumulator ops (R225 to R229) -/

/-- Reserved values of an accumulator op: what each field must be (R225). -/
def accBad (f : TFields) (v : View) (desc tna sat rep opa opb : Bool) : List (Bool × Nat) :=
  [sqBad f.hdr, (v.tileBad f.acc.toNat, 14), (f.rsv16, 16), (f.rate != 0, 17), (!tna && f.tna != 0, 19), (f.tnb != 0, 25),
   (if desc then descCodeBad f.opa.toNat else !opa && f.opa != 0, 31), (!opb && f.opb != 0, 37), (f.asrc != desc, 43),
   (f.bsrc, 44), (!rep && f.rep != 0, 45), (f.incr != 0, 49), (f.incen, 53), (!sat && f.sat, 54), (f.spn != 0, 55),
   (f.qg != 0, 58), (f.rsv != 0, 60)]

/-- An accumulator op at issue. -/
def accOp (s : State) (f : TFields) (kind : MatKind) (steps : Nat) (i : Instr) (bad : View → List (Bool × Nat))
    (k : View → LaneMask → MatOp → Captured MatOp) : Core :=
  slotOp s .t f.hdr (fun v => firstBad (bad v)) (fun v act => queueOr (k v act (v.matOp act f kind steps i)) fun m =>
    (v.st.core.queueMat m).modGroup v.x.h v.x.slot fun g =>
      { g with pend := g.pend ++ m.dst.map fun n => (Reg.v n, v.x.split, m.id) })

/-- R226 acc.z. -/
def execAccZ (f : TFields) (s : State) : Host.Outcome State Fault Refusal :=
  coreOp s fun s => accOp s f .accZ 1 (.accZ f) (fun v => accBad f v false false false false false false) fun _ _ m => .ok m

/-- R226 acc.ld. -/
def execAccLd (f : TFields) (s : State) : Host.Outcome State Fault Refusal :=
  coreOp s fun s => accOp s f .accLd 128 (.accLd f) (fun v => accBad f v true false false false false false)
    fun v act m => do let a ← v.descriptor act f.opa.toNat 128 1 512 true; return { m with a := a }

/-- R226 acc.st. -/
def execAccSt (f : TFields) (s : State) : Host.Outcome State Fault Refusal :=
  coreOp s fun s => accOp s f .accSt 128 (.accSt f) (fun v => accBad f v true false false false false false)
    fun v act m => do let a ← v.descriptor act f.opa.toNat 128 1 512 true; return { m with a := a }

/-- An epilogue entry that R211 or R212 does not allow: the lowest bit of the field. -/
def epilogueBad (e : List W64) : Option Nat :=
  let w := (e.getD 0 0).toNat
  let x := (e.getD 1 0).toNat
  let lo := unpack f32 ((e.getD 2 0).toNat % 2 ^ 32)
  let hi := unpack f32 ((e.getD 2 0).toNat / 2 ^ 32)
  let q := (e.getD 3 0).toNat
  let ofmt := bitsNat w 4 0
  firstField [(fmtWidth ofmt == 0, 0), (bitsNat w 7 5 != 0, 5), (bitsNat w 9 8 != 1, 8), (bitsNat w 11 10 == 3, 10),
    (bitsNat w 15 13 != 0, 13), (!(within 1 128 (bitsNat w 24 16)), 16), (bitsNat w 31 25 != 0, 25),
    (!(within 1 128 (bitsNat w 40 32)), 32), (bitsNat w 63 41 != 0, 41), (bitsNat x 63 52 != 0, 52),
    (lo.isNaN || hi.isNaN || cmpVal lo hi == .gt, 0),
    (if matQuant ofmt then (scaleBad (ofmt == 17) (q % 2 ^ 32)).isSome else q % 2 ^ 32 != 0, 0), (q / 2 ^ 32 != 0, 32),
    ((e.drop 4).any (· != 0), 0)]

/-- Bytes of a row that acc.cvt writes. -/
def cvtRowBytes (w cols : Nat) : Nat := ceilDiv (cols * w) 8

/-- The bias vector's byte range (R228). -/
def biasRange (e : List W64) : Option (Nat × Nat) :=
  let w := (e.getD 0 0).toNat
  let off := bitsNat (e.getD 1 0).toNat 51 32
  match bitsNat w 11 10 with
  | 1 => some (off, 4 * bitsNat w 40 32)
  | 2 => some (off, 4 * bitsNat w 24 16)
  | _ => none

/-- R228 acc.cvt. -/
def execAccCvt (f : TFields) (s : State) : Host.Outcome State Fault Refusal :=
  coreOp s fun s => accOp s f .accCvt 128 (.accCvt f) (fun v => accBad f v true true true false false false)
    fun v act m => do
      let e := v.entry f.tna.toNat
      match epilogueBad e with
      | some bit => throw (v.tReserved act 11 bit)
      | none => pure ()
      let w := (e.getD 0 0).toNat
      let ofmt := bitsNat w 4 0
      if f.sat && !(ofmt == 1 || ofmt == 2 || ofmt == 4) then throw (v.tReserved act 0 54)
      let a ← v.descriptor act f.opa.toNat (bitsNat w 24 16) 1 (cvtRowBytes (fmtWidth ofmt) (bitsNat w 40 32)) true
      let off := bitsNat (e.getD 1 0).toNat 51 32
      if off % 4 ≠ 0 then throw (tTrap trapMisalign act off 0)
      match biasRange e with
      | some (off, n) => if v.beyond off n then throw (tTrap trapAccess act off 3)
      | none => pure ()
      return { m with a := a, ea := e }

/-- R229 acc.mv. -/
def execAccMv (f : TFields) (s : State) : Host.Outcome State Fault Refusal :=
  coreOp s fun s => accOp s f .accMv (f.rep.toNat + 1) (.accMv f)
    (fun v => (!isSA f.opa.toNat, 31) :: accBad f v false false false true true true)
    fun v act m => do
      let row := (v.scalar f.opa.toNat).toNat
      let n := f.rep.toNat + 1
      if 128 ≤ row then throw (v.tReserved act 11 7)
      if 128 < row + n then throw (v.tReserved act 0 45)
      if v.vregs < f.opb.toNat + n then throw (v.tReserved act 0 37)
      return { m with arg := row, dst := v.spanRegs f.opb.toNat n }

/-- R227 acc.add. -/
def execAccAdd (f : TFields) (s : State) : Host.Outcome State Fault Refusal :=
  coreOp s fun s => accOp s f .accAdd 16 (.accAdd f)
    (fun v => [(decide (2 ≤ f.opa.toNat), 31), (decide (4 ≤ f.opb.toNat) || v.tileBad (f.opb.toNat % 4), 37),
      (f.sat && f.opa == 0, 54)] ++ accBad f v false false true false true true)
    fun _ _ m => .ok { m with arg := f.opb.toNat, arg2 := f.opa.toNat }

/-- R230 kat. -/
def execKat (f : TFields) (s : State) : Host.Outcome State Fault Refusal :=
  coreOp s fun s => slotOp s .t f.hdr
    (fun v => firstBad [sqBad f.hdr, (f.acc != 0, 14), (f.rsv16, 16), (f.rate == 3, 17), (f.tna != 0, 19), (f.tnb != 0, 25),
      (f.opb != 0, 37), (f.asrc, 43), (f.bsrc, 44), (f.rep != 0, 45), (f.incr != 0, 49), (f.incen, 53), (f.sat, 54),
      (f.spn != 0, 55), (f.qg != 0, 58), (f.rsv != 0, 60), (!v.route32 .t, routeBit .t)])
    (fun v act => .ok (v.st.core.queueMat { v.matOp act f .kat 32 (.kat f) with
      arg := f.opa.toNat, arg2 := ((v.literal .t).setWidth 32).toNat }))

/-! ### What an op reads and writes in scratchpad (R215, R219, R220) -/

/-- Ranges of a descriptor's rows. -/
def MatOperand.ranges (o : MatOperand) (rows passes bytes : Nat) : List (Nat × Nat) :=
  match o with
  | .desc base rp tp _ => (descRows base rp tp rows passes).map fun a => (a, bytes)
  | _ => []

/-- The sparse N of an op. -/
def MatOp.sparse (m : MatOp) : Option Nat := if m.kind == .mmaSp then some (sparseN m.spn) else none
/-- K elements of a pass of an op. -/
def MatOp.kp (m : MatOp) : Nat := passK m.rate (m.kind == .mmaSp)
/-- K extent over the entries an op holds. -/
def MatOp.kext (m : MatOp) (es : List (List W64)) : Nat :=
  es.foldl (fun k e => Nat.min k (entryKlen e)) ((m.rep + 1) * m.kp)

/-- Rotation code of a descriptor. -/
def MatOperand.rot : MatOperand → Nat
  | .desc _ _ _ r => r
  | _ => 0

/-- Scratchpad ranges an op reads within the K extents of its operands, each with its rotation code (R214, R217, R269). -/
def MatOp.reads (m : MatOp) (ka kb : Nat) : List (Nat × Nat × Nat) :=
  let side := fun (o : MatOperand) (e : List W64) (k : Nat) (sp : Option Nat) =>
    (o.ranges (entryRows e) (ceilDiv k m.kp) (rowBytes m.kp (fmtWidth (entryFmt e)) sp)).map fun r => (o.rot, r)
  match m.kind with
  | .mma | .mmaQ | .mmaSp | .mmaSt => side m.a m.ea ka m.sparse ++ side m.b m.eb kb none
  | .accLd => (m.a.ranges 128 1 512).map fun r => (m.a.rot, r)
  | .accCvt => (biasRange m.ea).toList.map fun r => (m.a.rot, r)
  | _ => []

/-- What names an instance: launch, team, %GROUP and k. -/
def Core.stKey (c : Core) (m : MatOp) : Option (Nat × Nat × Nat × Nat) :=
  (c.group? m.h m.slot).bind fun g => (c.part? g.part).map fun p => (p.launch, p.team, g.num, m.inst)

/-- The greatest KLEN on one side of an instance, once its four suppliers have issued (R223). -/
def Core.stKlen (c : Core) (m : MatOp) (right : Bool) : Option Nat :=
  let es := ((c.mats.filter fun x => x.kind == .mmaSt && c.stKey x == c.stKey m).map fun x => if right then x.eb else x.ea).filter
    fun e => !e.isEmpty
  if es.length = 4 then some ((es.map entryKlen).foldl Nat.max 0) else none

/-- The K extents that an op reads of A and of B: the least of both KLENs and its passes (R217, R223, R311). -/
def Core.matExtents (c : Core) (m : MatOp) : Nat × Nat :=
  if m.kind == .mmaSt then
    (Nat.min (m.kext [m.ea]) ((c.stKlen m true).getD (m.kext [m.ea])), Nat.min (m.kext [m.eb]) ((c.stKlen m false).getD (m.kext [m.eb])))
  else (m.kext [m.ea, m.eb], m.kext [m.ea, m.eb])

/-- Scratchpad ranges that an op reads, with their rotation codes. -/
def Core.matPads (c : Core) (m : MatOp) : List (Nat × Nat × Nat) := m.reads (c.matExtents m).1 (c.matExtents m).2

/-- Scratchpad ranges that an op reads. -/
def Core.matReadsOf (c : Core) (m : MatOp) : List (Nat × Nat) := (c.matPads m).map fun r => r.2

/-- Scratchpad ranges an op writes. -/
def MatOp.writeRanges (m : MatOp) : List (Nat × Nat) :=
  match m.kind with
  | .accSt => m.a.ranges 128 1 512
  | .accCvt =>
    let w := (m.ea.getD 0 0).toNat
    m.a.ranges (bitsNat w 24 16) 1 (cvtRowBytes (fmtWidth (bitsNat w 4 0)) (bitsNat w 40 32))
  | _ => []

/-- The tile an op writes. -/
def MatOp.tile (m : MatOp) : Option Nat :=
  match m.kind with
  | .accSt | .accCvt | .accMv | .kat => none
  | _ => some m.acc

/-! ### Elements -/

/-- Element `k` of a row of bytes, elements of `w` bits (R34, R215). -/
def rowElem (bs : List Byte) (w k : Nat) : Nat := leNat ((bs.drop (k * w / 8)).take (ceilDiv w 8)) / 2 ^ (k * w % 8) % 2 ^ w

/-- The bytes of a row of a pass. -/
def MatOperand.rowOf (o : MatOperand) (p : Part) (pass row bytes : Nat) : List Byte :=
  match o with
  | .desc base rp tp rot => p.padRead rot (base + pass * tp + row * rp) bytes
  | _ => []

/-- The first `n` elements along K of a row, dense (R214, R215). -/
def MatOperand.elems (o : MatOperand) (p : Part) (w kp n row : Nat) : List Nat :=
  match o with
  | .none => []
  | .regs blk per => (List.range n).map fun k =>
      elemOf ((blk.getD (k / kp * per + k % kp * w / 32) Vec.zero).lane row) w (k % kp * w % 32 / w)
  | .desc _ _ _ _ =>
    (List.range (ceilDiv n kp)).flatMap fun ps =>
      let bs := o.rowOf p ps row (kp * w / 8)
      (List.range (Nat.min kp (n - ps * kp))).map fun k => rowElem bs w k

/-- A sparse row: for each group of 12 positions before `n`, its indices and values (R57, R222). -/
def MatOperand.sparseRow (o : MatOperand) (p : Part) (w nn n row : Nat) : List (List Nat × List Nat) :=
  (List.range (ceilDiv n 12)).map fun gj =>
    let bs := o.rowOf p (gj / 16) row (16 * nn * w / 8 + 8 * nn)
    let j := gj % 16
    let md := leNat (bs.drop (16 * nn * w / 8))
    ((List.range nn).map fun i => md / 2 ^ (4 * nn * j + 4 * i) % 16, (List.range nn).map fun i => rowElem bs w (nn * j + i))

/-- The indices of a group are legal (R57). -/
def indicesOk : List Nat → Bool
  | [] => true
  | [i] => decide (i < 12)
  | i :: j :: r => decide (i < j) && indicesOk (j :: r)

/-- Products of a sparse group with a dense row: pairs of elements before position `n`. -/
def sparsePairs (gs : List (List Nat × List Nat)) (b : List Nat) (n from' : Nat) : List (Nat × Nat) :=
  (gs.mapIdx fun gi g => (g.1.zip g.2).filterMap fun e =>
    let k := 12 * (from' + gi) + e.1
    if k < n then some (e.2, b.getD k 0) else none).flatten

/-! ### Accumulating (R58 to R60) -/

/-- An accumulator element with what it has raised. -/
structure AccOut where
  x : Nat
  fl : FlagSet
  sat : Bool

/-- One floating-point chunk (R58). -/
def floatChunk (fa fb : Nat) (r : AccOut) (ps : List (Nat × Nat)) : AccOut :=
  let ts := ps.map fun e => mulExact (elemVal fa e.1) (elemVal fb e.2)
  let sum := if ts.isEmpty then (.fin false 0 0, 0) else sumExact 0 (ts.map fun t => t.1)
  let c := deliverWith f32 0 false false sum
  let a := addFloat f32 0 r.x c.1
  { r with x := a.1, fl := ts.foldl (fun f t => f ||| t.2) (r.fl ||| c.2 ||| a.2) }

/-- One integer chunk (R60). -/
def intChunk (fa fb : Nat) (sat : Bool) (r : AccOut) (ps : List (Nat × Nat)) : AccOut :=
  let s := ps.foldl (fun s e => s + intVal fa e.1 * intVal fb e.2) (toSigned 32 r.x)
  let o := intToInt 8 sat s
  { r with x := o.1, sat := r.sat || o.2 }

/-- One quantization group: A has scale 1 and zero point 0 (R59, R221). -/
def quantGroupStep (fa fb entry : Nat) (r : AccOut) (ps : List (Nat × Nat)) : AccOut :=
  let s := ps.foldl (fun s e => s + intVal fa e.1 * ((e.2 % 2 ^ fmtWidth fb : Nat) - (bitsNat entry 15 8 : Nat) : Int)) (0 : Int)
  let t := mulExact (intToVal s) (unpack f16 (bitsNat entry 31 16))
  let d := deliverWith f32 0 false false t
  let a := addFloat f32 0 r.x d.1
  { r with x := a.1, fl := r.fl ||| d.2 ||| a.2 }

/-- A list cut into chunks of `n`. -/
def chunks {α : Type} (n : Nat) : Nat → List α → List (List α)
  | 0, _ => []
  | fuel + 1, l => if l.isEmpty then [] else l.take n :: chunks n fuel (l.drop n)

/-- The word of tile row `i`, column `n`. -/
def Tile.at (t : Tile) (i n : Nat) : Nat := ((t.getD i Vec.zero).lane n).toNat

/-- A new tile from a function of row and column, over the first rows and columns; with what was raised. -/
def Tile.update (t : Tile) (rows cols : Nat) (f : Nat → Nat → AccOut) : Tile × FlagSet × Bool :=
  let out := (List.range rows).map fun i => (List.range cols).map fun n => f i n
  let fl := out.foldl (fun a r => r.foldl (fun a o => (a.1 ||| o.fl, a.2 || o.sat)) a) ((0 : FlagSet), false)
  (t.mapIdx fun i row => match out[i]? with
    | some r => row.mapIdx fun n x => match r[n]? with | some o => BitVec.ofNat 32 o.x | none => x
    | none => row, fl.1, fl.2)

/-- What an op reads for a multiply: the supplying ops and the parts that hold their scratchpads. -/
structure MmaIn where
  a : MatOperand
  b : MatOperand
  ea : List W64
  eb : List W64
  pa : Part
  pb : Part
  /-- Scale entries, from the first the op claims. -/
  scales : List Nat

/-- Metadata or scales that the op finds faulty within its extent: the lowest bit of the field (R218). -/
def MmaIn.faulty (i : MmaIn) (m : MatOp) (kext : Nat) : Option Nat :=
  let sparse := match m.sparse with
    | some n => (List.range (entryRows i.ea)).findSome? fun r =>
        (i.a.sparseRow i.pa (fmtWidth (entryFmt i.ea)) n kext r).findIdx? fun (g : List Nat × List Nat) => !(indicesOk g.1)
    | none => none
  let sc := if matQuant (entryFmt i.eb) then
      ((i.scales.take (ceilDiv kext (quantGroup m.qg) * entryRows i.eb)).findSome? fun e => scaleBad (entryFmt i.eb == 17) e)
    else none
  match sparse, sc with
  | some _, _ => some 0
  | none, x => x

/-- The result of a multiply (R217). -/
def MmaIn.result (i : MmaIn) (m : MatOp) (t : Tile) : Tile × FlagSet × Bool :=
  let fa := entryFmt i.ea
  let fb := entryFmt i.eb
  let kext := m.kext [i.ea, i.eb]
  let ra := entryRows i.ea
  let rb := entryRows i.eb
  let start := fun x => ({ x := x, fl := 0, sat := false } : AccOut)
  let colB := (List.range rb).map fun n => i.b.elems i.pb (fmtWidth fb) m.kp kext n
  let step := fun r ps => if isFloat fa then floatChunk fa fb r ps else intChunk fa fb m.sat r ps
  match m.sparse with
  | some nn =>
    let rowA := (List.range ra).map fun r => chunks 4 (kext + 1) (i.a.sparseRow i.pa (fmtWidth fa) nn kext r)
    t.update ra rb fun r n =>
      ((rowA.getD r []).mapIdx fun c gs => sparsePairs gs (colB.getD n []) kext (4 * c)).foldl step (start (t.at r n))
  | none =>
    let rowA := (List.range ra).map fun r => i.a.elems i.pa (fmtWidth fa) m.kp kext r
    if matQuant fb then
      let g := quantGroup m.qg
      t.update ra rb fun r n =>
        (chunks g (kext + 1) ((rowA.getD r []).zip (colB.getD n []))).zipIdx.foldl
          (fun o e => quantGroupStep fa fb (i.scales.getD (e.2 * rb + n) 0) o e.1) (start (t.at r n))
    else
      t.update ra rb fun r n =>
        (chunks 16 (kext + 1) ((rowA.getD r []).zip (colB.getD n []))).foldl step (start (t.at r n))

/-! ### The other ops -/

/-- A tile of zeros (R226). -/
def zeroTile : Tile := List.replicate 128 Vec.zero

/-- The tile acc.ld reads (R226). -/
def loadTile (o : MatOperand) (p : Part) : Tile :=
  (List.range 128).map fun i =>
    let bs := o.rowOf p 0 i 512
    Vec.build fun n => BitVec.ofNat 32 (leAt bs (4 * n) 4)

/-- A row of a tile as bytes. -/
def rowAsBytes (v : Vec) : List Byte := v.flatMap fun x => natLe 4 x.toNat

/-- acc.add (R227). -/
def addTiles (int sat : Bool) (d s : Tile) : Tile × FlagSet × Bool :=
  d.update 128 128 fun i n =>
    if int then
      let o := intToInt 8 sat (toSigned 32 (d.at i n) + toSigned 32 (s.at i n))
      { x := o.1, fl := 0, sat := o.2 }
    else
      let o := addFloat f32 0 (d.at i n) (s.at i n)
      { x := o.1, fl := o.2, sat := false }

/-- One element of acc.cvt: the output code with what it raised (R228). -/
def cvtElem (e : List W64) (sat : Bool) (bias x : Nat) : AccOut :=
  let w := (e.getD 0 0).toNat
  let ofmt := bitsNat w 4 0
  let xv := if bitNat w 12 then intToVal (toSigned 32 x) else unpack f32 x
  let p := mulExact xv (unpack f32 ((e.getD 1 0).toNat % 2 ^ 32))
  let y := deliverWith f32 0 false false (sumExact 0 [p.1, unpack f32 bias])
  let fl := p.2 ||| y.2
  let lo := (e.getD 2 0).toNat % 2 ^ 32
  let hi := (e.getD 2 0).toNat / 2 ^ 32
  let z := if (unpack f32 y.1).isNaN then y.1 else (minMax f32 false (minMax f32 true y.1 lo).1 hi).1
  if matQuant ofmt then
    let q := (e.getD 3 0).toNat
    let o := quantize (fmtWidth ofmt) 0 (unpack f32 z) (unpack f16 (bitsNat q 31 16)) (bitsNat q 15 8)
    { x := o.1, fl := fl ||| o.2.1, sat := o.2.2 }
  else
    let o := convertElem ofmt 0 0 false sat z
    { x := o.1, fl := fl ||| o.2.1, sat := o.2.2 }

/-- Pack elements of `w` bits into bytes over what stood there (R34, R228). -/
def packRow (old : List Byte) (w : Nat) (l : List Nat) : List Byte :=
  old.mapIdx fun i b =>
    if w = 4 then
      let lo := l.getD (2 * i) (b.toNat % 16)
      let hi := l.getD (2 * i + 1) (b.toNat / 16)
      BitVec.ofNat 8 (lo % 16 + 16 * (hi % 16))
    else BitVec.ofNat 8 (l.getD (8 * i / w) 0 / 2 ^ (8 * i % w))

/-- The signature of a known-answer tile (R230). -/
def katSignature (rate p : Nat) : W32 :=
  let kp := passK rate false
  let a := fun r k => (((3 * r + 5 * k + p) % 15 : Nat) : Int) - 7
  let b := fun k n => (((7 * k + 2 * n + p) % 15 : Nat) : Int) - 7
  crc32c ((List.range 128).flatMap fun r => (List.range 128).flatMap fun n =>
    let t := (List.range kp).foldl (fun s k => s + a r k * b k n) (0 : Int)
    natLe 4 (if rate = 0 then (deliver f32 0 false false (intToVal t)).1 else wrapInt 32 t))

end Sys2Proof.Machine
end

