-- ==== Sys2Proof/Machine/MatStep.lean ====
section
/-! DEFINITION. The matrix engine's steps: when an op of the queue steps (R204, R205, R219, R220, R311, R312), stove
instances (R223, R224), and what an op does when its last step is done (R206, R207, R217 to R231). -/

namespace Sys2Proof.Machine

/-! ### The queue -/

/-- The op at the head of a hearth's queue. -/
def Core.matHead (c : Core) (h : Nat) : Option MatOp := c.mats.find? fun m => m.h == h

/-- Change a queued T op. -/
def Core.modMat (c : Core) (id : Nat) (f : MatOp → MatOp) : Core :=
  { c with mats := c.mats.map fun m => if m.id == id then f m else m }

/-- An op is the head of its queue. -/
def Core.isHead (c : Core) (m : MatOp) : Bool := match c.matHead m.h with | some x => x.id == m.id | none => false

/-- An op's group and part. -/
def Core.matOwner (c : Core) (m : MatOp) : Option (Group × Part) :=
  (c.group? m.h m.slot).bind fun g => (c.part? g.part).map fun p => (g, p)

/-- The scale entries that the op claims are present (R221). -/
def Group.scalesHere (g : Group) (m : MatOp) : Bool :=
  m.scales == 0 ||
  match g.flue? 7 with
  | some q => decide (countSub m.spos q.c + m.scales ≤ countSub q.p q.c)
  | none => false

/-- No earlier entry of the range scoreboard overlaps the op's ranges, its scale entries are there with no earlier sq.drp still to
act (R201), and its tile may be
written: it is not being shadowed, and no checkpoint asked for before the op is still open (R115, R219 to R221). -/
def Core.matClear (c : Core) (m : MatOp) : Bool :=
  match c.matOwner m with
  | none => true
  | some (g, _) =>
    !(c.boardOverlap g.part m.seq (c.matReadsOf m ++ m.writeRanges)) && g.scalesHere m &&
    !(m.scales != 0 && c.engs.any fun e => e.h == m.h && e.slot == m.slot && e.kind == .sqDrp && decide (e.seq < m.seq)) &&
    match m.tile with
    | none => true
    | some t => !(g.shadowing.any fun e => e.1 == t) &&
        (match g.ckptReq with | some (_, b) => decide (m.seq ≤ b) | none => true)

/-- The hearth can pay for a further step (R85). -/
def Core.canDraw (c : Core) (m : MatOp) : Bool :=
  match c.hearth? m.h with
  | some r => decide (m.price ≤ r.pool) && r.claim.isNone
  | none => false

/-- Nothing of the op has run. -/
def MatOp.fresh (m : MatOp) : Bool := m.left == m.steps && !m.running && m.failed.isNone

/-- One step of an op: a further step draws its price (R205). -/
def Core.stepMat (c : Core) (cycle : Nat) (m : MatOp) : Core :=
  let c := if m.left = m.steps then c else c.modHearth m.h fun r => { r with pool := r.pool - m.price }
  let c := match c.group? m.h m.slot with | some g => c.countGroup g 0x08 1 | none => c
  c.modMat m.id fun m => { m with left := m.left - 1, running := true, ready := cycle + 1 }

/-- The team of a part is leaving its hearths: no bundle of it issues (R257, R326). -/
def State.leavingPart (s : State) (p : Part) : Bool :=
  match s.lch.launch? p.launch with
  | none => false
  | some l => l.teams.any fun t => t.index == p.team && t.leaving != 0

/-- The team of a part is being pre-empted: what has not started is saved (R203, R208, R326). -/
def State.preempting (s : State) (p : Part) : Bool :=
  s.lch.launches.any fun l => l.id == p.launch && l.teams.any fun t => t.index == p.team && decide (2 ≤ t.leaving)

/-- The conditions of an op's first step; at a swap-out the queued ops still run (R257; log entry 68). -/
def State.mayStart (s : State) (m : MatOp) : Bool :=
  s.core.matClear m && match s.core.matOwner m with | some e => !(s.preempting e.2) | none => true

/-- An op of its own hearth can take its next step. -/
def State.canStep (s : State) (m : MatOp) : Bool :=
  m.kind != .mmaSt && m.left != 0 && decide (m.ready ≤ s.cycle) && s.core.isHead m &&
  (if m.left = m.steps then s.mayStart m else s.core.canDraw m)

/-! ### Stove instances (R223, R224, R311) -/

/-- The members of an op's instance that stand at the head of their queues, by logical hearth. -/
def Core.stMembers (c : Core) (m : MatOp) : List (Nat × MatOp) :=
  match c.matOwner m with
  | none => []
  | some (_, p) =>
    (c.parts.filter fun q => q.launch == p.launch && q.team == p.team).filterMap fun q => match c.matHead q.h with
      | some x => if x.kind == .mmaSt && c.stKey x == c.stKey m then some (q.p, x) else none
      | none => none

/-- A member that will never issue its op of the instance (R224). -/
def Core.stEnded (c : Core) (m : MatOp) : Option Nat :=
  match c.matOwner m with
  | none => none
  | some (g, p) => (List.range 16).find? fun i =>
      match c.parts.find? fun q => q.launch == p.launch && q.team == p.team && q.p == i with
      | none => true
      | some q => match c.groups.find? fun x => x.part == q.id && x.num == g.num with
        | none => true
        | some x => x.lanesAlive == 0 && decide (x.stCount ≤ m.inst)

/-- The op of a member. -/
def memberOp (l : List (Nat × MatOp)) (p : Nat) : Option MatOp := (l.find? fun e => e.1 == p).map fun e => e.2

/-- The entries of the suppliers: A from hearths 0, 4, 8, 12, B from 0 to 3. -/
def suppliedFmts (l : List (Nat × MatOp)) (right : Bool) : List Nat :=
  l.filterMap fun e => if right then (if suppliesB e.1 then some (entryFmt e.2.eb) else none)
    else (if suppliesA e.1 then some (entryFmt e.2.ea) else none)

/-- All entries of a list are equal. -/
def allSame {α : Type} [BEq α] : List α → Bool
  | [] => true
  | a :: r => r.all (· == a)

/-- The members agree, and the formats form a pair (R224). -/
def stAgree (l : List (Nat × MatOp)) : Bool :=
  allSame (l.map fun e => (e.2.rate, e.2.rep, e.2.qg, e.2.sat)) && allSame (suppliedFmts l false) &&
  allSame (suppliedFmts l true) &&
  match suppliedFmts l false, suppliedFmts l true with
  | a :: _, b :: _ => pairRate (matQuant b) a b == (l.head?.map fun e => e.2.rate) &&
      (matQuant b || l.all fun e => e.2.qg == 0) && (!(matQuant b) || l.all fun e => !e.2.sat)
  | _, _ => false

/-- The head ops of an instance of which some member has not started, with every condition of R311. -/
def State.stStart? (s : State) : Option (List (Nat × MatOp)) :=
  s.core.mats.findSome? fun m =>
    if m.kind != .mmaSt || m.failed.isSome || !(s.core.isHead m) then none
    else
      let l := s.core.stMembers m
      if l.length = 16 && (l.any fun e => !e.2.running) &&
        l.all (fun e => decide (e.2.ready ≤ s.cycle) && s.mayStart e.2 && e.2.failed.isNone) then some l else none

/-- The dictionary index of an op's record. -/
def State.indexOf (s : State) (p : Part) (off : Nat) : Nat := match s.recordAt p off with | .ok r => r.idx | _ => 0

/-- An op fails: it ends at the end of this cycle with its trap (R207). -/
def Core.failMat (c : Core) (m : MatOp) (code i0 i1 : Nat) : Core :=
  c.modMat m.id fun m =>
    { m with left := 0, running := true, failed := some (code, BitVec.ofNat 64 i0, BitVec.ofNat 64 i1) }

/-- RESERVED_FIELD in operand data (R287). -/
def dataField (bit : Nat) : Nat := 11 + 256 * (bit % 64)

/-- The index of an op's record, for INFO1. -/
def State.matIndex (s : State) (m : MatOp) : Nat := match s.core.matOwner m with | some e => s.indexOf e.2 m.off | none => 0

/-- R224 mmaStInstanceStart: the 16 ops take their first step together, or fail together. -/
def execMmaStInstanceStart (s : State) : Host.Outcome State Fault Refusal :=
  .next (match s.stStart? with
    | none => s
    | some l => { s with core := l.foldl (fun c e =>
        if stAgree l then
          (c.modMat e.2.id fun m => { m with left := m.steps }).stepMat s.cycle { e.2 with left := e.2.steps }
        else c.failMat e.2 trapReservedField (dataField 0) (s.matIndex e.2)) s.core })

/-- An instance under way whose 16 hearths can all pay for its next step. -/
def State.stNext? (s : State) : Option (List (Nat × MatOp)) :=
  s.core.mats.findSome? fun m =>
    if m.kind != .mmaSt || !m.running || m.left == 0 || !(s.core.isHead m) then none
    else
      let l := s.core.stMembers m
      if l.length = 16 && l.all (fun e => e.2.running && e.2.left != 0 && decide (e.2.ready ≤ s.cycle) && s.core.canDraw e.2)
      then some l else none

/-- A waiting op of an instance that can no longer form. -/
def State.stLost? (s : State) : Option (MatOp × Nat) :=
  s.core.mats.findSome? fun m =>
    if m.kind != .mmaSt || !m.fresh || !(s.core.isHead m) || decide (s.cycle < m.ready) || !(s.mayStart m) then none
    else (s.core.stEnded m).map fun i => (m, i)

/-! ### Results (R206, R217 to R230) -/

/-- What an op leaves when its last step is done. -/
structure MatDone where
  tile : Option Tile
  fl : FlagSet
  sat : Bool
  /-- Trap code and its details. -/
  fail : Option (Nat × Nat × Nat)

/-- Nothing but the end of the op. -/
def MatDone.plain (t : Option Tile) : MatDone := { tile := t, fl := 0, sat := false, fail := none }

/-- An op that fails. -/
def MatDone.failed (code i0 i1 : Nat) : MatDone := { tile := none, fl := 0, sat := false, fail := some (code, i0, i1) }

/-- A result with what it raised. -/
def MatDone.of (r : Tile × FlagSet × Bool) : MatDone := { tile := some r.1, fl := r.2.1, sat := r.2.2, fail := none }

/-- The scale entries an op claims, as they stand in the flue's ring. -/
def Group.scaleWords (g : Group) (p : Part) (m : MatOp) : List Nat :=
  match g.flue? 7 with
  | none => []
  | some q => (List.range m.scales).map fun i => leNat (p.padRead 0 (q.base + 4 * (m.spos + i) % 16384) 4)

/-- The failed sq.ld whose entries the op needs (R221). -/
def Group.badScales (g : Group) (m : MatOp) : Option (Nat × W64) :=
  match g.flue? 7 with
  | none => none
  | some q => (q.bad.find? fun b => m.scales != 0 &&
      (decide (countSub b.1 m.spos < m.scales) || decide (countSub m.spos b.1 < b.2.1))).map fun b => (b.2.2.1, b.2.2.2.2)

/-- A trap for entries that a failed sq.ld left. -/
def badLoad (b : Nat × W64) : MatDone := MatDone.failed (b.1 % 256) b.2.toNat (b.1 / 256)

/-- The result of a multiply from its inputs, on the tile of one member. -/
def MmaIn.done (i : MmaIn) (m : MatOp) (t : Tile) (idx : Nat) : MatDone :=
  match i.faulty m (m.kext [i.ea, i.eb]) with
  | some bit => MatDone.failed trapReservedField (dataField bit) idx
  | none => MatDone.of (i.result m t)

/-- A multiply on its own hearth. -/
def MatOp.single (m : MatOp) (g : Group) (p : Part) (t : Tile) (idx : Nat) : MatDone :=
  match g.badScales m with
  | some b => badLoad b
  | none =>
    let i : MmaIn := { a := m.a, b := m.b, ea := m.ea, eb := m.eb, pa := p, pb := p, scales := g.scaleWords p m }
    i.done m t idx

/-- The inputs of a member of an instance: A from hearth 4i, B and its scales from hearth j (R223). -/
def Core.stInputs (c : Core) (l : List (Nat × MatOp)) (p : Nat) : Option (MmaIn × Option (Nat × W64)) :=
  match memberOp l (4 * (p / 4)), memberOp l (p % 4) with
  | some a, some b =>
    match c.matOwner a, c.matOwner b with
    | some ga, some gb =>
      some ({ a := a.a, b := b.b, ea := a.ea, eb := b.eb, pa := ga.2, pb := gb.2, scales := gb.1.scaleWords gb.2 b },
        gb.1.badScales b)
    | _, _ => none
  | _, _ => none

/-- A failed load or a faulty scale entry of any supplier fails every member (R224). -/
def Core.stFault (c : Core) (l : List (Nat × MatOp)) (idx : Nat) : Option MatDone :=
  (List.range 16).findSome? fun p => match memberOp l p, c.stInputs l p with
    | some m, some (i, bad) => match bad with
      | some b => some (badLoad b)
      | none => (i.faulty m (m.kext [i.ea, i.eb])).map fun bit => MatDone.failed trapReservedField (dataField bit) idx
    | _, _ => none

/-- A member's result. -/
def Core.stDone (c : Core) (l : List (Nat × MatOp)) (p : Nat) (m : MatOp) (t : Tile) : MatDone :=
  match c.stInputs l p with
  | some (i, _) => MatDone.of (i.result m t)
  | none => MatDone.plain none

/-- The tile of a group. -/
def Group.tileAt (g : Group) (n : Nat) : Tile := g.acc.getD n zeroTile

/-- Note the scratchpad granules that an op has read, and meet the race shadow (R302, R307). -/
def Core.matReads (c : Core) (g : Group) (m : MatOp) : Core :=
  let pads := c.matPads m
  let words := (pads.flatMap fun r => rotWords r.1 r.2.1 r.2.2).eraseDups
  (pads.foldl (fun c r => c.padRead g m.seq r.1 [r.2]) c).modPart g.part fun p => p.touch m.cycle m.off m.slot m.split g.num false words

/-- Write rows of scratchpad for an op, as acc.st and acc.cvt do (R220). -/
def Core.matRows (c : Core) (g : Group) (m : MatOp) (rows : List (Nat × List Byte)) : Core :=
  let c := rows.foldl (fun c r => c.padWrite g m.seq m.a.rot r.1 r.2) c
  let words := (rows.flatMap fun r => rotWords m.a.rot r.1 r.2.length).eraseDups
  c.modPart g.part fun p => p.touch m.cycle m.off m.slot m.split g.num true words

/-- Offset of row `i` of a descriptor. -/
def MatOperand.rowAt (o : MatOperand) (i : Nat) : Nat :=
  match o with
  | .desc base rp _ _ => base + i * rp
  | _ => 0

/-- The rows acc.cvt writes, with what it raises (R228). -/
def cvtRows (m : MatOp) (p : Part) (t : Tile) : List (Nat × List Byte) × FlagSet × Bool :=
  let w := (m.ea.getD 0 0).toNat
  let width := fmtWidth (bitsNat w 4 0)
  let cols := bitsNat w 40 32
  let bias := fun i n => match biasRange m.ea with
    | none => 0
    | some (off, _) => leNat (p.padRead m.a.rot (off + 4 * (if bitsNat w 11 10 = 1 then n else i)) 4)
  let rows := (List.range (bitsNat w 24 16)).map fun i =>
    (i, (List.range cols).map fun n => cvtElem m.ea m.sat (bias i n) (t.at i n))
  let fl := rows.foldl (fun a r => r.2.foldl (fun a o => (a.1 ||| o.fl, a.2 || o.sat)) a) ((0 : FlagSet), false)
  (rows.map fun r =>
    let off := m.a.rowAt r.1
    (off, packRow (p.padRead m.a.rot off (cvtRowBytes width cols)) width (r.2.map fun o => o.x)), fl.1, fl.2)

/-- The end of an op: it leaves the queue, consumes its scale entries, and its tile, flags or trap reach its group
(R206, R207, R221). -/
def State.endMat (s : State) (m : MatOp) (d : MatDone) : State :=
  let c := { s.core with mats := s.core.mats.filter fun x => x.id != m.id }
  match c.matOwner m with
  | none => { s with core := c }
  | some (g, _) =>
    let past := countAdd m.spos m.scales
    let c := if m.scales = 0 then c else c.modGroup m.h m.slot fun g => g.modFlue m.seq 7 fun q =>
      { q with c := past, bad := q.bad.filter fun b => decide (countSub (countAdd b.1 b.2.1) past ≤ 4096) &&
                                                        countAdd b.1 b.2.1 != past }
    let c := c.modGroup m.h m.slot fun g =>
      let g := (g.landed s.cycle m.seq m.split [] d.fl d.sat).flag d.fl d.sat
      match d.tile with | some t => { g with acc := g.acc.set m.acc t } | none => g
    match d.fail with
    | none => { s with core := c }
    | some (code, i0, i1) =>
      let c := c.modGroup m.h m.slot fun g => g.clearPend m.split (m.dst.map Reg.v)
      match g.trapEntry m.split m.mask with
      | none => { s with core := c }
      | some n =>
        let x : Ctx := { c.ctx with h := m.h, slot := m.slot, split := n, off := m.off, iter := m.iter }
        match c.group? m.h m.slot with
        | some g => { s with core := c.raise g ((trapOf code m.mask i0 i1).event x 3 s.cycle) }
        | none => { s with core := c }

/-- A known-answer tile ends (R231). The reference is the signature of R230; an array that computes another one is a
compute error, which comes as a step of its own. -/
def State.endKat (s : State) (m : MatOp) : State :=
  let ref := katSignature m.rate m.arg
  let routed := BitVec.ofNat 32 m.arg2
  s.endMat m (if routed = ref then MatDone.plain none else MatDone.failed trapKat routed.toNat ref.toNat)

/-- An op that is not of the stove ends. -/
def State.endOwn (s : State) (m : MatOp) (g : Group) (p : Part) : State :=
  let t := g.tileAt m.acc
  match m.kind with
  | .mma | .mmaQ | .mmaSp | .mmaSt =>
    ({ s with core := s.core.matReads g m } : State).endMat m (m.single g p t (s.matIndex m))
  | .accZ => s.endMat m (MatDone.plain (some zeroTile))
  | .accLd => ({ s with core := s.core.matReads g m } : State).endMat m (MatDone.plain (some (loadTile m.a p)))
  | .accSt =>
    let rows := (List.range 128).map fun i => (m.a.rowAt i, rowAsBytes (t.getD i Vec.zero))
    ({ s with core := s.core.matRows g m rows } : State).endMat m (MatDone.plain none)
  | .accCvt =>
    let r := cvtRows m p t
    let c := (s.core.matReads g m).matRows g m r.1
    ({ s with core := c } : State).endMat m { tile := none, fl := r.2.1, sat := r.2.2, fail := none }
  | .accMv =>
    let ws := m.dst.mapIdx fun i n => RegWrite.lanes n m.mask (t.getD (m.arg + i) Vec.zero)
    let l : Landing := { h := m.h, slot := m.slot, split := m.split, due := s.cycle, seq := m.seq, sq := false, bus := none,
                         lanes := m.mask, writes := ws, fflags := [], isat := 0, late := true }
    ({ s with core := { s.core with land := s.core.land ++ [l] } } : State).endMat m (MatDone.plain none)
  | .accAdd => s.endMat m (MatDone.of (addTiles (bitNat m.arg2 0) m.sat t (g.tileAt (m.arg % 4))))
  | .kat => s.endKat m

/-- The members of an instance end together (R223, R224). -/
def State.endStove (s : State) (l : List (Nat × MatOp)) : State :=
  l.foldl (fun t e => match s.core.matOwner e.2 with
    | none => t.endMat e.2 (MatDone.plain none)
    | some (g, _) =>
      let t : State := { t with core := t.core.matReads g e.2 }
      match s.core.stFault l (s.matIndex e.2) with
      | some d => t.endMat e.2 d
      | none => t.endMat e.2 (s.core.stDone l e.1 e.2 (g.tileAt e.2.acc))) s

/-- An op whose last step is done ends. -/
def State.finishMat (s : State) (m : MatOp) : State :=
  match s.core.matOwner m with
  | none => s.endMat m (MatDone.plain none)
  | some (g, p) => match m.failed with
    | some (code, i0, i1) => s.endMat m (MatDone.failed code i0.toNat i1.toNat)
    | none => if m.kind = .mmaSt then s.endStove (s.core.stMembers m) else s.endOwn m g p

/-! ### The step -/

/-- An op whose last step is done; it ends at the end of its cycle. -/
def State.matEnd? (s : State) : Option MatOp :=
  if s.phase ≤ 1 then none else s.core.mats.find? fun m => m.left == 0

/-- An op that can step now. -/
def State.matStep? (s : State) : Option MatOp := if 1 < s.phase then none else s.core.mats.find? s.canStep

/-- R205 matrixStep: the first op that can take a step takes it, and the first whose last step is done ends. -/
def execMatrixStep (s : State) : Host.Outcome State Fault Refusal :=
  .next (match s.matEnd? with
    | some m => s.finishMat m
    | none => match s.matStep? with
      | some m => { s with core := s.core.stepMat s.cycle m }
      | none =>
        if 1 < s.phase then s
        else match s.stNext?, s.stLost? with
          | some l, _ => { s with core := l.foldl (fun c e => c.stepMat s.cycle e.2) s.core }
          | none, some (m, i) => { s with core := s.core.failMat m trapIllegalSchedule i 0 }
          | none, none => s)

/-- Some T op steps or ends now. -/
def State.matDue (s : State) : Bool :=
  s.matEnd?.isSome || s.matStep?.isSome || (decide (s.phase ≤ 1) && (s.stNext?.isSome || s.stLost?.isSome))

/-! ### The start of a queued A op (R190, R191, R201, R220) -/

/-- A T op of the hearth issued before a queued op comes first: one of its split, or one that meets its scratchpad ranges (R220,
R312). -/
def Core.matBefore (c : Core) (e : EngOp) (m : MatOp) : Bool :=
  m.h == e.h && decide (m.seq < e.seq) &&
  ((m.slot == e.slot && m.split == e.split) ||
    ((c.group? m.h m.slot).map fun g => g.part) == ((c.group? e.h e.slot).map fun g => g.part) &&
      (c.matReadsOf m ++ m.writeRanges).any fun r => e.ranges.any fun q => decide (q.1 < r.1 + r.2) && decide (r.1 < q.1 + q.2))

/-- A queued op may start: a T op's reads and writes come first too (R190, R220, R312). -/
def Core.startable (c : Core) (e : EngOp) : Bool :=
  !e.started && e.failed.isNone && e.waits.all (fun i => !(c.engs.any fun d => d.id == i)) &&
  c.accessesBefore e.h e.slot e.split e.seq && c.flueOrder e &&
  !(c.mats.any fun m => c.matBefore e m)

/-- The first op that may start. -/
def State.engStart? (s : State) : Option EngOp :=
  s.core.engs.find? fun e => s.core.startable e && !(s.engHeld e) && !(s.frozen e.h e.slot)

/-- R190 aOpStart: the engine takes the op; an advance moves its count at once (R200, R201). -/
def execAOpStart (s : State) : Host.Outcome State Fault Refusal :=
  .next (match s.engStart? with
    | none => s
    | some e =>
      let n := s.core.fresh
      let now := e.kind == .qAdvp || e.kind == .qAdvc || e.kind == .sqDrp
      let due := if now then s.cycle else s.cycle + 1 + Config.freeNat n.1
      let c := n.2.modEng e.id fun e => { e with started := true, due := due }
      let adv := fun (g : Group) =>
        match e.kind with
        | .qAdvp => g.modFlue e.seq (e.func % 8) fun q => { q with p := countAdd q.p e.o0.toNat }
        | .qAdvc => g.modFlue e.seq (e.func % 8) fun q => { q with c := countAdd q.c e.o0.toNat }
        | .sqDrp => g.modFlue e.seq 7 fun q => { q with c := countAdd q.c e.o0.toNat }
        | _ => g
      { s with core := c.modGroup e.h e.slot adv })

end Sys2Proof.Machine
end

