-- ==== Sys2Proof/Machine/FaultQ.lean ====
section
/-! DEFINITION. The page-fault queues (R351 to R353), what each kind of waiter does with the host's answer (R297, R316,
R317, R352, R359, R418), and fetches tried again (R297). -/

namespace Sys2Proof.Machine

/-! ### Who waits for a fault -/

/-- The number of a waiter that is no access and no engine op: its kind, and two numbers. Kind 1 is a stream or
dictionary fetch of a split, 2 a hearth's refills, 3 a BAR 2 window, 4 the acceptance of a queue's record, 5 the save of
a team, 6 a dump, 7 the completion of a launch, 8 a debugger's read, 9 a channel's copy. -/
def waiterId (kind a b : Nat) : Nat := kind * 2 ^ 60 + a * 2 ^ 32 + b
/-- A fetch of a split. -/
def splitWaiter (h slot split : Nat) : Nat := waiterId 1 h (8 * slot + split)
/-- The refills of a hearth. -/
def stokerWaiter (h : Nat) : Nat := waiterId 2 h 0
/-- A function's BAR 2 window. -/
def winWaiter (f : Nat) : Nat := waiterId 3 f 0
/-- The acceptance of a queue's next record. -/
def acceptWaiter (f q : Nat) : Nat := waiterId 4 f q
/-- The save of a team. -/
def saveWaiter (launch team : Nat) : Nat := waiterId 5 launch team
/-- The dump of a team part. -/
def dumpWaiter (part : Nat) : Nat := waiterId 6 part 0
/-- The completion of a launch. -/
def doneWaiter (launch : Nat) : Nat := waiterId 7 launch 0
/-- A debugger's read for an admin command of a function. -/
def debugWaiter (f : Nat) : Nat := waiterId 8 f 0
/-- The dependence of a launch. -/
def depWaiter (launch : Nat) : Nat := waiterId 10 launch 0

/-- A copy of a channel. -/
def chanWaiter (f ch : Nat) : Nat := waiterId 9 f ch

def waiterKind (id : Nat) : Nat := id / 2 ^ 60
def waiterA (id : Nat) : Nat := id / 2 ^ 32 % 2 ^ 28
def waiterB (id : Nat) : Nat := id % 2 ^ 32

/-- UNIT of R351 for a hearth's own agent, and for an engine or the stoker. -/
def State.hearthUnit (s : State) (h : Nat) : Nat :=
  dieOf h + 4 * (stoveOf h % 8) + 32 * (((s.core.hearth? h).map fun x => x.pos).getD 0)
def engineUnit (h : Nat) : Nat := dieOf h + 4 * (stoveOf h % 8) + 32 * 31

/-- %LAUNCH of the part that a slot belongs to. -/
def State.launchAt (s : State) (h slot : Nat) : Nat :=
  match (s.core.group? h slot).bind fun g => s.core.part? g.part with
  | some p => s.launchNum p
  | none => 0

/-- UNIT and %LAUNCH of a waiter (R351). -/
def State.agentOf (s : State) (id : Nat) : Nat × Nat :=
  let a := waiterA id
  let numOf := fun l => ((s.lch.launch? l).map fun x => x.num).getD 0
  match waiterKind id with
  | 0 => match s.core.accs.find? fun x => x.id == id with
    | some x => (s.hearthUnit x.h, s.launchAt x.h x.slot)
    | none => match s.core.engs.find? fun x => x.id == id with
      | some x => (engineUnit x.h, s.launchAt x.h x.slot)
      | none => (engineUnit 0, 0)
  | 1 => (s.hearthUnit a, s.launchAt a (waiterB id / 8))
  | 2 => (engineUnit a, ((s.core.parts.find? fun p => p.h == a).map fun p => s.launchNum p).getD 0)
  | 5 => (engineUnit 0, numOf a)
  | 6 => match s.core.part? a with | some p => (engineUnit p.h, s.launchNum p) | none => (engineUnit 0, 0)
  | 7 => (engineUnit 0, numOf a)
  | _ => (engineUnit 0, 0)

/-! ### Fetches of images (R66, R77, R297) -/

/-- Change a partition of a hearth. -/
def Core.modPartition (c : Core) (h pid : Nat) (f : Partition → Partition) : Core :=
  c.modHearth h fun r => { r with partitions := r.partitions.map fun q => if q.pid == pid then f q else q }

/-- Dictionary index of the record at a stream offset, as far as the stream buffer shows it. -/
def Core.indexAt (c : Core) (p : Part) (off : Nat) : Option Nat :=
  match (c.hearth? p.h).map fun hr => recordIn hr p off with
  | some (.ok r) => some r.idx
  | _ => none

/-- Splits of a partition that wait for one of its indices; split 4 is the handler, with its selected slot. -/
def Core.missers (c : Core) (h pid idx : Nat) : List (Part × Nat × Nat) :=
  (c.parts.filter fun p => p.h == h && p.pid == pid).flatMap fun p =>
    ((c.groups.filter fun g => g.part == p.id).flatMap fun g =>
      ((List.range 4).filter fun n =>
        let e := g.split n
        e.state == .held && e.waitarg == 2 && e.missing == some idx).map
        fun n => (p, g.slot, n)) ++
    (match p.handler with
      | some r => if r.wait == (2, 2) && c.indexAt p r.offset == some idx then [(p, r.slot, 4)] else []
      | none => [])

/-- A trap of a split, or of the handler, that its fetch gives. -/
def Core.fetchTrap (c : Core) (h slot split cycle : Nat) (code origin i0 i1 : Nat) : Core :=
  match c.group? h slot with
  | none => c
  | some g =>
    let run := (c.part? g.part).bind fun p => p.handler
    let offs := (g.split split).nextOffsets
    let own := (c.part? g.part).bind fun p => offs.find? fun o => (g.split split).missing.isSome && c.indexAt p o == (g.split split).missing
    let off := if split = 4 then (run.map fun r => r.offset).getD 0 else own.getD (offs.headD (g.split split).offset)
    let m := if split = 4 then (run.map fun r => r.lanes).getD LaneMask.all else (g.split split).mask
    c.raise g ((trapOf code m i0 i1).event { c.ctx with h := h, slot := slot, split := split, off := off, iter := none } origin cycle)

/-- A split or the handler stands PARKED for a fetch; `again` is when it is tried again (R297). -/
def Core.parkFetch (c : Core) (h slot split cycle : Nat) (again : Option Nat) : Core :=
  if split = 4 then
    match c.group? h slot with
    | none => c
    | some g => c.modPart g.part fun p => { p with handler := p.handler.map fun r =>
        { r with wait := (7, 0), ready := again.getD (2 ^ 62) } }
  else c.modSplit h slot split fun e =>
    let e := if e.state = .parked then e else e.enter cycle .parked 0
    { e with refetch := again, stopped := false }

/-- Due time of a preload load answered "no frame" (R73, R297): tried again at cycle `t`, or at the events of R297. -/
def againDue (t : Nat) : Nat := 2 ^ 61 + t
/-- The load waits to be tried again. -/
def isAgain (due : Nat) : Bool := decide (2 ^ 61 ≤ due) && decide (due < 2 ^ 62)
/-- The load is due. -/
def dueBy (due cycle : Nat) : Bool := decide ((if isAgain due then due - 2 ^ 61 else due) ≤ cycle)

/-- Splits parked for a fetch in a world, and preload loads answered "no frame", try it again now (R73, R297). -/
def State.retryFetches (s : State) (world : Nat) : State :=
  let mine := fun (id : Nat) => match s.core.part? id with | some p => p.world == world | none => false
  let wake := fun (e : SplitE) => if e.state = .parked && e.refetch.isSome then { e with refetch := some s.cycle } else e
  let groups := s.core.groups.map fun g => if mine g.part then { g with splits := g.splits.map wake } else g
  let parts := s.core.parts.map fun p => if p.world ≠ world then p else
    { p with handler := p.handler.map fun r => if r.wait.1 = 7 && decide (r.ready < 2 ^ 62) then { r with ready := s.cycle } else r }
  let hearths := s.core.hearths.map fun hr => { hr with partitions := hr.partitions.map fun q =>
    if q.world ≠ world then q
    else { q with refills := q.refills.map fun r => if isAgain r.2.2 then (r.1, r.2.1, s.cycle) else r } }
  { s with core := { s.core with groups := groups, parts := parts, hearths := hearths } }

/-- A refill of an index fails: its entry stays invalid and those who wait take DICT_IMAGE_FAULT (R78). -/
def State.dictFail (s : State) (h pid idx reason : Nat) : State :=
  let who := s.core.missers h pid idx
  let c := who.foldl (fun c w => c.fetchTrap h w.2.1 w.2.2 s.cycle trapDictImage 0 idx reason) s.core
  { s with core := c.modPartition h pid fun q =>
      let gone := (q.refills.filter fun r => r.2.1 == idx).map fun r => r.1
      { q with refills := q.refills.filter fun r => r.2.1 != idx,
               entries := q.entries.mapIdx fun i e => if gone.contains i then { e with tag := none, busy := false, valid := false } else e } }

/-- A refill's page has no frame: those who wait are PARKED and the refill is given up (R297). -/
def State.dictPark (s : State) (h pid idx : Nat) : State :=
  let who := s.core.missers h pid idx
  let c := who.foldl (fun c w => c.parkFetch h w.2.1 w.2.2 s.cycle (some (s.cycle + 800000))) s.core
  { s with core := c.modPartition h pid fun q =>
      let gone := (q.refills.filter fun r => r.2.1 == idx).map fun r => r.1
      { q with refills := q.refills.filter fun r => r.2.1 != idx,
               entries := q.entries.mapIdx fun i e => if gone.contains i then { e with tag := none, busy := false, valid := false } else e } }

/-- When a refill that waits for a page, or for another device, is due: never by itself. -/
def stuckDue : Nat := 2 ^ 62

/-- A preload fails: the record names the entry's address, and the partition's launch ends DICT_FAULT (R73, R390). -/
def State.preloadFail (s : State) (h pid idx : Nat) : State :=
  match s.core.parts.find? fun p => p.h == h && p.pid == pid with
  | none => s.file (s.hearthRecord h 3 0x12 2)
  | some p =>
    let va := p.image.base + p.image.dictOff + 64 * idx
    let pa := ((s.place (stoveOf h) p.world va .exec).map fun l => l.pa).getD 0
    let s := s.file { s.hearthRecord h 3 0x12 2 with addr := pa, vaddr := va, world := p.world }
    s.endLaunch p.launch (11, trapDictImage, 0, p.team, idx) fun _ => none

/-- The refills of a hearth that wait for a page of a world hear the answer. -/
def State.decideRefills (s : State) (h world page code : Nat) : State :=
  match s.core.hearth? h with
  | none => s
  | some hr => (hr.partitions.filter fun q => q.world == world).foldl (fun s q =>
      let needs := fun (i : Nat) =>
        match s.core.parts.find? fun p => p.h == h && p.pid == q.pid with
        | some p => (p.image.base + p.image.dictOff + 64 * i) / 4096 == page || (q.filt + 16 * i) / 4096 == page
        | none => false
      let stuck := q.refills.filter fun r => r.2.2 == stuckDue && needs r.2.1
      let again := fun (t : Nat) => { s with core := s.core.modPartition h q.pid fun q =>
        { q with refills := q.refills.map fun r => if stuck.contains r then (r.1, r.2.1, t) else r } }
      if stuck.isEmpty then s
      else if code = 1 then again (s.cycle + 1)
      else if !q.preloaded then
        (if code = 2 then again (againDue (s.cycle + 800000)) else s.preloadFail h q.pid ((stuck.head?.map fun r => r.2.1).getD 0))
      else stuck.foldl (fun s r => if code = 2 then s.dictPark h q.pid r.2.1 else s.dictFail h q.pid r.2.1 1) s) s

/-! ### Answers (R297, R352) -/

/-- The trap of an answer of 2 to 4. -/
def answerTrap (code : Nat) : Nat := if code = 2 then trapStarvation else if code = 3 then trapPageFault else trapAccess

/-- A logged access hears the answer for a page. -/
def State.decideAccess (s : State) (a : Access) (page code : Nat) : State :=
  if code = 1 then { s with core := s.core.modAccess a.id fun a => { a with replay := a.replay ++ [page] } }
  else if a.kind.cls = 4 then s.failLanes a page trapPageFault 4
  else s.failLanes a page (answerTrap code) (if code = 4 then 1 else a.kind.cls)

/-- A fetch of a split hears the answer. -/
def State.decideFetch (s : State) (id : Nat) (va : W64) (acc code : Nat) : State :=
  let h := waiterA id
  let slot := waiterB id / 8
  let split := waiterB id % 8
  if code = 1 then { s with core := s.core.parkFetch h slot split s.cycle (some s.cycle) }
  else if code = 2 then { s with core := s.core.parkFetch h slot split s.cycle (some (s.cycle + 800000)) }
  else if acc = 6 then
    let idx := match (s.core.group? h slot).bind fun g => (s.core.part? g.part).map fun p => (g, p) with
      | some (g, p) => (s.core.indexAt p (if split = 4 then (p.handler.map fun r => r.offset).getD 0 else (g.split split).offset)).getD 0
      | none => 0
    { s with core := s.core.fetchTrap h slot split s.cycle trapDictImage 0 idx 1 }
  else
    let page := va.toNat - va.toNat % 4096
    { s with core := s.core.fetchTrap h slot split s.cycle (answerTrap code) 2 page (if code = 4 then 1 else 5) }

/-- A waiter hears the answer to its fault (R297, R316, R317, R352, R359, R418). -/
def State.hear (s : State) (id : Nat) (va : W64) (world acc code : Nat) : State :=
  let a := waiterA id
  let b := waiterB id
  let w := if code = 1 then 0 else 2
  match waiterKind id with
  | 0 => match s.core.accs.find? fun x => x.id == id with
    | some x => s.decideAccess x (va.toNat / 4096) code
    | none => { s with core := s.core.modEng id fun e =>
        if code = 1 then { e with wait := 0 } else { e with wait := 0, failed := some (answerTrap code, va) } }
  | 1 => s.decideFetch id va acc code
  | 2 => s.decideRefills a world (va.toNat / 4096) code
  | 3 => s.modFunc a fun g => { g with win := match g.win with | r :: l => { r with wait := w } :: l | [] => [] }
  | 4 => { s with lch := s.lch.modQueue a b fun q => { q with wait := w } }
  | 5 => { s with lch := s.lch.modTeam a b fun t => { t with saveWait := w } }
  | 6 => { s with core := s.core.modPart a fun p => if p.halt = 3 then { p with halt := if code = 1 then 2 else 4 + code } else p }
  | 7 => { s with lch := s.lch.modLaunch a fun l => { l with wait := w } }
  | 9 => s.modFunc a fun g => { g with channels := g.channels.map fun c =>
      if c.ch = b && c.copying = 1 then { c with copying := if code = 1 then 2 else 3 } else c }
  | _ => s

/-! ### The queue (R351, R353) -/

/-- Records the fault ring holds. -/
def Func.fqSize (f : Func) : Nat := 64 * 2 ^ (f.fqCtl.toNat % 16)

/-- Raise the queue's vector, at most once per 4,096 cycles. -/
def State.fqRaise (s : State) (f : Nat) : State :=
  let g := s.func f
  if g.fqIrq ≤ s.cycle then
    (s.raiseIrq f (bitsNat g.fqCtl.toNat 47 32)).modFunc f fun g => { g with fqIrq := s.cycle + 4096 }
  else s

/-- The lowest fault identifier that is free. -/
def Func.freeFid (f : Func) : Option Nat := (List.range 1024).find? fun i => !(f.faults.any fun x => x.fid == i)

/-- Write a fault's record (R351). -/
def State.putFault (s : State) (f fid : Nat) (r : FaultReq) : State :=
  let g := s.func f
  let who := s.agentOf r.id
  let page := r.va.toNat / 4096
  let bs := natLe 8 (4096 * page) ++ natLe 2 fid ++ natLe 1 r.world ++ natLe 1 r.kind ++ natLe 1 r.acc ++ natLe 1 r.level ++
    natLe 2 who.1 ++ natLe 4 who.2 ++ natLe 4 0 ++ natLe 8 s.cycle
  let x : Fault351 := { fid := fid, world := r.world, page := page, kind := r.kind, acc := r.acc, joined := [(r.id, r.va)] }
  let s := s.hostWrite (g.fqBase.toNat + 32 * (g.fqProd.toNat % g.fqSize)) bs
  (s.modFunc f fun g => { g with fqProd := g.fqProd + 1, faults := g.faults ++ [x] }).fqRaise f

/-- Report a fault to a function's queue: it joins an outstanding one, is written, or waits on the device. -/
def State.reportTo (s : State) (f : Nat) (r : FaultReq) : State :=
  let g := s.func f
  let same := fun (x : Fault351) => x.world == r.world && x.page == r.va.toNat / 4096 && x.kind == r.kind && x.acc == r.acc
  if !(g.fqCtl.getLsbD 4) then s.hear r.id r.va r.world r.acc 3
  else if g.faults.any same then
    s.modFunc f fun g => { g with faults := g.faults.map fun x => if same x then { x with joined := x.joined ++ [(r.id, r.va)] } else x }
  else match g.freeFid with
    | some fid =>
      if g.waiting.isEmpty && decide ((g.fqProd - g.fqCons).toNat < g.fqSize) then s.putFault f fid r
      else s.modFunc f fun g => { g with waiting := g.waiting ++ [r] }
    | none => s.modFunc f fun g => { g with waiting := g.waiting ++ [r] }

/-- Faults that waited on the device are reported as far as the ring and the identifiers go. -/
def State.drainFaults (s : State) (f : Nat) : State :=
  (s.func f).waiting.foldl (fun s r => s.reportTo f r) (s.modFunc f fun g => { g with waiting := [] })

/-- The function of a world. -/
def State.worldFunc (s : State) (world : Nat) : Option Nat := s.hst.owners.getD world none

/-- R351 translationFault: the first fault found is reported; one of a world that no function owns is answered 3. -/
def execTranslationFault (s : State) : Host.Outcome State Fault Refusal :=
  .next (match s.cch.faultq with
    | [] => s
    | r :: l =>
      let s : State := { s with cch := { s.cch with faultq := l } }
      match s.worldFunc r.world with
      | some f => s.reportTo f r
      | none => s.hear r.id r.va r.world r.acc 3)

/-- R352 fqAnswer: the fault's identifier is free again, and every fault joined to it takes the answer. -/
def execFqAnswer (func : Nat) (value : W64) (s : State) : Host.Outcome State Fault Refusal :=
  let fid := bitsNat value.toNat 9 0
  let code := bitsNat value.toNat 19 16
  let s := if value &&& 0xFFFFFFFFFFF0FC00 = 0 then s else s.reservedWrite func 0x2020 value
  .next (match (s.func func).faults.find? fun x => x.fid == fid with
    | some x =>
      if !(within 1 4 code) then
        s.modFunc func fun g => { g with badAns := Nat.min 255 (g.badAns + 1) }
      else
        let s := s.modFunc func fun g => { g with faults := g.faults.filter fun y => y.fid != fid }
        let s := x.joined.foldl (fun s w => s.hear w.1 w.2 x.world x.acc code) s
        let s := if code = 1 then (List.range 64).foldl (fun s w => if s.worldFunc w = some func then s.retryFetches w else s) s else s
        s.drainFaults func
    | none => s.modFunc func fun g => { g with badAns := Nat.min 255 (g.badAns + 1) })

/-! ### Fetches tried again (R297) -/

/-- A fetch that is due: hearth, slot, split (4 for the handler) and part. -/
def State.retryDue (s : State) : Option (Part × Nat × Nat) :=
  s.core.parts.findSome? fun p =>
    if p.halt != 0 then none
    else
      let splits := (s.core.groups.filter fun g => g.part == p.id).flatMap fun g =>
        ((List.range 4).filter fun n =>
          let e := g.split n
          e.state == .parked && !e.stopped && (match e.refetch with | some t => decide (t ≤ s.cycle) | none => false)).map
          fun n => (p, g.slot, n)
      let own := match p.handler with
        | some r => if r.wait.1 == 7 && decide (r.ready ≤ s.cycle) then [(p, r.slot, 4)] else []
        | none => []
      (splits ++ own).head?

/-- What a fetch at some offsets needs first: a virtual address and the class of R351, none when nothing is absent. -/
def State.fetchNeeds (s : State) (p : Part) (offs : List Nat) : List (Nat × Nat) :=
  match s.core.hearth? p.h with
  | none => []
  | some hr => offs.flatMap fun o => match recordIn hr p o with
    | .absent b => [(p.image.base + p.image.streamOff + b, 5)]
    | .ok r => [(p.image.base + p.image.dictOff + 64 * r.idx, 6), (p.filt + 16 * r.idx, 6)]
    | .bad _ _ _ _ => []

/-- The first fault that a translation of those addresses meets; a stream page that may not be executed is no fault
here: its trap comes at the issue. -/
def State.fetchFault (s : State) (p : Part) (id : Nat) : List (Nat × Nat) → Option FaultReq
  | [] => none
  | (va, acc) :: l => match s.translate (stoveOf p.h) p.world va .exec with
    | .ok _ _ _ => s.fetchFault p id l
    | .fault kd lv =>
      if acc = 5 && kd = 3 then none
      else some { id := id, va := BitVec.ofNat 64 va, world := p.world, kind := kd, acc := acc, level := lv }

/-- A parked fetch succeeds: the split, or the handler, goes on. -/
def Core.unparkFetch (c : Core) (p : Part) (slot split cycle : Nat) : Core :=
  if split = 4 then c.modPart p.id fun p => { p with handler := p.handler.map fun r => { r with wait := (1, 0), ready := cycle } }
  else c.modSplit p.h slot split fun e => { e with state := .ready, waitarg := 0, waitstart := cycle + 1, refetch := none }

/-- R297 fetchRetry: the fetch translates and the split leaves PARKED, or a new fault is found. -/
def execFetchRetry (s : State) : Host.Outcome State Fault Refusal :=
  .next (match s.retryDue with
    | none => s
    | some (p, slot, split) =>
      let offs := if split = 4 then (p.handler.map fun r => [r.offset]).getD []
        else ((s.core.group? p.h slot).map fun g => (g.split split).nextOffsets).getD []
      match s.fetchFault p (splitWaiter p.h slot split) (s.fetchNeeds p offs) with
      | none => { s with core := s.core.unparkFetch p slot split s.cycle }
      | some r =>
        { s with cch := { s.cch with faultq := s.cch.faultq ++ [r] }
                 core := s.core.parkFetch p.h slot split s.cycle none })

end Sys2Proof.Machine
end

