-- ==== Sys2Proof/Machine/Stoker.lean ====
section
/-! DEFINITION. The stoker: misses, victims and refills of the decode tables (R74 to R83), preloads (R72, R73) and price-table
updates (R86); pages of the stream buffers (R299); and the sequencer's bundles (R110 to R113). -/

namespace Sys2Proof.Machine

/-! ### Victims (R74 to R76) -/

/-- Entries of a partition by its SIZE code (R71). -/
def partitionSize (code : Nat) : Nat := 8 * 2 ^ code

/-- A team part that runs from a partition. -/
def Core.partOf (c : Core) (h pid : Nat) : Option Part := c.parts.find? fun p => p.h == h && p.pid == pid

/-- Dictionary indices that a miss of split `who` (slot, split) may not displace: the bodies of the partition's sequencer
runs, and the body that `who`, or a split before it, is loading at a seq (R109, log entry 95). -/
def Core.heldIndices (c : Core) (h pid : Nat) (who : Nat × Nat) : List Nat :=
  (c.parts.filter fun p => p.h == h && p.pid == pid).flatMap fun p =>
    (c.groups.filter fun g => g.part == p.id).flatMap fun g =>
      (List.range 4).flatMap fun n =>
        let e := g.split n
        (match e.seqRun with
          | some r => r.body.filterMap fun b => c.indexAt p b.1
          | none => []) ++
        (if e.state == .held && e.waitarg == 2 && decide (4 * g.slot + n ≤ 4 * who.1 + who.2) then e.wants else [])

/-- CLOCK from the hand: reference bits are cleared until an entry whose bit is 0 (R76). -/
def clockFrom (size : Nat) (skip : Nat → Bool) : Nat → Nat → List DEntry → Option (Nat × List DEntry)
  | 0, _, _ => none
  | f + 1, hand, es =>
    let nxt := if hand + 1 < size then hand + 1 else 128
    match es[hand]? with
    | none => none
    | some e =>
      if skip hand then clockFrom size skip f nxt es
      else if e.ref then clockFrom size skip f nxt (es.modify hand fun e => { e with ref := false })
      else some (hand, es)

/-- An entry becomes the most recently used (R75). -/
def Partition.use (q : Partition) (n : Nat) : Partition :=
  if q.size ≤ 3 then { q with lru := q.lru.filter (· != n) ++ [n] }
  else { q with entries := q.entries.modify n fun e => { e with ref := e.ref || decide (128 ≤ n) } }

/-- The victim of a miss, with the partition after the choice; none when every replaceable entry is busy (R74 to R76). -/
def Partition.victim (q : Partition) (held : List Nat) : Option (Nat × Partition) :=
  let skip := fun (n : Nat) => match q.entries[n]? with
    | none => true
    | some e => e.busy || e.pinned || (match e.tag with | some i => e.valid && held.contains i | none => false)
  let n := partitionSize q.size
  if q.size ≤ 3 then
    let empty := (List.range n).find? fun i => !(skip i) && match q.entries[i]? with | some e => !e.valid | none => false
    match (match empty with | some i => some i | none => q.lru.find? fun i => !(skip i)) with
    | some i => some (i, q.use i)
    | none => none
  else (clockFrom n skip (2 * n) q.hand q.entries).map fun r =>
    (r.1, { q with entries := r.2, hand := if r.1 + 1 < n then r.1 + 1 else 128 })

/-- The stove L2 holds a line. -/
def Caches.hasL2 (c : Caches) (stove : Nat) (l : Loc) : Bool := c.l2.any fun e => e.stove == stove && e.loc == l.line

/-- Cycles that a refill takes beyond the 48 of R77: the filter's 16 when the stored record is not current, and an open
number when a line is not in the L2. -/
def State.missDelay (s : State) (h : Nat) (p : Part) (idx : Nat) : Nat :=
  let stove := stoveOf h
  let at' := fun (va : Nat) => s.place stove p.world va .exec
  let lines := [at' (p.image.base + p.image.dictOff + 64 * idx), at' (p.filt + 16 * idx)]
  let cold := lines.any fun l => match l with | some l => !(s.cch.hasL2 stove l) | none => false
  let current := match s.peek stove p.world (p.filt + 16 * idx) 16 .exec with
    | some bs => (metaOf bs).fver == (s.dieFor h).fver && (metaOf bs).index == idx
    | none => true
  (if current then 0 else 16) + (if cold then Config.freeNat s.core.free else 0)

/-- A miss of a split is detected: it joins a refill in flight, or takes a victim and starts one, or waits; the bundle can
issue 48 cycles later at the earliest (R74, R77, R86). -/
def State.miss (s : State) (h : Nat) (p : Part) (idx : Nat) (who : Nat × Nat) : State :=
  match s.core.hearth? h, s.core.partition? p with
  | some hr, some q =>
    if hr.rebuild != 0 || q.refills.any (fun r => r.2.1 == idx) then s
    else match q.victim (s.core.heldIndices h p.pid who) with
      | none => s
      | some (n, q) =>
        let due := s.cycle + 48 + s.missDelay h p idx
        let c := s.core.modPartition h p.pid fun _ =>
          { q with
            entries := q.entries.modify n fun e => { e with tag := some idx, busy := true, valid := false }
            refills := q.refills ++ [(n, idx, due)] }
        { s with core := { c with free := c.free + 1 }.count p.func (dieOf h) 0x06 1 }
  | _, _ => s

/-! ### Lines of an image (R77, R78) -/

/-- What a read of an image line gives. -/
inductive Fetched where
  | got (s : State) (bs : List Byte)
  | fault (kind level : Nat)
  /-- It must be tried again. -/
  | again (s : State)
  /-- It cannot be had: 2 a second MAC failure, 3 uncorrectable data, 5 another device does not give it. -/
  | fail (reason : Nat)
  deriving Repr

/-- Reason of DICT_IMAGE_FAULT for such a failure (R287; the fabric's counts as uncorrectable data, log entry 96). -/
def dictReason (r : Nat) : Nat := if r = 5 then 3 else r
/-- Reason of MEM_ABORT for it (R287). -/
def abortReason (r : Nat) : Nat := if r = 3 then 1 else if r = 5 then 3 else r

/-- Bytes of a 128-byte line of another device, as they have arrived, for a waiter. -/
def State.farLine (s : State) (id world : Nat) (l : Loc) (n : Nat) : Fetched :=
  let base := l.pa - l.pa % 128
  match s.fab.lineFor id l with
  | some [] => .fail 5
  | some bs => .got s ((bs.drop (l.pa % 128)).take n)
  | none =>
    if s.fab.remotes.any fun r => r.acc == id && r.dst == l.dev && r.addr == base then .again s
    else match s.sendRemote 1 l.dev world 4 base 0 [] [] id 0 false with
      | some s => .again s
      | none => .fail 5

/-- Read `n` bytes within one line through a stove's L2, for the stoker or the service of an image. -/
def State.fetchLine (s : State) (stove world id va n : Nat) (need : Need) : Fetched :=
  match s.translate stove world va need with
  | .fault kd lv => .fault kd lv
  | .ok s l leaf =>
    match s.lineState l s.core.seq world with
    | .abort r => .fail (if r = 1 then 3 else 2)
    | .waits => .again s
    | .good =>
      if l.tgt = 2 then s.farLine id world l n
      else if leafNC leaf || l.tgt = 3 then .got s (s.homeRead l n)
      else let r := s.readL2 stove l world n; .got r.1 r.2

/-- A fetch is complete: what has arrived of other devices' lines is not kept. -/
def State.dropLines (s : State) : State :=
  { s with fab := { s.fab with lines := s.fab.lines.filter fun x => decide (x.acc < 2 ^ 60) } }

/-- What a write of bytes within one line gives. -/
inductive StoredLine where
  | ok (s : State)
  | fault (kind level : Nat)

/-- Write bytes within one line from a stove; a meadow page is not written and counts as one that may not be (R78, log
entry 96). -/
def State.storeLine (s : State) (stove world va : Nat) (bs : List Byte) : StoredLine :=
  match s.translate stove world va .write with
  | .fault kd lv => .fault kd lv
  | .ok s l leaf =>
    if l.tgt = 3 then .fault 2 1
    else if leafNC leaf || l.tgt = 2 then .ok (s.sendHome world l (fun _ => true) bs)
    else .ok (s.writeL2 stove l world (fun _ => true) bs)

/-- An entry of the dictionary with its metadata. -/
inductive Loaded where
  | got (s : State) (w : BitVec 512) (m : Meta)
  | fault (va kind level : Nat)
  | again (s : State)
  | fail (reason : Nat)
  deriving Repr

/-- Load a dictionary entry through the stoker, filtering it when its stored record is not current (R77 to R83). -/
def State.loadEntry (s : State) (h : Nat) (p : Part) (idx : Nat) : Loaded :=
  let stove := stoveOf h
  let id := stokerWaiter h
  let va := p.image.base + p.image.dictOff + 64 * idx
  match s.fetchLine stove p.world id va 64 .exec with
  | .fault kd lv => .fault va kd lv
  | .again s => .again s
  | .fail r => .fail (dictReason r)
  | .got s bs =>
    let w := BitVec.ofNat 512 (leNat bs)
    if !(parityOk w) then .fail 4
    else
      let fa := p.filt + 16 * idx
      match s.fetchLine stove p.world id fa 16 .exec with
      | .fault kd lv => .fault fa kd lv
      | .again s => .again s
      | .fail r => .fail (dictReason r)
      | .got s mb =>
        let d := s.dieFor h
        let m := metaOf mb
        if m.fver = d.fver && m.index = idx then .got s w m
        else
          let m := filterEntry d.prices p.pats d.fver idx w
          match s.storeLine stove p.world fa m.bytes with
          | .ok s => .got (s.countWorld p.world (dieOf h) 0x07 1) w m
          | .fault kd lv => .fault fa kd lv

/-- An entry is installed. -/
def DEntry.install (e : DEntry) (idx : Nat) (w : BitVec 512) (m : Meta) (ref : Bool) : DEntry :=
  { e with tag := some idx, busy := false, valid := true, ref := ref, word := w, data := m }

/-- A translation fault of the stoker (R78). -/
def State.stokerFault (s : State) (h world va kd lv : Nat) : State :=
  let r : FaultReq := { id := stokerWaiter h, va := BitVec.ofNat 64 va, world := world, kind := kd, acc := 6, level := lv }
  { s with cch := { s.cch with faultq := s.cch.faultq ++ [r] } }

/-- Set when a partition's refill or preload token is due. -/
def Core.refillAt (c : Core) (h pid : Nat) (r : Nat × Nat × Nat) (t : Nat) : Core :=
  c.modPartition h pid fun q => { q with refills := q.refills.map fun x => if x == r then (x.1, x.2.1, t) else x }

/-! ### Refills (R74, R77, R78) -/

/-- A refill that is due: hearth, partition, refill, and a part that runs from it. -/
def State.refillDue (s : State) : Option (Nat × Partition × (Nat × Nat × Nat)) :=
  s.core.hearths.findSome? fun hr => hr.partitions.findSome? fun q =>
    if !q.preloaded then none
    else (q.refills.find? fun r => decide (r.2.2 ≤ s.cycle)).map fun r => (hr.h, q, r)

/-- R77 stokerRefill: the entry is installed, or its fault is served, or those who wait take DICT_IMAGE_FAULT. -/
def execStokerRefill (s : State) : Host.Outcome State Fault Refusal :=
  .next (match s.refillDue with
    | none => s
    | some (h, q, r) =>
      let gone := s.core.modPartition h q.pid fun q =>
        { q with refills := q.refills.erase r, entries := q.entries.modify r.1 fun e => { e with tag := none, busy := false } }
      match s.core.partOf h q.pid with
      | none => { s with core := gone }
      | some p => match s.loadEntry h p r.2.1 with
        | .again s => { s with core := s.core.refillAt h q.pid r (s.cycle + 1) }
        | .fault va kd lv => ({ s with core := s.core.refillAt h q.pid r stuckDue } : State).stokerFault h p.world va kd lv
        | .fail reason => s.dictFail h q.pid r.2.1 reason
        | .got s w m =>
          { s.dropLines with core := s.core.modPartition h q.pid fun q =>
              { q with refills := q.refills.erase r
                       entries := q.entries.modify r.1 fun e => e.install r.2.1 w m (decide (5 ≤ q.size)) } })

/-! ### Preloads (R72, R73) -/

/-- A partition whose preload goes on. -/
def State.preloadDue (s : State) : Option (Nat × Partition) :=
  s.core.hearths.findSome? fun hr => (hr.partitions.find? fun q =>
    !q.preloaded && q.refills.any fun r => dueBy r.2.2 s.cycle).map fun q => (hr.h, q)

/-- Load pinned entries from index `i` on. -/
def State.preloadFrom (s : State) (h : Nat) (p : Part) : Nat → Nat → Sum (State × Nat × Loaded) State
  | 0, _ => .inr s
  | n + 1, i =>
    match s.loadEntry h p i with
    | .got t w m =>
      ({ t with core := t.core.modPartition h p.pid fun q =>
          { q with entries := q.entries.modify i fun e => { e.install i w m false with pinned := true } } } : State).preloadFrom h p n (i + 1)
    | r => .inl (s, i, r)

/-- The preload of a partition is over; the last one of a price-table update ends it (R86). -/
def Core.preloaded (c : Core) (h pid : Nat) : Core :=
  (c.modPartition h pid fun q => { q with preloaded := true, refills := [] }).modHearth h fun hr =>
    if hr.rebuild = 2 && hr.partitions.all (fun q => q.preloaded) then { hr with rebuild := 0 } else hr

/-- R72 partitionPreload: the pinned entries are loaded, or the launch ends DICT_FAULT (R73). -/
def execPartitionPreload (s : State) : Host.Outcome State Fault Refusal :=
  .next (match s.preloadDue with
    | none => s
    | some (h, q) =>
      match s.core.partOf h q.pid with
      | none => { s with core := s.core.preloaded h q.pid }
      | some p =>
        let n := if q.size < 4 then 0 else Nat.min 128 q.dictCount
        let token := fun (c : Core) (i t : Nat) => c.modPartition h q.pid fun q => { q with refills := [(i, i, t)] }
        match s.preloadFrom h p n 0 with
        | .inr s => { s.dropLines with core := s.core.preloaded h q.pid }
        | .inl (t, i, .fault va kd lv) => ({ t with core := token t.core i stuckDue } : State).stokerFault h p.world va kd lv
        | .inl (_, i, .again t) => { t with core := token t.core i (s.cycle + 1) }
        | .inl (t, i, _) => ({ t with core := token t.core i stuckDue } : State).preloadFail h q.pid i)

/-! ### Price-table updates (R86) -/

/-- A hearth whose update can be applied: no refill is in flight. -/
def State.rebuildDue (s : State) : Option Nat :=
  (s.core.hearths.find? fun hr => hr.rebuild == 1 && hr.partitions.all fun q => q.refills.isEmpty).map fun hr => hr.h

/-- Unpinned entries are invalid; a partition with pinned ones loads them again. -/
def Partition.clear (q : Partition) (cycle : Nat) : Partition :=
  let entries := q.entries.map fun e => if e.pinned then e else { e with tag := none, valid := false, busy := false, ref := false }
  let pins := q.entries.any fun e => e.pinned
  { q with entries := entries, preloaded := !pins, refills := if pins then [(0, 0, cycle)] else [] }

/-- R86 decodeTableRebuild. -/
def execDecodeTableRebuild (s : State) : Host.Outcome State Fault Refusal :=
  .next (match s.rebuildDue with
    | none => s
    | some h => { s with core := s.core.modHearth h fun hr =>
        let qs := hr.partitions.map fun q => q.clear s.cycle
        { hr with partitions := qs, oldPrices := none, rebuild := if qs.all fun q => q.preloaded then 0 else 2 } })

/-! ### Stream pages (R299) -/

/-- Put a page of bytes into a canonical list. -/
def pageCells (bs : List Byte) : List Host.Cell :=
  (bs.zipIdx.filter fun e => e.1 != 0).map fun e => (e.2, e.1)

/-- Read lines of 128 bytes of a page, one after another. -/
def State.pageLines (s : State) (stove world id : Nat) : Nat → Nat → Fetched
  | 0, _ => .got s []
  | n + 1, va =>
    match s.fetchLine stove world id va 128 .exec with
    | .got s bs => match s.pageLines stove world id n (va + 128) with
      | .got t r => .got t (bs ++ r)
      | r => r
    | r => r

/-- Fetch the stream page of an address for a split, or the handler: the page enters the stream buffer, its fault is
served with the split PARKED, or the split traps (R287, R297, R299). -/
def State.streamFetch (s : State) (p : Part) (slot split va : Nat) : State :=
  let page := va - va % 4096
  let id := splitWaiter p.h slot split
  match s.pageLines (stoveOf p.h) p.world id 32 page with
  | .got s bs =>
    let pg : StreamPage := { world := p.world, page := page / 4096, bytes := pageCells bs }
    { s with
      fab := s.dropLines.fab
      core := s.core.modHearth p.h fun hr =>
        { hr with stream := pg :: (hr.stream.filter fun x => !(x.world == p.world && x.page == page / 4096)).take 15 } }
  | .again s => s
  | .fault 3 _ => { s with core := s.core.fetchTrap p.h slot split s.cycle trapExecFault 0 (va - p.image.base - p.image.streamOff) 1 }
  | .fault kd lv =>
    let r : FaultReq := { id := id, va := BitVec.ofNat 64 va, world := p.world, kind := kd, acc := 5, level := lv }
    { s with cch := { s.cch with faultq := s.cch.faultq ++ [r] }
             core := s.core.parkFetch p.h slot split s.cycle none }
  | .fail r => { s with core := s.core.fetchTrap p.h slot split s.cycle trapMemAbort 2 page (abortReason r) }

/-! ### The sequencer's bundles (R110 to R113) -/

/-- A record as the stream buffer holds it. -/
def issuedAt (hr : Hearth) (p : Part) (off : Nat) (iter : Option Nat) (rho : Nat) : Issued :=
  match recordIn hr p off with
  | .ok r => { off := r.off, idx := r.idx, lits := r.lits, nxt := r.nxt, iter := iter, rho := rho, fetch := (0, 0, 0) }
  | .bad code i0 i1 o => { off := o, idx := 0, lits := [], nxt := o, iter := iter, rho := rho, fetch := (code, i0, i1) }
  | .absent o => { off := o, idx := 0, lits := [], nxt := o, iter := iter, rho := rho, fetch := (0, 0, 0) }

/-- The records of a run's body cycle, with their iterations and rotations (R110, R111). -/
def SeqRun.records (r : SeqRun) (hr : Hearth) (p : Part) : List Issued :=
  (List.range r.stages).filterMap fun k =>
    let i := r.t / r.ii
    if k ≤ i && i - k < r.trip then
      (r.body[r.t % r.ii + k * r.ii]?).map fun b => issuedAt hr p b.1 (some (i - k)) ((r.vrotStart + 16 - (i - k) % 16) % 16)
    else none

/-- The rotation of a record of the run that is issued with an iteration (R111). -/
def SeqRun.rotOf (r : SeqRun) (i : Option Nat) (vrot : Nat) : Nat :=
  match i with | some n => (r.vrotStart + 16 - n % 16) % 16 | none => vrot

/-- The records of a split's next bundle. -/
def bundleRecords (hr : Hearth) (p : Part) (g : Group) (split : Nat) : List Issued :=
  if split = 4 then [issuedAt hr p ((p.handler.map fun r => r.offset).getD 0) none g.vrot]
  else match (g.split split).replay, (g.split split).seqRun with
    | some (off, i), some r => [issuedAt hr p off i (r.rotOf i g.vrot)]
    | _, some r => r.records hr p
    | _, none => [issuedAt hr p (g.split split).offset none g.vrot]

/-- R110 sequencerIssue: the records of the issuing split's body cycle become its bundle. -/
def execSequencerIssue (s : State) : Host.Outcome State Fault Refusal :=
  let x := s.core.ctx
  .next (match s.core.group? x.h x.slot, s.core.hearth? x.h with
    | some g, some hr => match s.core.part? g.part with
      | some p => if (g.split x.split).seqRun.isNone then s
          else { s with work := .bundle x.h x.slot x.split (bundleRecords hr p g x.split) :: s.work }
      | none => s
    | _, _ => s)

/-- The stop of seqx at the start of an iteration: T becomes the iteration, and a run with nothing left to drain ends
(R113). -/
def Group.seqStop (g : Group) (n : Nat) (sb : W64) : Group :=
  match (g.split n).seqRun with
  | none => g
  | some r =>
    let j := r.t / r.ii
    if r.stop.isNone || r.t % r.ii != 0 || j = 0 || decide (r.trip ≤ j) || sb = 0 then g
    else
      let r' : SeqRun := { r with trip := j }
      if r.t < r'.total then g.modSplit n fun e => { e with seqRun := some r' }
      else
        let after := match r.body.getLast? with | some b => b.2 | none => r.last
        { g.modSplit n fun e => { e with seqRun := none, offset := after } with
          vrot := (r.vrotStart + 16 - j % 16) % 16, seqIter := BitVec.ofNat 64 j }

/-! ### Corrected errors (R14, R383, R392, R394) -/

/-- The record of a corrected error (R383, R389). -/
def correctedRecord (e : ErrSite) : ErrRec :=
  { hubRecord 1 e.unit 1 with die := e.die, stove := e.stove, pos := e.pos, sub := e.sub, subn := e.subn, lane := e.lane,
                              addr := e.addr.toNat }

/-- The predictive counter that a unit's corrections step (R392). -/
def siteCounter (e : ErrSite) : Option (Nat × Nat) :=
  match e.unit with
  | 0x11 => some (0, e.subn)
  | 0x12 => some (1, e.subn)
  | 0x13 => some (2, 8 * e.subn + e.lane)
  | 0x10 => some (3, e.addr.toNat)
  | _ => none

/-- A lane of a port is spared: the port retrains without it (R394). -/
def Fabric.spareLane (f : Fabric) (port : Nat) : Fabric :=
  { f with ports := f.ports.modify port fun p => { p with lanes := p.lanes - 1, dead := p.dead || decide (p.lanes ≤ 6) } }

/-- What a counter's action does. -/
def State.predictAction (s : State) (kind : Nat) (e : ErrSite) : State :=
  match kind with
  | 0 => s.replace 5 (correctedRecord e)
  | 2 => { s with fab := s.fab.spareLane e.subn }
  | _ => s

/-- The hearth at a site. -/
def State.siteHearth (s : State) (e : ErrSite) : Option Nat :=
  (s.core.hearths.find? fun x => x.present && dieOf x.h == e.die && stoveOf x.h % 8 == e.stove && x.pos == e.pos).map fun x => x.h

/-- A parity error of an entry of the decode table: the entry is discarded and refilled in its place, so a bundle that needs it
issues late (R14). -/
def Partition.discard (q : Partition) (n cycle : Nat) : Partition :=
  match q.entries[n]? with
  | some e => match e.tag with
    | some idx => if !e.valid || e.busy then q
        else { q with entries := q.entries.modify n fun e => { e with busy := true, valid := false }
                      refills := q.refills ++ [(n, idx, cycle + 48)] }
    | none => q
  | none => q

/-- A soft error of a hearth's decode table, entry SUBN counted over the whole table, or of its stream buffer, which drops its
pages (R14, R383; log entry 103). -/
def Hearth.softError (hr : Hearth) (e : ErrSite) (cycle : Nat) : Hearth :=
  if e.sub = 0x21 then { hr with stream := [] }
  else { hr with partitions := hr.partitions.map fun q =>
    if q.base ≤ e.subn && e.subn < q.base + q.entries.length then q.discard (e.subn - q.base) cycle else q }

/-- R383 correctedError: filed with severity 1, and otherwise seen only as time. -/
def execCorrectedError (e : ErrSite) (s : State) : Host.Outcome State Fault Refusal :=
  let s := s.file (correctedRecord e)
  let s : State := match (if e.unit = 0x01 then s.siteHearth e else none) with
    | some h => { s with core := s.core.modHearth h fun hr => hr.softError e s.cycle }
    | none => s
  let s : State := if e.unit = 0x13 then { s with core := s.core.count 0 7 0x22 1 } else s
  .next (match siteCounter e with
    | none => s
    | some (k, u) => s.predict k u (correctedRecord e) fun s => s.predictAction k e)

end Sys2Proof.Machine
end

