-- ==== Sys2Proof/Machine/Power.lean ====
section
/-! DEFINITION. Power: the ember ring (R249 to R255), levels and leases (R336 to R338), the limiter, the watchdog, temperature
and the supply (R402 to R404, R407), and rack messages (R405, R406). -/

namespace Sys2Proof.Machine

/-! ### Levels (R336, R337, R403, R404, R407) -/

/-- Module caps of L0 to L7, in watts (R336). -/
def levelCaps : List Nat := [900, 1200, 1500, 1800, 2100, 2400, 2600, 2800]
/-- Bulk per revolution of L0 to L7 (R336). -/
def levelBulk : List Nat := [39045, 70521, 101997, 136698, 172818, 212163, 237447, 264150]

/-- The highest of L0 to L6 whose cap does not exceed a limit; L0 below them all (R337, R406). -/
def levelFor (watts : Nat) : Nat := ((List.range 7).filter fun l => decide (levelCaps.getD l 0 ≤ watts)).foldl Nat.max 0

/-- The rack cap in force, or the safe cap (R337, R402); 900 W when a block has no verified copy (R401). -/
def Power.limit (p : Power) : Nat :=
  if p.l0 then 900 else match p.rackCap with | some c => c.1 | none => p.safeCap

/-- The smaller of that limit and the thermal ceiling (R337). -/
def Power.watts (p : Power) : Nat := match p.thermalCap with | some w => Nat.min w p.limit | none => p.limit

/-- The module level: the cap in force, the PF's ceiling and the thermal ceiling limit it (R337). -/
def Power.moduleLevel (p : Power) : Nat := Nat.min p.ceiling (levelFor p.watts)

/-- A die's level at a boundary (R337, R338, R403, R404, R407). -/
def Power.dieLevel (p : Power) (d : Die) : Nat :=
  let leased := match d.lease with | some l => l.begun | none => false
  let base := if leased then 7 else p.moduleLevel
  let base := if p.restarting then Nat.min base d.level else base
  let base := if p.watchdog.isSome then Nat.min base (Nat.min d.level (levelFor p.safeCap)) else base
  let base := match d.capLevel with | some l => Nat.min base l | none => base
  if d.tripped then 0 else base - d.thermal - d.current

/-- Change a die. -/
def Power.modDie (p : Power) (n : Nat) (f : Die → Die) : Power := { p with dies := p.dies.modify n f }
/-- Change a die's power state. -/
def State.modDie (s : State) (n : Nat) (f : Die → Die) : State := { s with pow := s.pow.modDie n f }
/-- A die's power state. -/
def State.dieAt (s : State) (n : Nat) : Die := s.pow.dies.getD n (State.freshDie n)

/-- The first revolution boundary at or after a cycle (R337). -/
def boundaryFrom (c : Nat) : Nat := ceilDiv c 129 * 129

/-- A boundary of this cycle has not been carried out. -/
def State.boundaryDue (s : State) : Bool := s.cycle % 129 == 0 && decide (s.pow.turns ≤ s.cycle / 129)

/-- A die at a boundary: leases begin, the level is granted, and bulk for the revolution is set, the
table's or what the damper grants of it (R249, R336, R337; log entry 12). -/
def Die.turn (d : Die) (p : Power) (cycle : Nat) : Die :=
  let d : Die := { d with lease := d.lease.map fun l => if l.start ≤ cycle then { l with begun := true } else l }
  let level := p.dieLevel d
  { d with level := level, resume := false, bulk := levelBulk.getD level 0 - Config.bulkLess (cycle / 129) d.die }

/-- The damper sets a stop's SHARE: 63 where a claim stands, else by a policy that the spec leaves open (R251; log entry 12). -/
def Hearth.setShare (hr : Hearth) (rev : Nat) : Hearth :=
  { hr with share := if hr.claim.isSome then 63 else Config.share rev hr.h % 64 }

/-- R249 revolutionBoundary. -/
def execRevolutionBoundary (s : State) : Host.Outcome State Fault Refusal :=
  .next (if !s.boundaryDue then s
    else { s with
      pow := { s.pow with dies := s.pow.dies.map fun d => d.turn s.pow s.cycle, turns := s.cycle / 129 + 1,
                          thermalCap := Config.thermalCap (s.cycle / 129) }
      core := { s.core with hearths := s.core.hearths.map fun hr => hr.setShare (s.cycle / 129) } })

/-! ### The ring (R249 to R253) -/

/-- Floor embers of a stop in a revolution (R250). -/
def floorOf (rev stop : Nat) : Nat := if (stop + 128 - 44 * rev % 128) % 128 < 44 then 3 else 2

/-- One stop in one cycle: the hearth, the bulk that passes on, and the floor embers that do (R251). -/
def Hearth.takeEmbers (hr : Hearth) (cycle passing : Nat) (resident : Bool) : Hearth × Nat × Nat :=
  let stop := hr.h % 128
  let fl := if cycle % 129 = stop then floorOf (cycle / 129) stop else 0
  if !resident then ({ hr with pool := 0 }, passing + hr.pool, fl)
  else
    let bulk := Nat.min passing (Nat.min hr.share (Config.poolCap - hr.pool))
    let own := Nat.min fl (Config.poolCap - (hr.pool + bulk))
    ({ hr with pool := hr.pool + bulk + own }, passing - bulk, fl - own)

/-- Bulk that the damper injects in a cycle: the revolution's bulk spread evenly (log entry 12), `less` while a sweep
runs on the die (R396). -/
def Die.inject (d : Die) (cycle less : Nat) : Nat :=
  let k := cycle % 129
  if d.cut.isSome || d.resume then 0 else d.bulk * (k + 1) / 129 - d.bulk * k / 129 - less

/-- A die's ring moves one stop; what reaches the damper is surplus (R249, R251). Floor embers that a stop has let pass are no
other stop's (R250). -/
def Die.ringStep (d : Die) (cycle less : Nat) (rest extra : List Nat) : Die :=
  { d with ring := d.inject cycle less :: rest
           excess := 0 :: (List.range 128).map fun i => d.excess.getD i 0 + extra.getD i 0
           surplus := d.surplus + d.ring.getD 128 0 + d.excess.getD 128 0 }

/-- One die's hearths take their embers, and its ring moves. -/
def State.takeDie (s : State) (n : Nat) : State :=
  let d := s.dieAt n
  let live := s.core.parts.map fun p => p.h
  let got := (List.range 128).map fun i => match s.core.hearths[128 * n + i]? with
    | some hr => hr.takeEmbers s.cycle (d.ring.getD i 0) (live.contains hr.h)
    | none => (State.freshHearth (128 * n + i), d.ring.getD i 0, 0)
  let hearths := s.core.hearths.take (128 * n) ++ got.map (fun x => x.1) ++ s.core.hearths.drop (128 * (n + 1))
  let sweeping := (s.svc.sweepPhase == 2 || s.svc.sweepPhase == 3) && s.svc.sweepStove / 8 == n
  let less := if sweeping then 96 else 0
  { s with core := { s.core with hearths := hearths }
           pow := s.pow.modDie n fun d => d.ringStep s.cycle less (got.map fun x => x.2.1) (got.map fun x => x.2.2) }

/-- R251 emberRingTake: every stop takes its embers, once in a cycle. -/
def execEmberRingTake (s : State) : Host.Outcome State Fault Refusal :=
  .next (if s.cycle < s.pow.taken then s
    else
      let s := (List.range 4).foldl State.takeDie s
      { s with pow := { s.pow with taken := s.cycle + 1 } })

/-! ### Claims (R255, R310) -/

/-- The tie order of R247 in a cycle: splits from the cycle's own place on. -/
def tieRank (cycle slot split : Nat) : Nat := (4 * slot + split + 64 - cycle % 64) % 64

/-- Splits of a hearth in EMBER that have waited 128 cycles when the next cycle begins. -/
def State.claimants (s : State) (h : Nat) : List (Nat × Nat × Nat) :=
  let goes := fun (g : Group) => match s.core.part? g.part with | some p => p.halt == 0 && !(s.leavingPart p) | none => false
  (s.core.groups.filter fun g => g.h == h && goes g).flatMap fun g => (List.range 4).filterMap fun n =>
    let e := g.split n
    if e.state == .ember && decide (e.waitstart + 128 ≤ s.cycle + 2) then some (e.waitstart, g.slot, n) else none

/-- The hearth and split of a claim to be placed: the longest wait, ties by R310. -/
def State.claimDue (s : State) : Option (Nat × Nat × Nat) :=
  s.core.hearths.findSome? fun hr =>
    if hr.claim.isSome then none
    else ((s.claimants hr.h).foldl (fun b w => match b with
      | none => some w
      | some x => if [w.1, tieRank (s.cycle + 1) w.2.1 w.2.2] < [x.1, tieRank (s.cycle + 1) x.2.1 x.2.2] then some w else some x)
      none).map fun w => (hr.h, w.2.1, w.2.2)

/-- R255 claimPlace. -/
def execClaimPlace (s : State) : Host.Outcome State Fault Refusal :=
  .next (match s.claimDue with
    | none => s
    | some (h, slot, split) =>
      let c := match s.core.group? h slot with | some g => s.core.countGroup g 0x05 1 | none => s.core
      { s with core := c.modHearth h fun hr => { hr with claim := some (slot, split) } })

/-! ### The limiter (R254, R404) -/

/-- A record of a die's power (log entry 33). -/
def powerRecord (sev die : Nat) : ErrRec := { hubRecord sev 0x15 10 with die := die }

/-- R254 droopCut: bulk injection stops and bulk packets are void; a droop during a cut starts its time again, and the
third cut in 1 s holds the die one level lower (R404). -/
def execDroopCut (die : Nat) (s : State) : Host.Outcome State Fault Refusal :=
  let d := s.dieAt die
  .next (if d.cut.isSome then s.modDie die fun d => { d with cut := some s.cycle }
    else
      let cuts := (d.cuts.filter fun c => decide (s.cycle < c + 800000000)) ++ [s.cycle]
      let third := decide (3 ≤ cuts.length)
      (s.modDie die fun d => { d with
        cut := some s.cycle
        cuts := cuts
        ring := List.replicate 129 0
        current := if third then 1 else d.current
        holdEnd := if third then some (s.cycle + 800000000) else d.holdEnd }).file (powerRecord 0 die))

/-- The damper firmware is at work (R403). -/
def Power.firmware (p : Power) : Bool := p.heartbeat && !p.restarting

/-- A die whose limiter is released now: after 8,000 cycles by firmware, after 80,000 without it. -/
def State.limiterDue (s : State) : Option Die :=
  s.pow.dies.find? fun d => match d.cut with
    | some t => decide (t + (if s.pow.firmware then 8000 else 80000) ≤ s.cycle)
    | none => false

/-- R404 limiterRelease: bulk resumes at the next boundary. -/
def execLimiterRelease (s : State) : Host.Outcome State Fault Refusal :=
  .next (match s.limiterDue with
    | none => s
    | some d => s.modDie d.die fun d => { d with
        cut := none
        resume := true
        capLevel := if s.pow.firmware then none else some (Nat.min d.level (levelFor s.pow.safeCap)) })

/-- A die whose hold is over. -/
def State.holdDue (s : State) : Option Die :=
  s.pow.dies.find? fun d => match d.holdEnd with | some t => decide (t ≤ s.cycle) | none => false

/-- R404 limiterHoldEnd. -/
def execLimiterHoldEnd (s : State) : Host.Outcome State Fault Refusal :=
  .next (match s.holdDue with
    | none => s
    | some d => s.modDie d.die fun d => { d with holdEnd := none, current := 0 })

/-! ### Leases (R338) -/

/-- The damper revokes a lease: notice goes to its function, and it ends at the first boundary at least 10 ms later. -/
def execLeaseRevoke (die : Nat) (s : State) : Host.Outcome State Fault Refusal :=
  .next (match (s.dieAt die).lease with
    | none => s
    | some l =>
      if l.revoked then s
      else
        let stop := boundaryFrom (s.cycle + 8000000)
        (s.modDie die fun d => { d with lease := some { l with revoked := true, stop := Nat.min l.stop stop } }).adminEvent
          l.func (1 + 2 ^ 8 * stop))

/-- A die whose lease expires at this boundary. -/
def State.leaseDue (s : State) : Option (Die × Lease) :=
  if !s.boundaryDue then none
  else s.pow.dies.findSome? fun d => d.lease.bind fun l => if l.stop ≤ s.cycle then some (d, l) else none

/-- R338 leaseEnd: the cooldown is four times the lease's length. -/
def execLeaseEnd (s : State) : Host.Outcome State Fault Refusal :=
  .next (match s.leaseDue with
    | none => s
    | some (d, l) => s.modDie d.die fun d => { d with lease := none, cooldown := s.cycle + 4 * (s.cycle - l.start) })

/-! ### Temperature and supply (R399, R407) -/

/-- The supply is gone: what is in flash stays. -/
def State.powerOff (s : State) : State := { s with pow := { s.pow with powered := false } }

/-- The three temperatures of the threshold block: the lowering, the trip and the cut (R401, R407). -/
def Service.warm (v : Service) : Nat := v.thresholds.getD 11 0
def Service.trip (v : Service) : Nat := v.thresholds.getD 12 0
def Service.burn (v : Service) : Nat := v.thresholds.getD 13 0

/-- R407 thermalThreshold: 100 °C starts the lowering, 105 °C forces L0, 115 °C removes power with a record of severity
4 in the flash log. -/
def execThermalThreshold (die celsius : Nat) (s : State) : Host.Outcome State Fault Refusal :=
  .next (if s.svc.burn ≤ celsius then (s.file { hubRecord 4 0x19 10 with die := die }).powerOff
    else if s.svc.trip ≤ celsius then s.modDie die fun d => { d with tripped := true }
    else if s.svc.warm ≤ celsius then s.modDie die fun d =>
      if d.hot then d else { d with hot := true, thermal := 1, stepAt := s.cycle + 8000000 }
    else s)

/-- A die that goes one level lower now. -/
def State.thermalDue (s : State) : Option Die :=
  s.pow.dies.find? fun d => d.hot && s.pow.firmware && decide (d.stepAt ≤ s.cycle) && decide (d.thermal < 7)

/-- R407 thermalStepDown. -/
def execThermalStepDown (s : State) : Host.Outcome State Fault Refusal :=
  .next (match s.thermalDue with
    | none => s
    | some d => s.modDie d.die fun d => { d with thermal := d.thermal + 1, stepAt := s.cycle + 8000000 })

/-- R407 temperatureFall: below 105 °C the trip ends, below 100 °C the lowering too. -/
def execTemperatureFall (die celsius : Nat) (s : State) : Host.Outcome State Fault Refusal :=
  .next (s.modDie die fun d =>
    let d : Die := if celsius ≤ s.svc.trip then { d with tripped := false } else d
    if celsius ≤ s.svc.warm then { d with hot := false, thermal := 0 } else d)

/-- R399 powerLoss. -/
def execPowerLoss (s : State) : Host.Outcome State Fault Refusal := .next s.powerOff

/-! ### The watchdog (R403) -/

/-- R403 heartbeatTimeout. -/
def execHeartbeatTimeout (s : State) : Host.Outcome State Fault Refusal :=
  .next (if !s.pow.heartbeat then s
    else ({ s with pow := { s.pow with heartbeat := false, restarting := true, watchdog := some s.cycle } } : State).file
      (hubRecord 3 0x15 10))

/-- R403 damperRestart: the firmware is back; the watchdog holds until a fresh cap is accepted. -/
def execDamperRestart (s : State) : Host.Outcome State Fault Refusal :=
  .next { s with pow := { s.pow with heartbeat := true, restarting := false,
                                     dies := s.pow.dies.map fun d => { d with capLevel := none } } }

/-! ### Rack messages (R405, R406) -/

/-- A sequence number is newer than the last accepted one. -/
def Power.newer (p : Power) (n : W32) : Bool :=
  match p.lastSeq with
  | none => true
  | some l => decide (1 ≤ (n - l).toNat) && decide ((n - l).toNat < 2 ^ 31)

/-- The rack clock in milliseconds (R406). -/
def Power.rackTime (p : Power) (cycle : Nat) : Option Nat := p.rackClock.map fun r => r.1 + (cycle - r.2) / 800000

/-- R406 rackTimeMessage. -/
def execRackTimeMessage (endpoint : Nat) (seqn : W32) (time : W64) (s : State) : Host.Outcome State Fault Refusal :=
  .next (if endpoint ≠ Config.capEndpoint ∨ !(s.pow.newer seqn) then s
    else { s with pow := { s.pow with rackClock := some (time.toNat, s.cycle), lastSeq := some seqn } })

/-- R406 rackCapMessage: a duplicate or late message is ignored; another is the cap in force, and lets the watchdog go
once the damper is back (R403). -/
def execRackCapMessage (endpoint watts : Nat) (seqn : W32) (expiry : W64) (s : State) :
    Host.Outcome State Fault Refusal :=
  .next (if endpoint ≠ Config.capEndpoint ∨ !(s.pow.newer seqn) then s
    else match s.pow.rackTime s.cycle with
      | none => s
      | some now =>
        if expiry.toNat ≤ now then s
        else
          let p : Power := { s.pow with
            rackCap := some (watts, expiry.toNat), lastSeq := some seqn,
            watchdog := if s.pow.firmware then none else s.pow.watchdog }
          let s := ({ s with pow := p } : State).file (hubRecord 0 0x15 10)
          if watts < 900 then s.file (hubRecord 5 0x15 10) else s)

/-- The cap in force has lapsed. -/
def State.capLapsed (s : State) : Bool :=
  match s.pow.rackCap, s.pow.rackTime s.cycle with | some c, some now => decide (c.2 ≤ now) | _, _ => false

/-- R406 capExpiry. -/
def execCapExpiry (s : State) : Host.Outcome State Fault Refusal :=
  .next (if s.capLapsed then
      ({ s with pow := { s.pow with rackCap := none } } : State).file (hubRecord 0 0x15 10)
    else s)

end Sys2Proof.Machine
end

