-- ==== Sys2Proof/Machine/Launch.lean ====
section
/-! DEFINITION. Launches: doorbells and queues (R320, R360), records and their checks (R313 to R316), dependences (R320),
meadow loads (R325), and placement (R232 to R235, R321, R324). -/

namespace Sys2Proof.Machine

/-! ### Reads of virtual memory by the device's own units -/

/-- Read bytes line by line; `id` waits for lines of other devices. -/
def State.readVirt (s : State) (stove world id : Nat) : Nat → Nat → Nat → Fetched
  | 0, _, _ => .got s []
  | fuel + 1, va, n =>
    if n = 0 then .got s []
    else
      let k := Nat.min n (128 - va % 128)
      match s.fetchLine stove world id va k .read with
      | .got s bs => match s.readVirt stove world id fuel (va + k) (n - k) with
        | .got t r => .got t (bs ++ r)
        | .fault kd lv => .fault kd lv
        | .again t => .again t
        | .fail r => .fail r
      | r => r

/-- Read `n` bytes. -/
def State.readBytes (s : State) (stove world id va n : Nat) : Fetched := s.readVirt stove world id (n / 128 + 2) va n

/-! ### Records (R313, R315) -/

/-- A launch record from its 128 bytes. -/
def parseLaunch (bs : List Byte) : LaunchRec :=
  { image := leAt bs 0 8, arg := le64 bs 8, filt := leAt bs 16 8, priv := leAt bs 24 8, pstride := leAt bs 32 4,
    teams := leAt bs 36 4, swap := leAt bs 40 8, ovf := leAt bs 48 8, ovfn := leAt bs 56 4, handler := leAt bs 60 4,
    dep := leAt bs 64 8, depval := leAt bs 72 8, done := leAt bs 80 8, crec := leAt bs 88 8, ext := leAt bs 96 8,
    queue := leAt bs 104 1 % 64, prio := leAt bs 105 1 % 16, world := leAt bs 106 1 % 64, part := leAt bs 107 1 % 16,
    msix := leAt bs 108 2, flags := leAt bs 110 2, sampn := leAt bs 112 4,
    rsv := leAt bs 104 1 / 64 != 0 || leAt bs 105 1 / 16 != 0 || leAt bs 106 1 / 64 != 0 || leAt bs 107 1 / 16 != 0 ||
      leAt bs 110 2 / 16 != 0 || leAt bs 116 12 != 0 }

/-- An entry of a list in memory. -/
def listAt {α : Type} (bs : List Byte) (n size : Nat) (f : List Byte → α) : List α :=
  (List.range n).map fun i => f ((bs.drop (size * i)).take size)

/-- The extension with the lists it names. -/
def parseExt (bs md fb : List Byte) : LaunchExt :=
  { dbgen := BitVec.ofNat 256 (leAt bs 0 32), brk := (List.range 4).map fun i => leAt bs (32 + 4 * i) 4,
    sbuf := leAt bs 48 8, sbufn := leAt bs 56 4, dbuf := leAt bs 64 8, dbufn := leAt bs 72 4,
    mdlist := listAt md (leAt bs 88 2) 32 fun e => (leAt e 0 8, leAt e 8 4, leAt e 12 1 % 16, leAt e 16 8),
    fblist := listAt fb (leAt bs 90 2) 4 fun e => leAt e 0 4 % 8192,
    rsv := leAt bs 60 4 != 0 || leAt bs 76 4 != 0 || leAt bs 92 4 != 0 || leAt bs 104 152 != 0 ||
      (listAt md (leAt bs 88 2) 32 fun e => leAt e 12 1 / 16 != 0 || leAt e 13 3 != 0 || leAt e 24 8 != 0 ||
        leAt e 0 8 % 256 != 0 || leAt e 8 4 % 256 != 0 || leAt e 16 8 % 256 != 0 ||
        decide (2 ^ 31 < leAt e 8 4 + leAt e 16 8)).any id ||
      (listAt fb (leAt bs 90 2) 4 fun e => decide (8192 ≤ leAt e 0 4)).any id }

/-- No extension: every field is 0 (R315). -/
def noExt : LaunchExt :=
  { dbgen := 0, brk := List.replicate 4 0, sbuf := 0, sbufn := 0, dbuf := 0, dbufn := 0, mdlist := [], fblist := [],
    rsv := false }

/-- The breakpoints of a launch: without an extension none is in use (log entry 34). -/
def Launch.breaks (l : Launch) : List Nat := if l.record.ext = 0 then List.replicate 4 0xFFFFFFFF else l.ext.brk

/-- The record's own fields break a rule of R313 or R316. -/
def LaunchRec.bad (r : LaunchRec) : Bool :=
  r.rsv || r.image % 64 != 0 || r.filt % 16 != 0 || r.priv % 65536 != 0 || r.swap % 65536 != 0 || r.ovf % 32 != 0 ||
  r.dep % 8 != 0 || r.done % 8 != 0 || r.crec % 32 != 0 || r.ext % 64 != 0 || r.teams == 0 || decide (2 ^ 24 < r.teams) ||
  decide (8 < r.part) || r.pstride == 0 || (bitNat r.flags 0 != (r.sampn != 0))

/-- The record against its image and extension (R316). -/
def LaunchRec.badWith (r : LaunchRec) (im : Image) (e : LaunchExt) : Bool :=
  (decide (r.part < 4) && decide (0 < im.hotCount)) || (r.part == 4 && decide (128 < im.dictCount)) ||
  decide (65536 * r.pstride < 512 * im.priv + 16384) || e.rsv || e.sbuf % 32 != 0 || e.dbuf % 32 != 0 ||
  (bitNat r.flags 0 && e.sbufn == 0) || (bitNat r.flags 1 && e.dbufn == 0)

/-! ### Shapes and rooms (R232, R324) -/

/-- Vector registers of a hearth, its pattern slots, and its scratchpad bytes (R1, R17, R68). -/
def hearthVregs : Nat := 1024
def hearthPatterns : Nat := 512
def hearthScratch : Nat := 1048576

/-- The shape could ever fit one hearth. -/
def Image.shapeFits (im : Image) : Bool :=
  decide (im.groups * im.vregs ≤ hearthVregs) && decide (im.groups * im.acc ≤ 4) && decide (im.scratch ≤ hearthScratch) &&
  decide (im.patCount ≤ hearthPatterns)

/-- A stove is withdrawn for a sweep. -/
def Service.withdrawnAt (v : Service) (h : Nat) : Bool := v.withdrawn.contains (stoveOf h)

/-- Some hearth or stove of the device could hold a team of the shape. -/
def State.couldFit (s : State) (im : Image) : Bool :=
  im.shapeFits &&
  if im.stove then (List.range 32).any fun st => (s.core.hearths.filter fun hr => stoveOf hr.h == st && hr.present).length == 16
  else s.core.hearths.any fun hr => hr.present

/-- A partition of a kernel that a hearth holds already (R324). -/
def Hearth.sharedBy (hr : Hearth) (r : LaunchRec) : Option Partition :=
  hr.partitions.find? fun q => q.image == r.image && q.filt == r.filt && q.world == r.world && q.size == r.part

/-- The lowest base of a free block for a partition (R71). -/
def Hearth.freeBase (hr : Hearth) (size : Nat) : Option Nat :=
  let n := partitionSize size
  ((List.range (2048 / n)).map (· * n)).find? fun b =>
    hr.partitions.all fun q => decide (q.base + partitionSize q.size ≤ b) || decide (b + n ≤ q.base)

/-- A team of a part is being pre-empted. -/
def State.beingPreempted (s : State) (p : Part) : Bool :=
  match s.lch.launch? p.launch with
  | some l => l.teams.any fun t => t.index == p.team && t.leaving == 2
  | none => false

/-- A hearth has all that a team part needs. -/
def State.fitsHearth (s : State) (h : Nat) (im : Image) (r : LaunchRec) : Bool :=
  match s.core.hearth? h with
  | none => false
  | some hr =>
    let ps := s.core.parts.filter fun p => p.h == h
    let gs := s.core.groups.filter fun g => g.h == h
    hr.present && !(s.svc.withdrawnAt h) && !(ps.any s.beingPreempted) && decide (ps.length < 16) &&
    decide (gs.length + im.groups ≤ 16) && decide ((gs.map fun g => g.v.length).sum + im.groups * im.vregs ≤ hearthVregs) &&
    decide ((gs.map fun g => g.acc.length).sum + im.groups * im.acc ≤ 4) &&
    decide ((ps.map fun p => ceilDiv p.image.scratch 4096).sum + ceilDiv im.scratch 4096 ≤ hearthScratch / 4096) &&
    decide ((ps.map fun p => p.image.patCount).sum + im.patCount ≤ hearthPatterns) &&
    ((hr.sharedBy r).isSome || (decide (hr.partitions.length < 4) && (hr.freeBase r.part).isSome))

/-- Hearths on which a team of the shape fits now: single hearths, or the 16 of a stove. -/
def State.places (s : State) (im : Image) (r : LaunchRec) : List (List Nat) :=
  if im.stove then
    ((List.range 32).map fun st => (List.range 16).map fun i => 16 * st + i).filter fun l => l.all fun h => s.fitsHearth h im r
  else ((List.range 512).map fun h => [h]).filter fun l => l.all fun h => s.fitsHearth h im r

/-- The entry of a list with the least key, the earliest among equals. -/
def leastBy {α : Type} (key : α → List Nat) : List α → Option α
  | [] => none
  | a :: r => match leastBy key r with | none => some a | some b => if key b < key a then some b else some a

/-- The place preferred: one that holds the kernel's partition, then the die of the most recent team, then the lowest (R324). -/
def State.bestPlace (s : State) (im : Image) (r : LaunchRec) (lastDie : Option Nat) (ok : Nat → Bool) : Option (List Nat) :=
  let ls := (s.places im r).filter fun l => l.all ok
  let has := fun (l : List Nat) => l.any fun h => match s.core.hearth? h with | some hr => (hr.sharedBy r).isSome | none => false
  let near := fun (l : List Nat) => lastDie == some (dieOf (l.headD 0))
  leastBy (fun l => [if has l then 0 else 1, if near l then 0 else 1]) ls

/-! ### Starting a team (R233, R235, R314) -/

/-- Split entry 0 at group start. -/
def startEntry (im : Image) : SplitE := { freeSplit with mask := LaneMask.all, offset := im.entry, state := .ready }

/-- A group at its start (R235); the part's `placed` is the cycle of it. -/
def startGroup (p : Part) (slot num seq : Nat) : Group :=
  let g : Group :=
    { h := p.h, slot := slot, part := p.id, num := num
      splits := [{ startEntry p.image with waitstart := p.placed }, freeSplit, freeSplit, freeSplit],
      v := List.replicate p.image.vregs Vec.zero, k := LaneMask.all :: List.replicate 15 0, sh := List.replicate 16 0,
      a := p.arg :: List.replicate 15 0, acc := List.replicate p.image.acc zeroTile, shadowing := [], fflags := 0,
      isat := false, fctl := 0, vrot := 0, seqIter := 0, issues := 0, pend := [],
      tags := List.replicate 16 { count := 0, failed := none }, idents := [], regionCtr := 0, sides := [],
      areaFree := BitVec.allOnes 256, gated := [], holds := [], ckpt := none, ckptReq := none, next := none, ckptBytes := 0,
      recorded := [], undo := [], reads := [], busyUntil := 0, lastLand := 0, stCount := 0, flues := List.replicate 8 none }
  { g with ckpt := some (g.save (seq - 1) p.placed ((List.range p.image.acc).map fun i => (i, zeroTile))) }

/-- Bytes of one swap slot (R327). -/
def Image.swapSize (im : Image) : Nat :=
  ceilDiv (327680 + im.scratch + im.groups * (16384 + 512 * im.vregs + 65536 * im.acc)) 65536 * 65536

/-- The pages of 4 KiB of a hearth's scratchpad that its teams leave free, lowest first (R261). -/
def Core.freePages (c : Core) (h : Nat) : List Nat :=
  let taken := (c.parts.filter fun p => p.h == h).flatMap fun p => p.pages
  (List.range (hearthScratch / 4096)).filter fun n => !(taken.contains n)

/-- The pages that a part of a hearth takes: the lowest free ones (log entry 70). -/
def Core.takePages (c : Core) (h n : Nat) : List Nat := (c.freePages h).take (ceilDiv n 4096)

/-- Scratchpad at a team's start: zeros, but open values in a page that a team of the same world was the last to use (R331). -/
def startScratch (own : List Bool) (free n : Nat) : List Host.Cell :=
  ((List.range n).filterMap fun i =>
    if own.getD (i / 4096) false then some (i, Config.freeByte (free + i)) else none).filter fun c => c.2 != 0

/-- A world's teams use pages of a hearth's scratchpad. -/
def Hearth.own (hr : Hearth) (world : Nat) (pages : List Nat) : Hearth :=
  { hr with owners := (hr.owners.filter fun o => !(pages.contains o.1)) ++ pages.map fun n => (n, world) }

/-- A team part at its start. -/
def State.newPart (s : State) (l : Launch) (team p h pid id : Nat) : Part :=
  let im := l.image
  let r := l.record
  let pages := s.core.takePages h im.scratch
  let own := pages.map fun n => match s.core.hearth? h with | some hr => hr.owners.contains (n, r.world) | none => false
  let slot := if im.stove then 16 * team + p else team
  let bar := fun (b : Nat) => ({ gen := 0, expect := if im.stove && 8 ≤ b then 16 * im.groups else im.groups, arrived := 0,
                                 arrivals := [] } : Barrier)
  { id := id, launch := l.id, team := team, p := p, h := h, func := l.func, world := r.world, prio := r.prio, image := im,
    pid := pid, filt := r.filt, arg := r.arg, privBase := r.priv, privStride := 65536 * r.pstride,
    swap := r.swap + slot * im.swapSize, ovf := r.ovf, ovfn := r.ovfn, handlerOff := r.handler, dbgen := l.ext.dbgen,
    brk := l.breaks, flags := r.flags, sampn := r.sampn, sbuf := l.ext.sbuf, sbufn := l.ext.sbufn, dbuf := l.ext.dbuf,
    dbufn := l.ext.dbufn, scratch := startScratch own s.core.free im.scratch, bars := (List.range 16).map bar,
    tn := List.replicate 64 (List.replicate 8 0), tnPend := [], pats := [],
    threshold := 16384, waitClock := 0, handler := none, events := [], handlerAt := 0, shadow := [], epoch := 0, races := [],
    halt := 0, dump := 0, fates := [], stop := [], stopAt := none, bindings := [], placed := s.cycle, pages := pages }

/-- An entry of a new partition. -/
def emptyEntry : DEntry :=
  { tag := none, busy := false, valid := false, pinned := false, ref := false, word := 0,
    data := { wset := 0, fver := 0, price := 0, rvec := 0, reason := 0, xfer := false, varlat := false, index := 0 } }

/-- Give a kernel its partition on a hearth, new when it holds none there: the partition's number (R71, R324). -/
def State.givePartition (s : State) (h : Nat) (im : Image) (r : LaunchRec) : State × Nat :=
  match s.core.hearth? h with
  | none => (s, 0)
  | some hr => match hr.sharedBy r with
    | some q => (s, q.pid)
    | none =>
      let pid := s.lch.nextId
      let q : Partition :=
        { pid := pid, image := r.image, filt := r.filt, world := r.world, size := r.part, base := (hr.freeBase r.part).getD 0,
          dictCount := im.dictCount, entries := List.replicate (partitionSize r.part) emptyEntry,
          lru := List.range (partitionSize r.part), hand := 128, preloaded := decide (r.part < 4),
          refills := if r.part < 4 then [] else [(0, 0, s.cycle)] }
      ({ s with core := s.core.modHearth h fun hr => { hr with partitions := hr.partitions ++ [q] }
                lch := { s.lch with nextId := pid + 1 } }, pid)

/-- The lowest free group slots of a hearth. -/
def Core.freeSlots (c : Core) (h n : Nat) : List Nat :=
  ((List.range 16).filter fun i => (c.group? h i).isNone).take n

/-- Place one part of a team with its groups. -/
def State.placePart (s : State) (l : Launch) (team p h : Nat) : State :=
  let r := s.givePartition h l.image l.record
  let s := r.1
  let part := s.newPart l team p h r.2 s.lch.nextId
  let slots := s.core.freeSlots h l.image.groups
  let gs := slots.zipIdx.map fun e => startGroup part e.1 e.2 s.core.seq
  let c := s.core.modHearth h fun hr => hr.own part.world part.pages
  { s with core := { c with parts := c.parts ++ [part], groups := c.groups ++ gs, free := c.free + l.image.scratch }
           lch := { s.lch with nextId := s.lch.nextId + 1 } }

/-- The last steps of a team's start on one hearth: what happened before the launch is seen (R281), its patterns are copied, its
tensor table is set, and its groups start (R68, R70, R233). -/
def State.startPart (s : State) (p : Part) : State :=
  let s := s.acquire p.h 6
  let q : Part := { p with
    pats := s.patterns (stoveOf p.h) p.world p.image, tn := s.tensorTable (stoveOf p.h) p.world p.image
    placed := s.cycle, started := true }
  let begin' := fun (g : Group) => if g.part = p.id then startGroup q g.slot g.num s.core.seq else g
  { s with core := { s.core.modPart p.id fun _ => q with groups := s.core.groups.map begin' } }

/-- The partitions of all of a team's hearths are preloaded. -/
def Core.teamLoaded (c : Core) (p : Part) : Bool :=
  (c.parts.filter fun q => q.launch == p.launch && q.team == p.team).all fun q =>
    match c.partition? q with | some x => x.preloaded | none => false

/-- The teams whose partitions are preloaded start, each on all its hearths at once (R233). -/
def State.startTeams (s : State) : State :=
  (s.core.parts.filter fun p => !p.started && p.halt == 0 && s.core.teamLoaded p).foldl State.startPart s

/-- A launch has no team left to place: its queue holds it no more (R320). -/
def Launching.unhold (l : Launching) (id : Nat) : Launching :=
  { l with queues := l.queues.map fun q => { q with held := q.held.filter (· != id) } }

/-- A launch has a team on hearths. -/
def Launch.onDies (l : Launch) (hs : List Nat) : Launch :=
  { l with lastDie := some (dieOf (hs.headD 0)), dies := (l.dies ++ hs.map dieOf).eraseDups }

/-- Place a team whole on hearths. -/
def State.placeTeam (s : State) (l : Launch) (team : Nat) (hs : List Nat) : State :=
  let s := hs.zipIdx.foldl (fun s e => s.placePart l team e.2 e.1) s
  let lch := s.lch.modTeam l.id team fun t => { t with state := .resident, since := s.cycle, leaving := 0, yields := none }
  let lch := lch.modLaunch l.id fun l => { l.onDies hs with lastPlaced := s.cycle }
  let left : Bool := match lch.launch? l.id with | some l => l.teams.any fun t => t.state == .waiting | none => false
  { s with lch := if left then lch else lch.unhold l.id }

/-! ### The doorbell (R360) -/

/-- R360 launchDoorbell: a value that fails a test is ignored and reported; one for no queue steps the error count. -/
def execLaunchDoorbell (func queue : Nat) (value : W32) (s : State) : Host.Outcome State Fault Refusal :=
  .next (match s.lch.queue? func queue with
    | none => s.modFunc func fun g => { g with winErrs := g.winErrs + 1 }
    | some q =>
      let v := value.toNat
      if (v + 2 ^ 32 - q.d) % 2 ^ 32 < 2 ^ 31 && (v + 2 ^ 32 - q.a) % 2 ^ 32 ≤ 256 then
        { s with lch := s.lch.modQueue func queue fun q => { q with d := v } }
      else s.adminEvent func (3 + 2 ^ 8 * queue + 2 ^ 32 * v))

/-! ### Acceptance (R316, R319, R320) -/

/-- A wait code that means: once more in the next cycle (3, and 4 when what could not be read stays so). -/
def nextCycle (w : Nat) : Nat := if w = 2 then 4 else 3
/-- Wait codes as a cycle begins. -/
def freshWait (w : Nat) : Nat := if w = 3 then 0 else if w = 4 then 2 else w
/-- A wait code that lets its unit go on now. -/
def goesOn (w : Nat) : Bool := w == 0 || w == 2

/-- A queue with something to accept. -/
def LQueue.ready (q : LQueue) : Bool :=
  goesOn q.wait && (!q.cur.isEmpty || ((!q.spawned.isEmpty || q.a != q.d) && (!q.spawned.isEmpty || decide (q.count < 256))))

/-- Take the next record of a queue: a spawned one, or the ring's next, whose count goes to the shadow (R320, R360). -/
def State.takeRecord (s : State) (q : LQueue) : State :=
  if !q.cur.isEmpty then s
  else match q.spawned with
    | bs :: r => { s with lch := s.lch.modQueue q.func q.queue fun q => { q with cur := bs, spawned := r } }
    | [] =>
      let bs := s.hostRead (q.ring + 128 * (q.a % 256)) 128
      let a := (q.a + 1) % 2 ^ 32
      ({ s with lch := s.lch.modQueue q.func q.queue fun q => { q with cur := bs, a := a } } : State).hostWrite q.shadow (natLe 8 a)

/-- What a check of a record gives: still waiting, refused with a status, or accepted. -/
inductive Verdict where
  | wait (s : State) (code : Nat)
  | refused (s : State) (status : Nat) (im : Image) (e : LaunchExt)
  | accepted (s : State) (im : Image) (e : LaunchExt)

/-- An image of nothing, for a record that is refused before its image is read. -/
def noImage : Image := parseImage 0 []

/-- A read of acceptance: go on with its bytes, wait, or complete with a status. -/
def State.acceptRead (s : State) (q : LQueue) (world va n status : Nat) (im : Image) (e : LaunchExt)
    (k : State → List Byte → Verdict) : Verdict :=
  let id := acceptWaiter q.func q.queue
  match s.readBytes 0 world id va n with
  | .got s bs => k s bs
  | .again s => .wait s 0
  | .fail _ => .refused s status im e
  | .fault kd lv =>
    if q.wait = 2 then .refused s status im e
    else
      let r : FaultReq := { id := id, va := BitVec.ofNat 64 va, world := world, kind := kd, acc := 7, level := lv }
      .wait { s with cch := { s.cch with faultq := s.cch.faultq ++ [r] } } 1

/-- The last checks (R316). -/
def State.checkShape (s : State) (r : LaunchRec) (im : Image) (e : LaunchExt) : Verdict :=
  if r.badWith im e then .refused s 2 im e
  else if e.fblist.any (fun i => !(s.sec.buffers.any fun b => b.idx == i && b.world == r.world)) then .refused s 3 im e
  else if !(s.couldFit im) then .refused s 4 im e
  else .accepted s im e

/-- The extension and its lists. -/
def State.checkExt (s : State) (q : LQueue) (r : LaunchRec) (im : Image) : Verdict :=
  if r.ext = 0 then s.checkShape r im noExt
  else s.acceptRead q r.world r.ext 256 2 im noExt fun s bs =>
    if 64 < leAt bs 88 2 || 1024 < leAt bs 90 2 || leAt bs 80 8 % 32 != 0 || leAt bs 96 8 % 4 != 0 then .refused s 2 im noExt
    else s.acceptRead q r.world (leAt bs 80 8) (32 * leAt bs 88 2) 2 im noExt fun s md =>
      s.acceptRead q r.world (leAt bs 96 8) (4 * leAt bs 90 2) 2 im noExt fun s fb => s.checkShape r im (parseExt bs md fb)

/-- The checks of a record in order (log entry 35). -/
def State.checkRecord (s : State) (q : LQueue) (r : LaunchRec) : Verdict :=
  if r.bad then .refused s 2 noImage noExt
  else if s.worldFunc r.world ≠ some q.func then .refused s 3 noImage noExt
  else s.acceptRead q r.world r.image 128 1 noImage noExt fun s bs =>
    let im := parseImage r.image bs
    if !(headerOk bs) || decide (im.streamLen ≤ im.entry) then .refused s 1 im noExt
    else s.acceptRead q r.world (im.base + im.landOff + im.entry / 8) 1 1 im noExt fun s b =>
      if bitNat (leNat b) (im.entry % 8) then s.checkExt q r im else .refused s 1 im noExt

/-- The launch of an accepted or refused record, under the function's next number (R319). -/
def State.addLaunch (s : State) (q : LQueue) (r : LaunchRec) (im : Image) (e : LaunchExt) (status : Option Nat) : State :=
  let f := s.func q.func
  let num := if f.nextLaunch = 0 then 1 else f.nextLaunch
  let team := fun (i : Nat) => ({ index := i, state := .waiting, saved := [], leaving := 0, noPreempt := 0, admin := none,
                                  saveWait := 0, since := 0, yields := none } : Team)
  let id := s.lch.nextId
  let l : Launch :=
    { id := id, func := q.func, num := num, record := r, ext := e, image := im,
      teams := if status.isSome then [] else (List.range r.teams).map team, eligible := none, aged := false,
      loads := e.mdlist, status := status.map fun x => (x, 0, 0, 0, 0), failTags := 0, dropSamples := 0, dropRaces := 0,
      samples := 0, races := 0, lastDie := none,
      fresh := if status.isSome then [] else e.fblist, stage := 0, wait := 0 }
  let lch := { s.lch with launches := s.lch.launches ++ [l], nextId := id + 1 }
  let s : State := { s with lch := lch.modQueue q.func q.queue fun q => { q with cur := [], wait := 0, held := q.held ++ [id] } }
  s.modFunc q.func fun g => { g with nextLaunch := (num + 1) % 2 ^ 32 }

/-- R316 launchAccept: the next record of a queue is read, checked, and accepted or completed with a status. -/
def execLaunchAccept (s : State) : Host.Outcome State Fault Refusal :=
  .next (match s.lch.queues.find? LQueue.ready with
    | none => s
    | some q =>
      let s := s.takeRecord q
      match s.lch.queue? q.func q.queue with
      | none => s
      | some q =>
        let r := parseLaunch q.cur
        match s.checkRecord q r with
        | .wait s code => { s with lch := s.lch.modQueue q.func q.queue fun q =>
            { q with wait := if code = 1 then 1 else nextCycle q.wait } }
        | .refused s st im e => s.dropLines.addLaunch q r im e (some st)
        | .accepted s im e => s.dropLines.addLaunch q r im e none)

/-! ### Dependences (R320) -/

/-- What a read of a dependence counter gives. -/
inductive DepRead where
  | value (s : State) (n : Nat)
  /-- It must be read again: a line of another device is on its way, or one is fetched once more. -/
  | again (s : State)
  /-- It cannot be read. -/
  | fails

/-- A launch's dependence counter, read at system scope with acquire: at its home (R320). -/
def State.depRead (s : State) (l : Launch) : DepRead :=
  if l.record.dep = 0 then .value s l.record.depval
  else match s.translate 0 l.record.world l.record.dep .read with
    | .fault _ _ => .fails
    | .ok s loc _ => match s.lineState loc s.core.seq l.record.world with
      | .abort _ => .fails
      | .waits => .again s
      | .good =>
        if loc.tgt = 2 then match s.farLine (depWaiter l.id) l.record.world loc 8 with
          | .got s bs => .value s.dropLines (leNat bs)
          | .again s => .again s
          | _ => .fails
        else .value s (leNat (s.homeRead loc 8))

/-- Every earlier record of the launch's queue is eligible. -/
def Launching.earlierEligible (l : Launching) (x : Launch) : Bool :=
  match l.queues.find? fun q => q.held.contains x.id with
  | none => true
  | some q => (q.held.takeWhile (· != x.id)).all fun i => match l.launch? i with
    | some y => y.eligible.isSome || y.status.isSome
    | none => true

/-- A record's counter lies on another device. -/
def State.far (s : State) (r : LaunchRec) : Bool :=
  r.dep != 0 && match s.place 0 r.world r.dep .read with | some l => l.tgt == 2 | none => false

/-- A counter of another device is asked for again after so many cycles (log entry 66). -/
def depPoll : Nat := 1024

/-- A launch whose dependence is to be looked at: its counter shows that it is eligible, cannot be read, or has to be asked of
another device. -/
def State.dependDue (s : State) : Option (Launch × DepRead) :=
  s.lch.launches.findSome? fun l =>
    if l.eligible.isSome || l.status.isSome || !(s.lch.earlierEligible l) || decide (s.cycle < l.poll) then none
    else match s.depRead l with
      | .value t v => if l.record.depval ≤ v || t.far l.record then some (l, .value t v) else none
      | r => some (l, r)

/-- R320 dependenceWake. -/
def execDependenceWake (s : State) : Host.Outcome State Fault Refusal :=
  .next (match s.dependDue with
    | none => s
    | some (l, .fails) => s.endLaunch l.id (9, 0, 0, 0, 0) fun _ => none
    | some (l, .again t) => { t with lch := t.lch.modLaunch l.id fun l => { l with poll := s.cycle + 1 } }
    | some (l, .value t v) => { t with lch := t.lch.modLaunch l.id fun l =>
        if l.record.depval ≤ v then { l with eligible := some s.cycle } else { l with poll := s.cycle + depPoll } })

/-- A launch eligible for 1,048,576 cycles with a team unplaced (R321). -/
def State.ageDue (s : State) : Option Launch :=
  s.lch.launches.find? fun l => !l.aged && l.status.isNone && l.teams.any (fun t => t.state == .waiting) &&
    match l.eligible with | some t => decide (t + 1048576 ≤ s.cycle) | none => false

/-- R321 ageingExpiry. -/
def execAgeingExpiry (s : State) : Host.Outcome State Fault Refusal :=
  .next (match s.ageDue with
    | none => s
    | some l => { s with lch := s.lch.modLaunch l.id fun l => { l with aged := true } })

/-! ### Meadow loads (R325, R332) -/

/-- Dies of a load. -/
def loadDies (dies : Nat) : List Nat := (List.range 4).filter (bitNat dies)
/-- Units a range touches. -/
def unitsOf (off n : Nat) : List Nat := if n = 0 then [] else (List.range ((off + n - 1) / 2 ^ 24 - off / 2 ^ 24 + 1)).map (off / 2 ^ 24 + ·)

/-- A launch accepted earlier that is not complete, whose world owns a unit the load writes, has had teams on one of its dies. -/
def State.loadBlocked (s : State) (l : Launch) (dst dies len : Nat) : Bool :=
  (loadDies dies).any fun d => s.lch.launches.any fun x => decide (x.id < l.id) &&
    ((unitsOf dst len).any fun u => s.hst.ownsUnit d u x.record.world) && x.dies.contains d

/-- A load that can run. -/
def State.loadDue (s : State) : Option (Launch × (Nat × Nat × Nat × Nat)) :=
  s.lch.launches.findSome? fun l =>
    if l.eligible.isNone || l.status.isSome || !(goesOn l.wait) then none
    else match l.loads with
      | (src, dst, dies, len) :: _ => if s.loadBlocked l dst dies len then none else some (l, (src, dst, dies, len))
      | [] => none

/-- R325 meadowLoad: one entry of the list is carried out, or the launch ends MEADOW_FAIL. -/
def execMeadowLoad (s : State) : Host.Outcome State Fault Refusal :=
  .next (match s.loadDue with
    | none => s
    | some (l, (src, dst, dies, len)) =>
      let fail := s.endLaunch l.id (5, 0, 0, 0, 0) fun _ => none
      let owned := (loadDies dies).all fun d => (unitsOf dst len).all fun u => s.hst.ownsUnit d u l.record.world
      if !owned then fail
      else match (s.acquire 0 6).readBytes 0 l.record.world (doneWaiter l.id) src len with
        | .fault _ _ => fail
        | .fail _ => fail
        | .again s => { s with lch := s.lch.modLaunch l.id fun l => { l with wait := nextCycle l.wait } }
        | .got s bs =>
          let s := (loadDies dies).foldl (fun s d => s.homeWrite { tgt := 3, dev := 0, pa := d * 2 ^ 31 + dst } bs 0) s.dropLines
          { s with lch := s.lch.modLaunch l.id fun l => { l with loads := l.loads.drop 1 } })

/-! ### Placement (R321, R324) -/

/-- A launch with a team to be placed. -/
def Launch.placeable (l : Launch) : Bool :=
  l.status.isNone && l.eligible.isSome && l.loads.isEmpty && l.teams.any fun t => t.state == .waiting

/-- The order of placement: priority, then eligibility (R321). -/
def Launch.before (a b : Launch) : Bool :=
  [15 - a.record.prio, a.eligible.getD 0, a.id] < [15 - b.record.prio, b.eligible.getD 0, b.id]

/-- Insert a launch in that order. -/
def insertLaunch (l : Launch) : List Launch → List Launch
  | [] => [l]
  | x :: r => if l.before x then l :: x :: r else x :: insertLaunch l r

/-- A die is kept from a launch by an earlier one's meadow loads (R325). -/
def State.dieKept (s : State) (l : Launch) (d : Nat) : Bool :=
  s.lch.launches.any fun x => decide (x.id < l.id) && x.eligible.isSome && x.status.isNone &&
    x.loads.any fun e => (loadDies e.2.2.1).contains d

/-- The first launch in order that fits, unless an aged one before it does not. -/
def State.firstFit (s : State) : List Launch → Option (Launch × List Nat)
  | [] => none
  | l :: r => match s.bestPlace l.image l.record l.lastDie fun h => !(s.dieKept l (dieOf h)) with
    | some hs => some (l, hs)
    | none => if l.aged then none else s.firstFit r

/-- The team to be placed, with its hearths. -/
def State.placeDue (s : State) : Option (Launch × Nat × List Nat) :=
  let order := (s.lch.launches.filter Launch.placeable).foldl (fun r l => insertLaunch l r) []
  (s.firstFit order).bind fun r => (r.1.teams.find? fun t => t.state == .waiting).map fun t => (r.1, t.index, r.2)

/-- R321 teamPlacement. -/
def execTeamPlacement (s : State) : Host.Outcome State Fault Refusal :=
  .next (match s.placeDue with
    | none => s
    | some (l, t, hs) => s.placeTeam l t hs)

end Sys2Proof.Machine
end

