-- ==== Sys2Proof/Machine/Context.lean ====
section
/-! DEFINITION. Teams that leave their hearths and come back: monitors (R121, R284), swap-out and swap-in (R256 to R259), and
pre-emption and restore (R322, R326 to R329, R418). -/

namespace Sys2Proof.Machine

/-! ### Monitors (R121, R284) -/

/-- The first line whose monitor has rung. -/
def State.rung? (s : State) : Option HomeMonitor := s.cch.monitors.find? fun m => m.rung

/-- Take a split's monitor away from its home. -/
def Caches.disarm (c : Caches) (h slot split : Nat) : Caches :=
  { c with monitors := (c.monitors.map fun m => { m with locals := m.locals.filter (· != (h, slot, split)) }).filter fun m =>
      !(m.locals.isEmpty && m.remotes.isEmpty) }

/-- A monitored wait of a split ends. -/
def State.endMonitor (s : State) (h slot split : Nat) : State :=
  { s with
    cch := s.cch.disarm h slot split
    core := (s.core.modSplit h slot split fun e => { e with monitor := none }).wake h slot split s.cycle .longwait }

/-- A split whose timeout has passed. -/
def State.timeoutDue (s : State) : Option (Nat × Nat × Nat) :=
  s.core.groups.findSome? fun g => ((List.range 4).find? fun n => match (g.split n).monitor with
    | some (_, some t) => decide (t ≤ s.cycle)
    | _ => false).map fun n => (g.h, g.slot, n)

/-- The splits that wait on a monitor. -/
def State.watching (s : State) : List (Nat × Nat × Nat) :=
  s.core.groups.flatMap fun g => ((List.range 4).filter fun n =>
    (g.split n).monitor.isSome && (g.split n).state == .longwait).map fun n => (g.h, g.slot, n)

/-- A spurious wake, which the spec allows at any time: a free choice among the waiting splits (R284). -/
def State.wakeOne (s : State) : State :=
  let l := s.watching
  match l[Config.freeNat s.cch.free % l.length]? with
  | none => s
  | some (h, slot, n) => ({ s with cch := { s.cch with free := s.cch.free + 1 } } : State).endMonitor h slot n

/-- R284 monitorWake: every waiter of a written line wakes, and the entry is free; with no line written, it is a spurious wake. -/
def execMonitorWake (s : State) : Host.Outcome State Fault Refusal :=
  .next (match s.rung? with
    | none => s.wakeOne
    | some m =>
      ({ s with cch := { s.cch with monitors := s.cch.monitors.filter fun x => x.loc != m.loc } } : State).wakeMonitors [m])

/-- R284 monitorTimeout. -/
def execMonitorTimeout (s : State) : Host.Outcome State Fault Refusal :=
  .next (match s.timeoutDue with | none => s | some (h, slot, n) => s.endMonitor h slot n)

/-! ### A team's parts -/

/-- The groups of a team. -/
def Core.teamGroups (c : Core) (launch team : Nat) : List Group :=
  c.groups.filter fun g => (c.teamParts launch team).any fun p => p.id == g.part
/-- A slot belongs to one of the parts. -/
def Core.inParts (c : Core) (ps : List Part) (h slot : Nat) : Bool :=
  match c.group? h slot with | some g => ps.any fun p => p.id == g.part | none => false

/-- An access that only waits for something it cannot bring about: a page, an object, a queue, a flue (R257). -/
def Access.standing (a : Access) : Bool :=
  a.due.isNone && a.remote == 0 &&
  (a.faulted != 0 || a.kind == .acq || a.kind == .spawn || a.kind == .flueWait || a.kind == .rel || a.kind == .fence) && a.kind != .ldGs

/-- Nothing of the parts is in flight; at a pre-emption ops that have not started may stay, and are saved (R203, R208, R257, R326;
log entry 68). -/
def Core.drained (c : Core) (ps : List Part) (all : Bool) : Bool :=
  let own := fun (h slot : Nat) => c.inParts ps h slot
  !(c.land.any fun l => own l.h l.slot) && !(c.engs.any fun e => own e.h e.slot && (all || e.started)) &&
  !(c.groups.any fun g => own g.h g.slot && g.answers.any fun a => a.orphan && a.remote != 0) &&
  !(c.mats.any fun m => own m.h m.slot && (all || !m.fresh)) && !(c.accs.any fun a => own a.h a.slot && !a.standing)

/-- Split states of a team. -/
def Core.teamSplits (c : Core) (launch team : Nat) : List SplitE := (c.teamGroups launch team).flatMap fun g => g.splits

/-! ### Writing the image (R327, R418) -/

/-- The descriptor of a partition (R71). -/
def partitionDesc (q : Partition) : Nat := (if 4 ≤ q.size then 2 ^ 15 else 0) + q.size * 2 ^ 11 + q.base

/-- The header of a swap image (R327). -/
def State.swapHeader (s : State) (p : Part) (state len : Nat) : List Byte :=
  let desc := match s.core.partition? p with | some q => partitionDesc q | none => 0
  natLe 4 0x53574150 ++ natLe 2 state ++ natLe 2 (s.die p.h).fver.toNat ++ natLe 4 (s.launchNum p) ++
  natLe 4 (p.team + (if p.image.stove then p.p * 2 ^ 24 else 0)) ++ natLe 4 desc ++ natLe 4 0 ++ natLe 8 s.cycle ++ natLe 8 len ++
  List.replicate 24 0

/-- What a write of the device's engines meets. -/
inductive Put where
  | done (s : State)
  | fault (s : State) (kind level va : Nat)
  /-- A line is being fetched once more. -/
  | again (s : State)
  /-- A meadow leaf. -/
  | meadow (s : State) (va : Nat)
  /-- Uncorrectable data, or a second MAC failure. -/
  | bad (s : State) (va : Nat)
  deriving Repr

/-- What the write has done so far. -/
def Put.state : Put → State
  | .done s => s
  | .fault s _ _ _ => s
  | .again s => s
  | .meadow s _ => s
  | .bad s _ => s

/-- The first line among those of a range that does not answer. -/
def State.rangeState (s : State) (l : Loc) (n seq world : Nat) : LineState :=
  (((l.linesOf n).map fun x => s.lineState x seq world).find? fun x => x != .good).getD .good

/-- Write bytes to virtual memory, page by page, at the homes. -/
def State.writeVirt (s : State) (stove world : Nat) : Nat → Nat → List Byte → Put
  | 0, _, _ => .done s
  | fuel + 1, va, bs =>
    if bs.isEmpty then .done s
    else
      let k := Nat.min bs.length (4096 - va % 4096)
      match s.translate stove world va .write with
      | .fault kd lv => .fault s kd lv va
      | .ok s l _ =>
        if l.tgt = 3 then .meadow s va
        else match s.rangeState l k s.core.seq world with
        | .abort _ => .bad s va
        | .waits => .again s
        | .good =>
          let s := if l.tgt = 2 then (List.range (ceilDiv k 128 + 1)).foldl (fun s i =>
              let from' := if i = 0 then 0 else 128 * i - l.pa % 128
              let n := Nat.min (k - from') (128 - (l.pa + from') % 128)
              if k ≤ from' then s else s.remoteWrite world { l with pa := l.pa + from' } (fun _ => true) ((bs.drop from').take n)) s
            else s.homeWrite l (bs.take k) world
          s.writeVirt stove world fuel (va + k) (bs.drop k)

/-- Write bytes. -/
def State.putBytes (s : State) (stove world va : Nat) (bs : List Byte) : Put := s.writeVirt stove world (bs.length / 4096 + 2) va bs

/-- The length of an image: open, within its slot (log entry 36). -/
def imageLength (p : Part) (free : Nat) : Nat := 64 + Config.freeNat free % (p.image.swapSize - 63)

/-- Write a part's image of `len` bytes, the header with STATE 0 first; `n` numbers its open bytes. -/
def State.writeImage (s : State) (p : Part) (len n : Nat) : Put :=
  let body := (List.range (len - 64)).map fun i => Config.freeByte (n + 1 + i)
  match s.putBytes (stoveOf p.h) p.world p.swap (s.swapHeader p 0 len) with
  | .done s => s.putBytes (stoveOf p.h) p.world (p.swap + 64) body
  | r => r

/-- Carry out writes for parts one after another; the first that cannot go on, with its part. -/
def State.eachPart (s : State) (f : State → Part → Nat → Put) (n : Nat) : List Part → State × Option (Part × Put)
  | [] => (s, none)
  | p :: ps => match f s p n with
    | .done s => s.eachPart f (n + p.image.swapSize) ps
    | r => (r.state, some (p, r))

/-- Write the images of a team's parts, each with STATE 0 until the last byte of all is written (R418). -/
def State.writeImages (s : State) (state : Nat) (ps : List Part) : State × Option (Part × Put) :=
  let n := s.core.free
  match s.eachPart (fun s p n => s.writeImage p (imageLength p n) n) n ps with
  | (s, some r) => (s, some r)
  | (s, none) =>
    match s.eachPart (fun s p n => s.putBytes (stoveOf p.h) p.world p.swap (s.swapHeader p state (imageLength p n))) n ps with
    | (s, none) => ({ s with core := { s.core with free := n + (ps.map fun p => p.image.swapSize).sum } }, none)
    | r => r

/-! ### Leaving (R257, R326) -/

/-- The line holds private words of a part. -/
def L1Line.privOf (e : L1Line) (p : Part) : Bool :=
  e.h == p.h && e.priv && e.world == p.world && (List.range p.image.groups).any fun n =>
    decide (p.privBase + p.privStride * n ≤ 128 * e.vline) && decide (128 * e.vline < p.privBase + p.privStride * n + 512 * p.image.priv)

/-- A part leaves its hearth: when the team is saved its private lines are written back, else they are discarded; and its pool
goes back to the ring as surplus, when the team is saved or no other stands on the hearth (R253, R267). -/
def State.vacate (s : State) (p : Part) (saved : Bool) : State :=
  let mine := s.cch.l1.filter fun e => e.privOf p
  let s := if saved then mine.foldl (fun s e => s.dropL1Line e) s
    else { s with cch := { s.cch with l1 := s.cch.l1.filter fun e => !(e.privOf p) } }
  let c := { s.core with parts := s.core.parts.filter fun q => q.id != p.id }
  let kept := c.parts.any fun q => q.h == p.h && q.pid == p.pid
  let empty := saved || !(c.parts.any fun q => q.h == p.h)
  let pool := if empty then ((s.core.hearth? p.h).map fun hr => hr.pool).getD 0 else 0
  { s with
    pow := { s.pow with dies := s.pow.dies.modify (dieOf p.h) fun d => { d with surplus := d.surplus + pool } }
    core := c.modHearth p.h fun hr => { hr with
      pool := hr.pool - pool
      claim := hr.claim.filter fun x => (c.group? p.h x.1).isSome
      partitions := if kept then hr.partitions else hr.partitions.filter fun q => q.pid != p.pid } }

/-- A split as its team leaves: SWAPPED, with the state it held in WAITARG (R238). -/
def SplitE.sleep (e : SplitE) : SplitE :=
  if e.state = .free then e
  else { e with before := e.state, beforeArg := e.waitarg, state := .swapped, waitarg := BitVec.ofNat 32 e.state.code }

/-- A part with its groups and what is not started, as saved. -/
def Core.savePart (c : Core) (p : Part) (cycle : Nat) : SavedPart :=
  let own := fun (h slot : Nat) => c.ofPart p h slot
  { part := p
    groups := (c.groups.filter fun g => g.part == p.id).map fun g => { g with splits := g.splits.map SplitE.sleep }
    accs := c.accs.filter fun a => own a.h a.slot
    engs := c.engs.filter fun e => own e.h e.slot
    mats := c.mats.filter fun m => own m.h m.slot
    cycle := cycle }

/-- Take a part's groups and ops away. -/
def Core.removePart (c : Core) (p : Part) : Core :=
  let own := fun (h slot : Nat) => c.ofPart p h slot
  { c with accs := c.accs.filter fun a => !(own a.h a.slot)
           engs := c.engs.filter fun e => !(own e.h e.slot)
           mats := c.mats.filter fun m => !(own m.h m.slot)
           land := c.land.filter fun l => !(own l.h l.slot)
           groups := c.groups.filter fun g => g.part != p.id }

/-- What the device watches for a swapped part: monitored lines with their timeouts, and the lines of awaited objects
(R258). -/
def State.watches (s : State) (p : Part) : List SwapMon :=
  let die := dieOf p.h
  let mon := fun (l : Loc) (n : Nat) (t : Option Nat) =>
    ({ die := die, launch := p.launch, team := p.team, loc := l.line, since := n, timeout := t } : SwapMon)
  let splits := (s.core.groups.filter fun g => g.part == p.id).flatMap fun g => g.splits.filterMap fun e =>
    e.monitor.map fun m => mon (Loc.ofLine m.1) s.cch.writes m.2
  let objects := (s.core.accs.filter fun a => s.core.ofPart p a.h a.slot && a.kind == .acq).filterMap fun a =>
    (s.place (stoveOf p.h) p.world (a.addrs.headD 0).toNat .write).map fun l => mon l s.cch.writes none
  splits ++ objects

/-- Save a drained team, and free what it held. -/
def State.saveTeam (s : State) (l : Launch) (t : Team) (to' : TeamState) : State :=
  let ps := s.core.teamParts l.id t.index
  let saved := ps.map fun p => s.core.savePart p s.cycle
  let mons := if to' = .preempted then [] else ps.flatMap s.watches
  let gs := s.core.teamGroups l.id t.index
  let cch := gs.foldl (fun c g => (List.range 4).foldl (fun c n => c.disarm g.h g.slot n) c) s.cch
  let s := ps.foldl (fun (s : State) p => s.vacate p true) { s with core := ps.foldl Core.removePart s.core, cch := cch }
  let lch := s.lch.modTeam l.id t.index fun t => { t with state := to', saved := saved, leaving := 0, saveWait := 0, admin := none }
  { s with lch := { lch with swapMons := lch.swapMons ++ mons } }

/-- No team owes the command its completion any more. -/
def Launching.forget (l : Launching) (f cid : Nat) : Launching :=
  let clear : Team → Team := fun t => if t.admin = some (f, cid) then { t with admin := none } else t
  { l with launches := l.launches.map fun x => { x with teams := x.teams.map clear } }
/-- Some team still owes the command. -/
def Launching.owes (l : Launching) (f cid : Nat) : Bool := l.launches.any fun x => x.teams.any fun t => t.admin == some (f, cid)

/-- A save cannot complete: the team stays (R418). -/
def State.abandonSave (s : State) (l : Launch) (t : Team) (p : Part) (va : Nat) : State :=
  let preempt := t.leaving == 2
  let lch := s.lch.modTeam l.id t.index fun t =>
    { t with leaving := 0, saveWait := 0, admin := none, noPreempt := if preempt then s.cycle + 1048576 else t.noPreempt, yields := none }
  let c := { s.core with parts := s.core.parts.map fun q => if q.launch == l.id && q.team == t.index then { q with waitClock := 0 } else q }
  let s := ({ s with lch := lch, core := c } : State).file
    { hubRecord 3 0x0B 2 with
      die := dieOf p.h, stove := stoveOf p.h % 8, launch := l.num, world := p.world, func := p.func, vaddr := va }
  match t.admin with
  | some (f, cid) => if preempt then ({ s with lch := s.lch.forget f cid } : State).postCompletion f cid 7 0 else s
  | none => s

/-- A drained team's image is written, or its fault is served, or the save is abandoned. -/
def State.save (s : State) (l : Launch) (t : Team) (code : Nat) (to' : TeamState) : State :=
  match s.writeImages code (s.core.teamParts l.id t.index) with
  | (s, none) =>
    let h := ((s.core.teamParts l.id t.index).head?.map fun p => p.h).getD 0
    let s := (s.saveTeam l t to').countWorld l.record.world (dieOf h) (if code = 1 then 0x11 else 0x12) 1
    match t.admin with
    | some (f, cid) => if s.lch.owes f cid then s else s.postCompletion f cid 0 0
    | none => s
  | (s, some (p, .fault _ kd lv va)) =>
    if t.saveWait = 2 then s.abandonSave l t p va
    else
      let r : FaultReq := { id := saveWaiter l.id t.index, va := BitVec.ofNat 64 va, world := p.world, kind := kd, acc := 8, level := lv }
      { s with cch := { s.cch with faultq := s.cch.faultq ++ [r] }
               lch := s.lch.modTeam l.id t.index fun t => { t with saveWait := 1 } }
  | (s, some (_, .again _)) => { s with lch := s.lch.modTeam l.id t.index fun t => { t with saveWait := nextCycle t.saveWait } }
  | (s, some (p, .meadow _ va)) => s.abandonSave l t p va
  | (s, some (p, .bad _ va)) => s.abandonSave l t p va
  | (s, some (p, .done _)) => s.abandonSave l t p 0

/-! ### Swap-out (R256, R257) -/

/-- A collective of the team is queued: it may wait for other devices without end. -/
def Core.collecting (c : Core) (ps : List Part) : Bool :=
  c.engs.any fun e => c.inParts ps e.h e.slot && (e.kind == .collBc || e.kind == .collRed || e.kind == .collAg || e.kind == .collA2a)

/-- Entries of a die's swap-monitor table. -/
def swapTable : Nat := 1024

/-- A resident team whose clock has passed its threshold and whose monitors find room. -/
def State.swapTrigger (s : State) : Option (Launch × Team) :=
  s.lch.launches.findSome? fun l => (l.teams.find? fun t =>
    t.state == .resident && t.leaving == 0 &&
    let ps := s.core.teamParts l.id t.index
    !ps.isEmpty && ps.all (fun p => decide (p.threshold < p.waitClock) && p.halt == 0) &&
    !(s.core.collecting ps) &&
    let used := (s.lch.swapMons.filter fun m => m.die == dieOf ((ps.head?.map fun p => p.h).getD 0)).length
    decide (used + (ps.flatMap s.watches).length ≤ swapTable)).map fun t => (l, t)

/-- A team that leaves for a reason, with nothing of it in flight. -/
def State.leaverDue (s : State) (why : Nat) : Option (Launch × Team) :=
  s.lch.launches.findSome? fun l => (l.teams.find? fun t =>
    t.state == .resident && t.leaving == why && goesOn t.saveWait && s.core.drained (s.core.teamParts l.id t.index) (why == 1)).map
    fun t => (l, t)

/-- A team that was to be swapped out stays: one of its splits can go on while its queued ops are not complete (R257). -/
def State.staysDue (s : State) : Option (Launch × Team) :=
  s.lch.launches.findSome? fun l => (l.teams.find? fun t =>
    t.state == .resident && t.leaving == 1 && !(s.core.drained (s.core.teamParts l.id t.index) true) &&
    (s.core.teamSplits l.id t.index).any fun e => e.state == .ready || e.state == .held || e.state == .ember).map fun t => (l, t)

/-- R257 swapOut: the team stops, drains, and is written to its swap area. -/
def execSwapOut (s : State) : Host.Outcome State Fault Refusal :=
  .next (match s.leaverDue 1 with
    | some (l, t) => s.save l t 1 (.swapped false)
    | none => match s.staysDue with
      | some (l, t) => { s with lch := s.lch.modTeam l.id t.index fun t => { t with leaving := 0 } }
      | none => match s.swapTrigger with
        | some (l, t) => { s with lch := s.lch.modTeam l.id t.index fun t => { t with leaving := 1 } }
        | none => s)

/-! ### Pre-emption (R322, R326) -/

/-- A monitor of a team that is being pre-empted. -/
def State.preemptMonitor (s : State) : Option (Nat × Nat × Nat) :=
  s.lch.launches.findSome? fun l => l.teams.findSome? fun t =>
    if t.state == .resident && t.leaving == 2 then
      (s.core.teamGroups l.id t.index).findSome? fun g =>
        ((List.range 4).find? fun n => (g.split n).monitor.isSome).map fun n => (g.h, g.slot, n)
    else none

/-- R326 preemption: monitored waits end, the team drains, and its context is written. -/
def execPreemption (s : State) : Host.Outcome State Fault Refusal :=
  .next (match s.preemptMonitor with
    | some (h, slot, n) => s.endMonitor h slot n
    | none => match s.leaverDue 2 with
      | some (l, t) => s.save l t 2 .preempted
      | none => s)

/-- A launch whose next team finds no place. -/
def State.stuck (s : State) (l : Launch) : Bool := l.placeable && (s.bestPlace l.image l.record l.lastDie fun _ => true).isNone

/-- Cycle from which the launch's next team has waited. -/
def Launch.waitingSince (l : Launch) : Nat := Nat.max l.lastPlaced (l.eligible.getD 0)

/-- The device without some teams: their parts, groups and the partitions that no other team uses are gone. -/
def State.without (s : State) (ts : List (Launch × Team)) : State :=
  let gone := fun (p : Part) => ts.any fun v => v.1.id == p.launch && v.2.index == p.team
  let ps := s.core.parts.filter fun p => !(gone p)
  { s with core := { s.core with
      parts := ps
      groups := s.core.groups.filter fun g => ps.any fun p => p.id == g.part
      hearths := s.core.hearths.map fun hr =>
        { hr with partitions := hr.partitions.filter fun q => ps.any fun p => p.h == hr.h && p.pid == q.pid } } }

/-- A team holds resources that the launch needs: some place that the launch could take, were the teams that may go not there, has
a part of it (R322). -/
def State.holdsFor (s : State) (l : Launch) (ts : List (Launch × Team)) (v : Launch × Team) : Bool :=
  ((s.without ts).places l.image l.record).any fun hs =>
    (s.core.teamParts v.1.id v.2.index).any fun p => hs.contains p.h

/-- Some team is leaving for a launch. -/
def Launching.making (lch : Launching) (id : Nat) : Bool :=
  lch.launches.any fun l => l.teams.any fun t => t.leaving == 2 && t.yields == some id

/-- Resident teams that may be pre-empted under R322. -/
def State.victims (s : State) (ok : Launch → Team → Bool) : List (Launch × Team) :=
  s.lch.launches.flatMap fun l => (l.teams.filter fun t =>
    t.state == .resident && t.leaving == 0 && decide (t.noPreempt ≤ s.cycle) && ok l t).map fun t => (l, t)

/-- A launch that has waited 262,144 cycles, with the team to go: lowest priority, then most recently placed (R322). -/
def State.priorityDue (s : State) : Option (Launch × Launch × Team) :=
  s.lch.launches.findSome? fun l =>
    if l.placeable && decide (l.waitingSince + 262144 ≤ s.cycle) && !(s.lch.making l.id) && s.stuck l then
      let ts := s.victims fun x _ => decide (x.record.prio + 4 ≤ l.record.prio)
      (leastBy (fun v => [v.1.record.prio, s.cycle - v.2.since]) (ts.filter (s.holdsFor l ts))).map fun v => (l, v.1, v.2)
    else none

/-- A team is to be pre-empted for a launch. -/
def State.makeRoom (s : State) (l x : Launch) (t : Team) : State :=
  let s := s.askLeave x.id t.index none
  { s with lch := s.lch.modTeam x.id t.index fun t => { t with yields := some l.id } }

/-- R322 priorityPreemptTrigger. -/
def execPriorityPreemptTrigger (s : State) : Host.Outcome State Fault Refusal :=
  .next (match s.priorityDue with | none => s | some (l, x, t) => s.makeRoom l x t)

/-- A launch that cannot fit, with the team of another function of equal priority that has run longest past its slice. -/
def State.sliceDue (s : State) : Option (Launch × Launch × Team) :=
  s.lch.launches.findSome? fun l =>
    if l.placeable && !(s.lch.making l.id) && s.stuck l then
      let ts := s.victims fun x t => x.func != l.func && x.record.prio == l.record.prio &&
        decide (t.since + (s.func x.func).slice < s.cycle)
      (leastBy (fun v => [v.2.since]) (ts.filter (s.holdsFor l ts))).map fun v => (l, v.1, v.2)
    else none

/-- R322 timeSliceExpiry. -/
def execTimeSliceExpiry (s : State) : Host.Outcome State Fault Refusal :=
  .next (match s.sliceDue with | none => s | some (l, x, t) => s.makeRoom l x t)

/-! ### Coming back (R258, R259, R328, R329) -/

/-- A watched condition of a swapped team holds. -/
def State.conditionHolds (s : State) (l : Launch) (t : Team) : Bool :=
  (s.lch.swapMons.any fun m => m.launch == l.id && m.team == t.index &&
    ((match m.timeout with | some c => decide (c ≤ s.cycle) | none => false) ||
      s.cch.wrote.any fun w => w.1 == m.loc && decide (m.since < w.2))) ||
  (t.saved.any fun v =>
    (v.accs.any fun a => a.kind == .spawn && match s.peek 0 v.part.world (a.addrs.headD 0).toNat 128 .read with
      | some bs => (match s.lch.queue? v.part.func (leAt bs 104 1 % 64) with | some q => decide (q.count < 256) | none => true)
      | none => true) ||
    v.part.handler.isSome || !v.part.events.isEmpty ||
    v.groups.any fun g => g.splits.any fun e => e.state == .swapped && (e.before == .ready || e.before == .held || e.before == .ember))

/-- A swapped team that becomes ready to return. -/
def State.returnDue (s : State) : Option (Launch × Team) :=
  s.lch.launches.findSome? fun l => (l.teams.find? fun t => t.state == .swapped false && s.conditionHolds l t).map fun t => (l, t)

/-- R258 teamReadyToReturn. -/
def execTeamReadyToReturn (s : State) : Host.Outcome State Fault Refusal :=
  .next (match s.returnDue with
    | none => s
    | some (l, t) => { s with lch := s.lch.modTeam l.id t.index fun t => { t with state := .swapped true } })

/-- A launch of higher priority has a team that fits now. -/
def State.outranked (s : State) (l : Launch) : Bool :=
  s.lch.launches.any fun x => x.placeable && decide (l.record.prio < x.record.prio) &&
    (s.bestPlace x.image x.record x.lastDie fun h => !(s.dieKept x (dieOf h))).isSome

/-- The team it made room for is still to be placed. -/
def Launching.yielding (lch : Launching) (t : Team) : Bool :=
  match t.yields with
  | none => false
  | some i => match lch.launch? i with | some l => l.placeable | none => false

/-- A team to be placed again, with its hearths. -/
def State.comeBack (s : State) (st : TeamState) : Option (Launch × Team × List Nat) :=
  s.lch.launches.findSome? fun l => l.teams.findSome? fun t =>
    if t.state == st && l.status.isNone && !(s.lch.yielding t) && !(s.outranked l) then
      (s.bestPlace l.image l.record l.lastDie fun _ => true).map fun hs => (l, t, hs)
    else none

/-- A split as it comes back after being away for some cycles: a monitored wait ends, another state goes on; AGE has counted
(R246, R259, R284). -/
def SplitE.wakeUp (e : SplitE) (cycle away : Nat) : SplitE :=
  if e.state != .swapped then e
  else
    let e : SplitE := { e with age := Nat.min 1023 (e.age + away) }
    if e.monitor.isSome && e.before == .longwait then
      { e with state := .ready, monitor := none, waitarg := 0, waitstart := cycle }
    else { e with state := e.before, waitarg := e.beforeArg, monitor := none }

/-- Put a saved part on a hearth: its groups take new slots, and everything that names them follows. -/
def State.putBack (s : State) (l : Launch) (v : SavedPart) (h : Nat) : State :=
  let r := s.givePartition h l.image l.record
  let s := r.1
  let old := v.part.h
  let s := if old = h then s else
    let sc := if stoveOf old = stoveOf h then 3 else 4
    (s.release old sc).acquire h sc
  let slots := s.core.freeSlots h v.groups.length
  let move := fun (n : Nat) => match v.groups.findIdx? fun g => g.slot == n with | some i => slots.getD i n | none => n
  let ev := fun (e : TrapEv) => { e with slot := move e.slot }
  let p : Part := { v.part with
    h := h, pid := r.2, placed := s.cycle, waitClock := 0, pages := s.core.takePages h v.part.image.scratch
    pats := if dieOf old = dieOf h then v.part.pats else s.patterns (stoveOf h) v.part.world v.part.image
    events := v.part.events.map ev, stop := v.part.stop.map ev, stopAt := v.part.stopAt.map ev
    handler := v.part.handler.map fun x => { x with slot := move x.slot, shown := x.shown.map ev } }
  let cycle := s.cycle
  let moveG := fun (g : Group) => { g with h := h, slot := move g.slot, splits := g.splits.map fun (e : SplitE) => e.wakeUp cycle (cycle - v.cycle) }
  let moveA := fun (a : Access) => { a with h := h, slot := move a.slot }
  let moveE := fun (e : EngOp) => { e with h := h, slot := move e.slot }
  let moveM := fun (m : MatOp) => { m with h := h, slot := move m.slot }
  let c : Core := { s.core with
    parts := s.core.parts ++ [p]
    groups := s.core.groups ++ v.groups.map moveG
    accs := s.core.accs ++ v.accs.map moveA
    engs := s.core.engs ++ v.engs.map moveE
    mats := s.core.mats ++ v.mats.map moveM }
  { s with core := c.modHearth h fun hr => hr.own p.world p.pages }

/-- Place a saved team again. -/
def State.restoreTeam (s : State) (l : Launch) (t : Team) (hs : List Nat) : State :=
  let s := (t.saved.zip hs).foldl (fun s e => s.putBack l e.1 e.2) s
  let lch := s.lch.modTeam l.id t.index fun t => { t with state := .resident, saved := [], since := s.cycle, yields := none }
  let lch := lch.modLaunch l.id fun l => l.onDies hs
  { s with lch := { lch with swapMons := lch.swapMons.filter fun m => !(m.launch == l.id && m.team == t.index) } }

/-- R259 swapIn. -/
def execSwapIn (s : State) : Host.Outcome State Fault Refusal :=
  .next (match s.comeBack (.swapped true) with | none => s | some (l, t, hs) => s.restoreTeam l t hs)

/-- R328 contextRestore. -/
def execContextRestore (s : State) : Host.Outcome State Fault Refusal :=
  .next (match s.comeBack .preempted with | none => s | some (l, t, hs) => s.restoreTeam l t hs)

end Sys2Proof.Machine
end

