-- ==== Sys2Proof/Machine/Finish.lean ====
section
/-! DEFINITION. Ends: groups and teams retire (R106, R236), halted teams drain and are dumped (R410 to R416), and launches
complete (R285, R317, R318, R335). -/

namespace Sys2Proof.Machine

/-! ### Retirement (R106, R236, R267) -/

/-- Nothing the group has issued is under way. -/
def Core.idle (c : Core) (g : Group) : Bool :=
  !(c.land.any fun l => l.h == g.h && l.slot == g.slot) && !(c.accs.any fun a => a.h == g.h && a.slot == g.slot) &&
  !(c.engs.any fun e => e.h == g.h && e.slot == g.slot) && !(c.mats.any fun m => m.h == g.h && m.slot == g.slot)

/-- A group with no lanes left, everything complete and nothing held, that no handler run stands on. -/
def State.retireDue (s : State) : Option (Group × Part) :=
  s.core.groups.findSome? fun g => match s.core.part? g.part with
    | none => none
    | some p =>
      if p.halt == 0 && g.lanesAlive == 0 && g.gated.isEmpty && s.core.idle g &&
        (match p.handler with | some r => r.slot != g.slot | none => true) && !(p.events.any fun e => e.slot == g.slot) then some (g, p)
      else none

/-- The contents of a retired group's private block are open from now on (R267). -/
def State.forgetPrivate (s : State) (p : Part) (g : Group) : State :=
  let base := privBaseOf p g
  let n := 512 * p.image.priv
  let pages := ceilDiv n 4096
  let s : State := { s with
    core := { s.core with free := s.core.free + n }
    cch := { s.cch with l1 := s.cch.l1.filter fun e =>
      !(e.h == g.h && e.priv && e.world == p.world && decide (base ≤ 128 * e.vline) && decide (128 * e.vline < base + n)) } }
  (List.range pages).foldl (fun s i =>
    let k := Nat.min 4096 (n - 4096 * i)
    match s.place (stoveOf g.h) p.world (base + 4096 * i) .read with
    | some l => if l.tgt = 2 || l.tgt = 3 then s
        else s.homeWrite l ((List.range k).map fun j => Config.freeByte (s.core.free + 4096 * i + j)) p.world
    | none => s) s

/-- A retired group lowers EXPECT of every barrier it counts in (R117). -/
def Core.lowerExpect (c : Core) (p : Part) : Core :=
  (List.range 16).foldl (fun c b => c.modPart (c.barHome p b) fun q =>
    { q with bars := q.bars.modify b fun x => { x with expect := x.expect - 1 } }) c

/-- A part goes, with all that is left of it. -/
def State.dropPart (s : State) (p : Part) : State :=
  ({ s with core := s.core.removePart p } : State).vacate p false

/-- A team is over; a launch with no other team left is DONE. -/
def State.teamOver (s : State) (id team : Nat) : State :=
  let lch := s.lch.modTeam id team fun t => { t with state := .done, leaving := 0 }
  { s with lch := lch.modLaunch id fun l =>
      if l.teams.all (fun t => t.state == .done) && l.status.isNone then { l with status := some (0, 0, 0, 0, 0) } else l }

/-- R106 groupRetirement: the group's slot is free; with its last group the team retires (R236). -/
def execGroupRetirement (s : State) : Host.Outcome State Fault Refusal :=
  .next (match s.retireDue with
    | none => s
    | some (g, p) =>
      let s := s.forgetPrivate p g
      let failed := (g.tags.filter fun t => t.failed.isSome).length
      let c := (s.core.lowerExpect p)
      let s : State := { s with
        core := { c with groups := c.groups.filter fun x => !(x.h == g.h && x.slot == g.slot) }
        lch := s.lch.modLaunch p.launch fun l => { l with failTags := l.failTags + failed } }
      if (s.core.teamGroups p.launch p.team).isEmpty then
        ((s.core.teamParts p.launch p.team).foldl (fun s q => s.dropPart q) s).teamOver p.launch p.team
      else s)

/-! ### A halted team drains (R411) -/

/-- A halted part whose ops are all over. -/
def State.drainDue (s : State) : Option Part :=
  s.core.parts.find? fun p => p.halt == 1 && (s.core.groups.filter fun g => g.part == p.id).all s.core.idle

/-- Discard a halted part; with its last part the team is over. -/
def State.discardPart (s : State) (p : Part) : State :=
  let failed := ((s.core.groups.filter fun g => g.part == p.id).map fun g => (g.tags.filter fun t => t.failed.isSome).length).sum
  let s := s.dropPart p
  let s : State := { s with lch := s.lch.modLaunch p.launch fun l => { l with failTags := l.failTags + failed } }
  if (s.core.teamParts p.launch p.team).isEmpty then s.teamOver p.launch p.team else s

/-- R411 haltDrainDone: held stores are released, and the dump may begin. -/
def execHaltDrainDone (s : State) : Host.Outcome State Fault Refusal :=
  .next (match s.drainDue with
    | none => s
    | some p =>
      let s := (s.core.groups.filter fun g => g.part == p.id).foldl (fun s g => s.releaseHeld g s.core.seq) s
      if p.dump = 0 then s.discardPart p else { s with core := s.core.modPart p.id fun p => { p with halt := 2 } })

/-! ### The dump (R412 to R416) -/

/-- The 64-byte image of a split entry (R237). -/
def splitImage (e : SplitE) : List Byte :=
  let w := (if e.seqRun.isSome then 1 else 0) + e.waitstart % 2 ^ 64 * 2 ^ 64 + e.waitarg.toNat * 2 ^ 128 +
    e.age % 1024 * 2 ^ 190 + e.state.code * 2 ^ 200 + Nat.min 8 e.ids.length * 2 ^ 204 + spillCount e.ids * 2 ^ 208 +
    e.spill.headD 0 % 256 * 2 ^ 216 + e.offset % 2 ^ 32 * 2 ^ 224 +
    ((e.ids.take 8).zipIdx.map fun x => x.1 * 2 ^ (256 + 16 * x.2)).sum + e.mask.toNat * 2 ^ 384
  natLe 64 w

/-- The 16 bytes of a barrier (R116). -/
def barImage (b : Barrier) : List Byte := natLe 2 b.arrived ++ natLe 2 0 ++ natLe 2 b.expect ++ natLe 2 0 ++ natLe 4 b.gen ++ natLe 4 0

/-- Bytes padded with zeros to a length. -/
def padTo (n : Nat) (bs : List Byte) : List Byte := (bs ++ List.replicate n 0).take n

/-- An identity-table entry (R415). -/
def identImage (g : Group) (i : Nat) : List Byte :=
  match g.idents.find? fun x => x.ident % 128 == i with
  | some x => natLe 4 x.join ++ natLe 16 x.owed.toNat ++ natLe 16 x.present.toNat
  | none => List.replicate 36 0

/-- Masks of the failed and incomplete tags. -/
def tagMasks (g : Group) : Nat :=
  let bits := fun (f : Tag → Bool) => (g.tags.zipIdx.map fun t => if f t.1 then 2 ^ t.2 else 0).sum
  bits (fun t => t.failed.isSome) * 2 ^ 16 + bits fun t => t.count != 0

/-- Round up to 4 KiB. -/
def page (n : Nat) : Nat := ceilDiv n 4096 * 4096

/-- A group section (R415). -/
def groupSection (p : Part) (g : Group) : List Byte :=
  let words := fun (l : List W64) => l.flatMap fun x => natLe 8 x.toNat
  let fates := (p.fates.filter fun f => f.1 == g.num).flatMap fun f => f.2.2
  let low := (g.splits.flatMap splitImage) ++ (g.splits.flatMap fun e => words e.bank) ++ words g.sh ++ words g.a ++
    ((List.range 16).flatMap fun i => natLe 16 (g.pred i).toNat) ++
    natLe 8 g.fflags.toNat ++ natLe 8 g.fctl.toNat ++ natLe 8 (if g.isat then 1 else 0) ++ natLe 8 g.vrot ++
    natLe 8 g.seqIter.toNat ++ natLe 8 g.issues.toNat ++ natLe 8 g.regionCtr ++ natLe 8 (tagMasks g)
  let head := padTo 0x600 low ++ padTo 2048 fates ++ (List.range 128).flatMap (identImage g)
  let vecs := g.v.flatMap fun v => v.flatMap fun x => natLe 4 x.toNat
  let tiles := g.acc.flatMap fun t => t.flatMap fun v => v.flatMap fun x => natLe 4 x.toNat
  padTo (page (8192 + 512 * p.image.vregs + 65536 * p.image.acc)) (padTo 0x2000 head ++ vecs ++ tiles)

/-- The dump header (R413). -/
def State.dumpHeader (s : State) (p : Part) (status valid fcode fva : Nat) (final : Nat) : List Byte :=
  let e : TrapEv := p.events.headD { slot := 0, split := 0, code := 0, origin := 0, pc := 0, mask := 0, info0 := 0, info1 := 0,
                                     info2 := 0, info3 := 0, cycle := 0 }
  padTo 256 (natLe 4 0x504D5544 ++ natLe 2 status ++ natLe 2 p.image.groups ++ natLe 4 (s.launchNum p) ++
    natLe 4 (p.team + (if p.image.stove then p.p * 2 ^ 24 else 0)) ++ natLe 1 e.code ++ natLe 1 e.origin ++ natLe 1 e.slot ++
    natLe 1 e.split ++ natLe 4 e.pc ++ natLe 16 e.mask.toNat ++
    ([e.info0, e.info1, e.info2, e.info3].flatMap fun x => natLe 8 x.toNat) ++ natLe 8 e.cycle ++ natLe 8 final ++ natLe 4 valid ++
    natLe 1 fcode ++ natLe 3 0 ++ natLe 8 fva ++ natLe 4 p.image.scratch ++ natLe 1 p.image.vregs ++ natLe 1 p.image.acc)

/-- The bytes of a part's dump in ascending address (R412). -/
def State.dumpBytes (s : State) (p : Part) : List Byte :=
  let secs := (List.range p.image.groups).map fun i =>
    match s.core.groups.find? fun g => g.part == p.id && g.num == i with
    | some g => groupSection p g
    | none => List.replicate (page (8192 + 512 * p.image.vregs + 65536 * p.image.acc)) 0
  s.dumpHeader p 0 0 0 0 0 ++ padTo 3840 (p.bars.flatMap barImage) ++
  padTo (page p.image.scratch) (cellsRead p.scratch 0 p.image.scratch) ++ secs.flatten

/-- A part whose dump goes on. -/
def State.dumpDue (s : State) : Option Part :=
  s.core.parts.find? fun p => p.dump != 0 && (p.halt == 2 || decide (4 ≤ p.halt))

/-- A dump write's fault is filed (R414). -/
def State.dumpRecord (s : State) (p : Part) (va : Nat) : State :=
  let l := s.place (stoveOf p.h) p.world va .read
  s.file { hubRecord 3 0x0B 2 with
    die := dieOf p.h, stove := stoveOf p.h % 8, launch := s.launchNum p, world := p.world, func := p.func,
    addr := (l.map fun l => l.pa).getD 0, vaddr := va }

/-- The dump stops: its header says how far it came, unless not even the header could be written (R414). -/
def State.truncateDump (s : State) (p : Part) (pos status fcode va : Nat) : State :=
  let s := if pos = 0 then s else match s.putBytes (stoveOf p.h) p.world p.swap (s.dumpHeader p status pos fcode va s.cycle) with
    | .done s => s
    | _ => s
  s.discardPart p

/-- The page at an address belongs to a device that cannot be reached. -/
def State.unreachable (s : State) (p : Part) (va : Nat) : Bool :=
  match s.place (stoveOf p.h) p.world va .write with
  | some l => l.tgt == 2 && (s.fab.portFor l.dev l.pa).isNone
  | none => false

/-- Write the next page of a dump, or its final header (R412, R414). -/
def State.dumpStep (s : State) (p : Part) : State :=
  let pos := p.dump - 1
  let all := s.dumpBytes p
  let va := p.swap + pos
  if 4 ≤ p.halt then s.truncateDump p pos 2 (p.halt - 4) va
  else if all.length ≤ pos then
    match s.putBytes (stoveOf p.h) p.world p.swap (s.dumpHeader p 1 p.image.swapSize 0 0 s.cycle) with
    | .done s => s.discardPart p
    | _ => s.discardPart p
  else if s.unreachable p va then (s.dumpRecord p va).truncateDump p pos 3 0 va
  else
    let n := if pos = 0 then 256 else 4096 - va % 4096
    match s.putBytes (stoveOf p.h) p.world va ((all.drop pos).take n) with
    | .done s => { s with core := s.core.modPart p.id fun p => { p with dump := p.dump + n } }
    | .meadow s va => (s.dumpRecord p va).truncateDump p pos 4 0 va
    | .bad s va => (s.dumpRecord p va).truncateDump p pos 3 0 va
    | .again s => s
    | .fault s kd lv va =>
      let r : FaultReq := { id := dumpWaiter p.id, va := BitVec.ofNat 64 va, world := p.world, kind := kd, acc := 8, level := lv }
      ({ s with cch := { s.cch with faultq := s.cch.faultq ++ [r] }
                core := s.core.modPart p.id fun p => { p with halt := 3 } } : State).dumpRecord p va

/-- R412 dumpWrite. -/
def execDumpWrite (s : State) : Host.Outcome State Fault Refusal :=
  .next (match s.dumpDue with | none => s | some p => s.dumpStep p)

/-! ### Completion (R285, R317, R335) -/

/-- A launch whose teams are all over. -/
def Launch.ended (l : Launch) : Bool := l.status.isSome && l.teams.all fun t => t.state == .done

/-- A launch at a stage of its completion. -/
def State.completing (s : State) (ok : Launch → Bool) : Option Launch :=
  s.lch.launches.find? fun l => l.ended && goesOn l.wait && ok l

/-- Close the epoch of a word of another device (R180, R285). -/
def State.closeFar (s : State) (world : Nat) (l : Loc) : State :=
  match s.sendRemote 3 l.dev world (atomOp .atomOclose 0) l.pa (LaneMask.build fun i => decide (i < 4)) [] (natLe 16 0) 0 0 true with
  | some s => s
  | none => s.file (remoteAbortRecord l.pa world)

/-- Every write is released at system scope, and the launch's ordered epochs close (R180, R285). -/
def State.endKernel (s : State) (l : Launch) : State :=
  let dirty := (s.cch.l1.filter fun e => !e.priv && e.dirty != 0).map fun e => e.h
  let s := dirty.eraseDups.foldl (fun s h => s.flushNear h) s
  let s := (List.range 32).foldl (fun s st => s.pushL2 st) s
  let words := ((s.cch.contribs.filter fun c => c.key.headD 0 == l.id).map fun c => c.loc).eraseDups
  let s := words.foldl (fun s w =>
    let r := s.cch.closeWord w (leNat (s.homeRead w 4))
    ({ s with cch := r.1 } : State).homeWrite w (natLe 4 r.2) l.record.world) s
  let far := s.fab.ordered.filter fun x => x.1 == l.id
  let s := far.foldl (fun (s : State) x => s.closeFar x.2.1 x.2.2) s
  { s with fab := { s.fab with ordered := s.fab.ordered.filter fun x => x.1 != l.id }
           lch := s.lch.modLaunch l.id fun l => { l with stage := 1, closed := s.cycle } }

/-- A remote write or atomic from before the launch's end is not acknowledged yet (R285, R375). -/
def State.unacked (s : State) (l : Launch) : Bool := s.fab.remotes.any fun r => r.write && decide (r.issued ≤ l.closed)

/-- The completion record (R317). -/
def Launch.recordBytes (l : Launch) (cycle : Nat) : List Byte :=
  let st := l.status.getD (0, 0, 0, 0, 0)
  let sat := fun (n : Nat) => Nat.min 65535 n
  natLe 2 st.1 ++ natLe 1 st.2.1 ++ natLe 1 st.2.2.1 ++ natLe 4 l.num ++ natLe 4 st.2.2.2.1 ++ natLe 4 st.2.2.2.2 ++ natLe 8 cycle ++
  natLe 4 l.failTags ++ natLe 4 (sat l.dropSamples + 65536 * sat l.dropRaces)

/-- A write of completion that cannot be made is skipped with a record (R317). -/
def State.skipWrite (s : State) (l : Launch) (next : Nat) : State :=
  let s := s.file { hubRecord 3 0x0B 2 with
    launch := l.num, world := l.record.world, func := l.func, vaddr := if next = 3 then l.record.crec else l.record.done }
  { s with lch := s.lch.modLaunch l.id fun l => { l with stage := next, wait := 0 } }

/-- A write of completion: on to the next stage, or its fault is served, or it is skipped (R317). -/
def doneWrite (l : Launch) (next : Nat) (r : Put) : State :=
  match r with
  | .done s => { s with lch := s.lch.modLaunch l.id fun l => { l with stage := next, wait := 0 } }
  | .fault s kd lv va =>
    if l.wait = 2 then s.skipWrite l next
    else
      let q : FaultReq := { id := doneWaiter l.id, va := BitVec.ofNat 64 va, world := l.record.world, kind := kd, acc := 8, level := lv }
      { s with cch := { s.cch with faultq := s.cch.faultq ++ [q] }, lch := s.lch.modLaunch l.id fun l => { l with wait := 1 } }
  | .again s => { s with lch := s.lch.modLaunch l.id fun l => { l with wait := nextCycle l.wait } }
  | r => r.state.skipWrite l next

/-- Add 1 to the counter at DONE, at its page's placement (R274, R317). -/
def State.stepCounter (s : State) (l : Launch) : Put :=
  match s.translate 0 l.record.world l.record.done .write with
  | .fault kd lv => .fault s kd lv l.record.done
  | .ok t loc leaf =>
    if loc.tgt = 3 || !(placementOk (leafApl leaf) loc.tgt .atom 0) then .meadow t l.record.done
    else if t.lineState loc t.core.seq l.record.world = .waits then .again t
    else if t.lineState loc t.core.seq l.record.world ≠ .good then .bad t l.record.done
    else if loc.tgt = 2 then
      match t.sendRemote 3 loc.dev l.record.world 0 loc.pa (LaneMask.build fun i => decide (i < 8)) [] (natLe 16 1) 0 0 true with
      | some t => .done t
      | none => .bad t l.record.done
    else .done (t.homeWrite loc (natLe 8 ((leNat (t.homeRead loc 8) + 1) % 2 ^ 64)) l.record.world)

/-- The launch is complete: its vector is raised, and nothing of it is left (R317, R320). -/
def State.finishLaunch (s : State) (l : Launch) : State :=
  let s := if l.record.msix = 0xFFFF then s else s.raiseIrq l.func l.record.msix
  let lch := s.lch.unhold l.id
  { s with lch := { lch with launches := lch.launches.filter fun x => x.id != l.id
                             swapMons := lch.swapMons.filter fun m => m.launch != l.id } }

/-- The launch whose completion goes on (R317). -/
def State.completeDue (s : State) : Option Launch :=
  s.completing fun l => l.stage != 1 || (l.fresh.isEmpty && !(s.unacked l))
/-- The launch one of whose fresh buffers is wrapped again: one buffer at a time, and a line that is read once more is waited for
(R335). -/
def State.rewrapDue (s : State) : Option Launch :=
  s.completing fun l => l.stage == 1 && !l.fresh.isEmpty && !(s.unacked l) &&
    match s.sec.rewrap with
    | none => true
    | some r => r.idx == l.fresh.headD 0 && decide (r.cycle < s.cycle) &&
        !(s.cch.refetch.contains ({ tgt := 0, dev := 0, pa := r.ptr } : Loc).line)

/-- R317 launchCompletion: the steps of completion, one after another. -/
def execLaunchCompletion (s : State) : Host.Outcome State Fault Refusal :=
  .next (match s.completeDue with
    | none => s
    | some l => match l.stage with
      | 0 => s.endKernel l
      | 1 => { s with lch := s.lch.modLaunch l.id fun l => { l with stage := 2 } }
      | 2 => doneWrite l 3 (s.putBytes 0 l.record.world l.record.crec (l.recordBytes s.cycle))
      | 3 => if l.record.done = 0 then { s with lch := s.lch.modLaunch l.id fun l => { l with stage := 4 } }
             else doneWrite l 4 (s.stepCounter l)
      | _ => s.finishLaunch l)

/-- A launch's first fresh buffer is done: its next one follows (R335). -/
def State.rewrapped (s : State) (l : Launch) : State :=
  { s with sec := { s.sec with rewrap := none }, lch := s.lch.modLaunch l.id fun l => { l with fresh := l.fresh.drop 1 } }

/-- The line at the engine's pointer fails its check a second time: its MAC stays, and the launch completes with INTEGRITY
(R335). -/
def State.rewrapBad (s : State) (l : Launch) : State :=
  ({ s with lch := s.lch.modLaunch l.id fun l => { l with
      status := if l.status == some (0, 0, 0, 0, 0) then some (10, 0, 0, 0, 0) else l.status } } : State).file
    { hubRecord 3 0x12 2 with launch := l.num, world := l.record.world, func := l.func }

/-- One step of a rewrap: the line at the pointer is checked under the old version and has a MAC under the new one; what does not
lie in encrypted memory is passed by (R335). -/
def State.rewrapStep (s : State) (l : Launch) (b : Buffer) (r : Rewrap) : State :=
  let x : Loc := { tgt := 0, dev := 0, pa := r.ptr }
  if b.base + b.len ≤ r.ptr then s.rewrapped l
  else if !x.coded then { s with sec := { s.sec with rewrap := some { r with ptr := Nat.min ddrBase (b.base + b.len) } } }
  else
    let go := fun (t : State) => ({ t with sec := { t.sec with rewrap := some { r with ptr := r.ptr + 256, cycle := s.cycle } } } : State)
    if s.lineState x s.core.seq (s.sec.worldOf x) = .good then
      let wrap := fun (m : LineMeta) => if m.loc == x.line then { m with version := b.version } else m
      go { s with sec := { s.sec with metas := s.sec.metas.map wrap } }
    else go (s.rewrapBad l)

/-- R335 freshBufferRewrap: the next buffer's version steps, and then its lines are wrapped again, one in a cycle. -/
def execFreshBufferRewrap (s : State) : Host.Outcome State Fault Refusal :=
  .next (match s.rewrapDue with
    | none => s
    | some l => match s.sec.buffers.find? fun b => b.idx == l.fresh.headD 0 with
      | none => s.rewrapped l
      | some b => match s.sec.rewrap with
        | some r => s.rewrapStep l b r
        | none =>
          let step := fun (x : Buffer) => if x.idx = b.idx then { x with version := (x.version + 1) % 2 ^ 56 } else x
          { s with sec := { s.sec with buffers := s.sec.buffers.map step
                                       rewrap := some { idx := b.idx, ptr := b.base, cycle := s.cycle } } })

end Sys2Proof.Machine
end

