-- ==== Sys2Proof/Machine/Admin.lean ====
section
/-! DEFINITION. The admin commands (R330, R332, R335, R337, R338, R354, R363 to R368, R371, R372, R408). -/

namespace Sys2Proof.Machine

/-! ### The shape of a command (R363, R364) -/

/-- Carry out the command the device has fetched; none: nothing happens. -/
def State.admin (s : State) (f : State → AdminCmd → State) : Host.Outcome State Fault Refusal :=
  .next (match s.hst.cmd with
    | none => s
    | some c => f { s with hst := { s.hst with cmd := none } } c)

/-- Complete a command. -/
def State.reply (s : State) (c : AdminCmd) (status : Nat) (result : Nat) : State :=
  s.postCompletion c.func c.cid status (BitVec.ofNat 64 result)

/-- STATUS codes of R363. -/
def stBadParam : Nat := 2
def stNotPermitted : Nat := 3
def stBusy : Nat := 4
def stRefused : Nat := 5
def stNoResource : Nat := 7

/-- Only the bits of a mask are used. -/
def onlyBits (x : W64) (mask : Nat) : Bool := x &&& ~~~(BitVec.ofNat 64 mask) == 0

/-- A function owns a world (R330). -/
def HostIf.owns (h : HostIf) (f w : Nat) : Bool := h.owners.getD w none == some f

/-- The first of some refusals that holds, or the effect. -/
def State.checked (s : State) (c : AdminCmd) (l : List (Bool × Nat)) (k : State) : State :=
  match l.find? fun x => x.1 with
  | some x => s.reply c x.2 0
  | none => k

/-! ### IDENTIFY and SUMMARY (R366, R408) -/

/-- Put fields at offsets into a record of `n` bytes: offset, size, value. -/
def layout (n : Nat) (l : List (Nat × Nat × Nat)) : List Byte :=
  l.foldl (fun bs f => putAt bs f.1 f.2.1 f.2.2) (List.replicate n 0)

/-- Bytes of BAR 2 (R357). -/
def bar2Size (f : Nat) : Nat := if f = 0 then 256 * 2 ^ 30 else 16 * 2 ^ 30

/-- A number of the identity block. -/
def identityNat (off n : Nat) : Nat := leNat ((List.range n).map fun i => Config.identityByte (off + i))

/-- The module's level (R358). -/
def State.levelNow (s : State) : Nat := (s.pow.dies.map fun d => d.level).foldl Nat.max 0

/-- STATUS of R358: ready, replacement requested, and the granted level. -/
def State.status (s : State) : Nat := (if s.hst.ready then 1 else 0) + (if s.svc.repl != 0 then 2 else 0) + 16 * s.levelNow

/-- The identity record (R366). -/
def State.identityRecord (s : State) (f : Nat) : List Byte :=
  let dies := (List.range 4).flatMap fun d =>
    let working := (s.core.hearths.filter fun hr => dieOf hr.h == d && hr.present).length
    let units := (s.hst.units.filter fun u => u.1 == d && s.hst.owns f u.2.2).length
    [(0x50 + 8 * d, 2, (s.dieAt d).fver.toNat), (0x52 + 8 * d, 2, working), (0x54 + 8 * d, 1, units)]
  let parts := (List.range 7).flatMap fun i =>
    [(0x70 + 16 * i, 4, s.svc.versions.getD i 0), (0x74 + 16 * i, 4, s.svc.svns.getD i 0), (0x78 + 16 * i, 1, s.svc.banks.getD i 0)]
  layout 4096 ([(0, 4, 0x544E4449), (4, 4, 1), (8, 2, 0x4812), (0xA, 2, identityNat 0 2), (0xC, 1, f), (0xD, 1, s.hst.numVfs),
    (0xE, 1, s.fab.device.getD 0xFF), (0x10, 4, identityNat 2 4), (0x14, 4, Config.capEndpoint % 256), (0x18, 16, identityNat 6 16),
    (0x28, 8, s.svc.hbmBytes), (0x30, 1, s.svc.stackMask.toNat), (0x32, 2, s.svc.channels.toNat), (0x38, 8, s.svc.ddrBytes),
    (0x40, 8, s.svc.ddrUsable), (0x48, 8, bar2Size f)] ++ dies ++ parts ++
    [(0xE0, 4, s.pow.safeCap), (0xE4, 1, s.pow.ceiling), (0xE5, 1, if (s.func f).permit then 1 else 0), (0xE6, 2, msixCount f)])

/-- R366 identify. -/
def execIdentify (s : State) : Host.Outcome State Fault Refusal :=
  s.admin fun s c => s.checked c [(c.p1 != 0 || c.p2 != 0, stBadParam)]
    ((s.hostWrite c.p0.toNat (s.identityRecord c.func)).reply c 0 0)

/-- Supply per die and cycle of a level (R336). -/
def levelSupply (l : Nat) : Nat := (levelBulk.getD l 0 + 300) / 129

/-- Cap in force with its source (R408). -/
def State.capField (s : State) : Nat :=
  let w := s.pow.watts
  let src := if w < s.pow.limit then 3 else if s.pow.rackCap.isSome then 0 else 1
  if s.pow.ceiling < levelFor w then levelCaps.getD s.pow.ceiling 0 + 2 * 2 ^ 30
  else w + src * 2 ^ 30

/-- A function's entry of the summary: 64 bytes (R408; the places inside it are the model's, log entry 37). -/
def State.funcSummary (s : State) (f : Nat) : List Byte :=
  let g := s.func f
  let ls := s.lch.launches.filter fun l => l.func == f
  let has := fun (p : Team → Bool) => (ls.filter fun l => l.teams.any p).length
  let queued := (ls.filter fun l => l.teams.all fun t => t.state == .waiting).length
  let saved := has fun t => t.state == .preempted || t.state == .swapped true || t.state == .swapped false
  let blind := (ls.map fun l => (l.teams.filter fun t => t.state == .swapped false &&
    !(s.lch.swapMons.any fun m => m.launch == l.id && m.team == t.index) &&
    !(t.saved.any fun v => v.accs.any fun a => a.kind == .spawn)).length).sum
  let qmask := ((s.lch.queues.filter fun q => q.func == f && q.count != 0).map fun q => 2 ^ q.queue).sum
  let dmask := ((g.channels.filter fun c => c.desync).map fun c => 2 ^ c.ch).sum
  natLe 4 queued ++ natLe 4 (has fun t => t.state == .resident) ++ natLe 4 saved ++ natLe 4 blind ++ natLe 8 qmask ++ natLe 8 dmask ++
  natLe 4 g.faults.length ++ natLe 4 g.fqProd.toNat ++ natLe 4 (if g.permit then 1 else 0) ++ natLe 4 s.pow.ceiling ++ natLe 16 0

/-- A die's entry of the summary: 32 bytes. -/
def Die.summary (d : Die) (p : Power) (cycle : Nat) : List Byte :=
  let lim := if d.cut.isSome then 1 else if d.current != 0 then 2 else 0
  natLe 4 d.level ++ natLe 4 (levelSupply d.level) ++ natLe 8 ((d.lease.map fun l => l.stop).getD 0) ++
  natLe 8 (if cycle < d.cooldown then d.cooldown else 0) ++ natLe 4 lim ++ natLe 4 (if p.watchdog.isSome then 1 else 0)

/-- Positions of a stove that work, hearths it offers, and its sweep (R408). -/
def State.stoveSummary (s : State) (st : Nat) : Nat :=
  let work := ((List.range 17).map fun i => if s.svc.retired.contains (st, i) then 0 else 2 ^ i).sum
  let offered := (s.core.hearths.filter fun hr => stoveOf hr.h == st && hr.present).length
  let phase := if s.svc.sweepStove == st then s.svc.sweepPhase else 0
  work + offered * 2 ^ 17 + phase * 2 ^ 25 + (if s.svc.withdrawn.contains st then 2 ^ 29 else 0)

/-- The summary record (R408). -/
def State.summaryRecord (s : State) (f : Nat) : List Byte :=
  let flashSeq := (s.svc.flash.getLast?.map fun b => leAt b 0 4).getD 0
  let port := fun (p : Port) => (if p.dead then 256 else 2 ^ p.lanes - 1) + 512 * (p.retrains % 4)
  let head := layout 0x40 [(0, 4, 0x594D4D53), (4, 4, 1), (8, 8, s.cycle), (0x10, 4, s.status), (0x14, 4, s.svc.repl.toNat),
    (0x18, 4, s.capField), (0x1C, 4, (s.pow.lastSeq.getD 0).toNat), (0x20, 8, (s.pow.rackCap.map fun c => c.2).getD 0),
    (0x28, 8, leNat (s.svc.bySev.map fun n => BitVec.ofNat 8 (Nat.min 255 n))), (0x30, 4, s.svc.errProd.toNat), (0x34, 4, flashSeq),
    (0x38, 8, s.cch.lost.length)]
  let funcs := if f = 0 then (List.range 32).flatMap s.funcSummary else s.funcSummary f ++ List.replicate (31 * 64) 0
  let links := if f = 0 then s.fab.ports.flatMap fun p => natLe 8 (port p) else List.replicate 96 0
  padTo 4096 (head ++ (s.pow.dies.flatMap fun d => d.summary s.pow s.cycle) ++ ((List.range 32).flatMap fun st => natLe 8 (s.stoveSummary st)) ++
    padTo 96 links ++ funcs)

/-- R408 summary. -/
def execSummary (s : State) : Host.Outcome State Fault Refusal :=
  s.admin fun s c => s.checked c [(c.p1 != 0 || c.p2 != 0, stBadParam)]
    ((s.hostWrite c.p0.toNat (s.summaryRecord c.func)).reply c 0 0)

/-! ### Launch queues (R360, R365) -/

/-- R365 lqCreate. -/
def execLqCreate (s : State) : Host.Outcome State Fault Refusal :=
  s.admin fun s c =>
    let q := c.p0.toNat % 64
    s.checked c [(!(onlyBits c.p0 0x3F) || c.p1.toNat % 4096 != 0 || c.p2.toNat % 8 != 0, stBadParam),
                 ((s.lch.queue? c.func q).isSome, stBusy)]
      (({ s with lch := { s.lch with queues := s.lch.queues ++
          [{ func := c.func, queue := q, ring := c.p1.toNat, shadow := c.p2.toNat, d := 0, a := 0, spawned := [], cur := [],
             held := [], wait := 0 }] } } : State).reply c 0 0)

/-- R365 lqDelete. -/
def execLqDelete (s : State) : Host.Outcome State Fault Refusal :=
  s.admin fun s c =>
    let q := c.p0.toNat % 64
    s.checked c [(!(onlyBits c.p0 0x3F) || c.p1 != 0 || c.p2 != 0 || (s.lch.queue? c.func q).isNone, stBadParam),
                 (match s.lch.queue? c.func q with | some x => x.count != 0 | none => false, stBusy)]
      (({ s with lch := { s.lch with queues := s.lch.queues.filter fun x => !(x.func == c.func && x.queue == q) } } : State).reply c 0 0)

/-! ### Worlds and memory (R330, R332, R335, R354) -/

/-- A world has a queued, resident or saved launch: an accepted one, or a record that a queue already holds. -/
def State.worldBusy (s : State) (w : Nat) : Bool :=
  s.lch.launches.any (fun l => l.record.world == w) ||
  s.lch.queues.any fun q => (q.spawned ++ (if q.cur.isEmpty then [] else [q.cur])).any fun bs => (parseLaunch bs).world == w

/-- Drop what the TLBs and stream buffers hold of a range of a world (R299, R354). -/
def State.dropRange (s : State) (w base len : Nat) : State :=
  let hit := fun (b n : Nat) => decide (b < base + len) && decide (base < b + n)
  { s with
    cch := { s.cch with tlb := s.cch.tlb.filter fun e => !(e.world == w && hit e.base e.size) }
    core := { s.core with hearths := s.core.hearths.map fun hr =>
      { hr with stream := hr.stream.filter fun p => !(p.world == w && hit (4096 * p.page) 4096) } } }

/-- Write back and drop the L1 lines of a range of a world (R350, R354). -/
def State.dropLinesOf (s : State) (w base len : Nat) : State :=
  (s.cch.l1.filter fun e => e.world == w && decide (128 * e.vline < base + len) && decide (base < 128 * e.vline + 128)).foldl
    (fun s e => s.dropL1Line e) s

/-- Zero a meadow unit (R332). -/
def State.zeroUnit (s : State) (die unit : Nat) : State :=
  let lo := die * 2 ^ 31 + unit * 2 ^ 24
  { s with mem := { s.mem with meadow := s.mem.meadow.filter fun c => decide (c.1 < lo) || decide (lo + 2 ^ 24 ≤ c.1) } }

/-- Clear everything a world held (R330); its lost lines are no longer listed (R387). -/
def State.clearWorld (s : State) (w : Nat) : State :=
  let s := (s.dropRange w 0 (2 ^ 57)).dropLinesOf w 0 (2 ^ 57)
  let s := (s.hst.units.filter fun u => u.2.2 == w).foldl (fun s u => s.zeroUnit u.1 u.2.1) s
  let s := (s.cch.l2.filter fun e => e.owner == w).foldl (fun s e => s.writeBackL2 e) s
  let gone := fun (l : Loc) => s.cch.lostOf.any fun x => x.1 == l && x.2 == w
  let func := fun (g : Func) => { g with
    channels := g.channels.filter fun c => c.world != w
    apWorld := if g.apWorld = w then 0 else g.apWorld
    apBase := if g.apWorld = w then 0 else g.apBase
    apLen := if g.apWorld = w then 0 else g.apLen }
  { s with
    hst := { s.hst with
      roots := s.hst.roots.set w none, units := s.hst.units.filter fun u => u.2.2 != w, funcs := s.hst.funcs.map func }
    sec := s.sec.delete w
    cch := { s.cch with l2 := s.cch.l2.filter fun e => e.owner != w || e.loc.homeAt e.stove
                        lost := s.cch.lost.filter fun l => !(gone l) }
    core := { s.core with hearths := s.core.hearths.map fun hr => { hr with owners := hr.owners.filter fun o => o.2 != w } } }

/-- R330 worldAssign. -/
def execWorldAssign (s : State) : Host.Outcome State Fault Refusal :=
  s.admin fun s c =>
    let w := c.p0.toNat % 64
    let f := bitsNat c.p0.toNat 12 8
    let del := c.p0.getLsbD 31
    let old := s.hst.owners.getD w none
    let new := if del then none else some f
    s.checked c [(c.func != 0, stNotPermitted),
                 (!(onlyBits c.p0 0x80001F3F) || c.p1 != 0 || c.p2 != 0 || w == 0 || decide (s.hst.numVfs < f), stBadParam),
                 (old != new && s.worldBusy w, stBusy)]
      (let s := if old = new then s else s.clearWorld w
       let sec := if old = new || del then s.sec else s.sec.create w
       ({ s with hst := { s.hst with owners := s.hst.owners.set w new }, sec := sec } : State).reply c 0 0)

/-- R365 worldRoot. -/
def execWorldRoot (s : State) : Host.Outcome State Fault Refusal :=
  s.admin fun s c =>
    let w := c.p0.toNat % 64
    let bad := !(c.p1.getLsbD 0) || c.p1.getLsbD 1 || tableBad s.svc c.p1 6
    s.checked c [(!(onlyBits c.p0 0x3F) || c.p2 != 0, stBadParam), (!(s.hst.owns c.func w), stNotPermitted), (bad, stBadParam)]
      ((({ s with hst := { s.hst with roots := s.hst.roots.set w (some c.p1) } } : State).retryFetches w).reply c 0 0)

/-- A held store of a group, issued up to `b`, lies in a range. -/
def Group.gatedIn (g : Group) (base len b : Nat) : Bool :=
  g.gated.any fun e => decide (e.seq ≤ b) && decide (e.va.toNat < base + len) && decide (base < e.va.toNat + e.bytes.length)

/-- Groups of a world. -/
def Core.worldGroups (c : Core) (w : Nat) : List Group :=
  c.groups.filter fun g => match c.part? g.part with | some p => p.world == w | none => false

/-- A shootdown whose earlier accesses are complete and whose held stores are released and acknowledged (R354). -/
def State.shootDue (s : State) : Option (Nat × Nat × Nat × Nat × Nat × Nat) :=
  s.hst.shoots.find? fun x =>
    let (_, _, w, base, len, b) := x
    let gs := s.core.worldGroups w
    let own := fun (h slot : Nat) => gs.any fun g => g.h == h && g.slot == slot
    !(gs.any fun g => g.gatedIn base len b) && !(s.fab.remotes.any fun r => r.write) &&
    !(s.core.accs.any fun a => own a.h a.slot && decide (a.seq < b) && !a.standing)

/-- R354 invalidate: the entries go at once; the completion follows once what was issued before is complete. -/
def execInvalidate (s : State) : Host.Outcome State Fault Refusal :=
  match s.hst.cmd with
  | some _ => s.admin fun s c =>
    let w := c.p0.toNat % 64
    let whole := c.p0.getLsbD 8
    let base := if whole then 0 else c.p1.toNat
    let len := if whole then 2 ^ 57 else c.p2.toNat
    s.checked c [(!(onlyBits c.p0 0x13F) || base % 4096 != 0 || len % 4096 != 0, stBadParam), (!(s.hst.owns c.func w), stNotPermitted)]
      (let s := s.dropRange w base len
       let ask := fun (g : Group) => if (s.core.worldGroups w).any (fun x => x.h == g.h && x.slot == g.slot) && g.gatedIn base len s.core.seq
         then g.askCheckpoint 0 s.core.seq s.cycle [] else g
       { s with core := { s.core with groups := s.core.groups.map ask }
                hst := { s.hst with shoots := s.hst.shoots ++ [(c.func, c.cid, w, base, len, s.core.seq)] } })
  | none => .next (match s.shootDue with
    | none => s
    | some x =>
      let (f, cid, w, base, len, _) := x
      let s := s.dropLinesOf w base len
      (({ s with hst := { s.hst with shoots := s.hst.shoots.erase x } } : State).retryFetches w).postCompletion f cid 0 0)

/-- R335 bufReg. -/
def execBufReg (s : State) : Host.Outcome State Fault Refusal :=
  s.admin fun s c =>
    let w := c.p0.toNat % 64
    let base := c.p1.toNat
    let len := c.p2.toNat
    let clash := s.sec.buffers.any fun b => decide (b.base < base + len) && decide (base < b.base + b.len)
    let free := (List.range 8192).find? fun i => !(s.sec.buffers.any fun b => b.idx == i)
    s.checked c [(!(onlyBits c.p0 0x3F) || base % 256 != 0 || len == 0, stBadParam), (!(s.hst.owns c.func w), stNotPermitted),
                 (clash, stBadParam), (free.isNone, stNoResource)]
      (({ s with sec := { s.sec with buffers := s.sec.buffers ++
          [{ idx := free.getD 0, world := w, base := base, len := len, version := 1 }] } } : State).reply c 0 (free.getD 0))

/-- R365 bufUnreg. -/
def execBufUnreg (s : State) : Host.Outcome State Fault Refusal :=
  s.admin fun s c =>
    let i := c.p0.toNat
    match s.sec.buffers.find? fun b => b.idx == i with
    | none => s.reply c stBadParam 0
    | some b => s.checked c [(c.p1 != 0 || c.p2 != 0, stBadParam), (!(s.hst.owns c.func b.world), stNotPermitted),
                             (s.lch.launches.any fun l => l.fresh.contains i, stBusy)]
        (({ s with sec := { s.sec with buffers := s.sec.buffers.filter fun b => b.idx != i } } : State).reply c 0 0)

/-- R332 meadowAssign: a unit whose owner changes is zeroed. -/
def execMeadowAssign (s : State) : Host.Outcome State Fault Refusal :=
  s.admin fun s c =>
    let die := c.p0.toNat % 4
    let unit := bitsNat c.p0.toNat 14 8
    let w := bitsNat c.p0.toNat 21 16
    let new := if c.p0.getLsbD 31 then none else some w
    let old := (s.hst.units.find? fun u => u.1 == die && u.2.1 == unit).map fun u => u.2.2
    s.checked c [(c.func != 0, stNotPermitted), (!(onlyBits c.p0 0x803F7F03) || c.p1 != 0 || c.p2 != 0, stBadParam)]
      (let s := if old = new then s else s.zeroUnit die unit
       let rest := s.hst.units.filter fun u => !(u.1 == die && u.2.1 == unit)
       ({ s with hst := { s.hst with units := rest ++ (new.map fun w => (die, unit, w)).toList } } : State).reply c 0 0)

/-! ### Launches (R318, R326, R365) -/

/-- A function's launch by %LAUNCH. -/
def State.launchOf (s : State) (f num : Nat) : Option Launch := s.lch.launches.find? fun l => l.func == f && l.num == num

/-- A swapped team is pre-empted where it is: its monitors are not kept (R258, R326). -/
def State.preemptSwapped (s : State) (l : Launch) (team : Nat) : State :=
  let lch := s.lch.modTeam l.id team fun t => match t.state with | .swapped _ => { t with state := .preempted } | _ => t
  { s with lch := { lch with swapMons := lch.swapMons.filter fun m => !(m.launch == l.id && m.team == team) } }

/-- R365 preempt: it completes once every resident team it names is saved. -/
def execPreempt (s : State) : Host.Outcome State Fault Refusal :=
  s.admin fun s c => match s.launchOf c.func c.p0.toNat with
    | none => s.reply c stBadParam 0
    | some l =>
      let all := c.p1.toNat == 0xFFFFFFFF
      let ts := l.teams.filter fun t => all || t.index == c.p1.toNat
      s.checked c [(c.p2 != 0 || ts.isEmpty, stBadParam)]
        (let s := ts.foldl (fun s t => (s.preemptSwapped l t.index).askLeave l.id t.index (some (c.func, c.cid))) s
         if s.lch.owes c.func c.cid then s else s.reply c 0 0)

/-- R365 abort. -/
def execAbort (s : State) : Host.Outcome State Fault Refusal :=
  s.admin fun s c => match s.launchOf c.func c.p0.toNat with
    | none => s.reply c stBadParam 0
    | some l => s.checked c [(c.p1 != 0 || c.p2 != 0, stBadParam)]
        ((s.endLaunch l.id (8, 0, 0, 0, 0) fun _ => none).reply c 0 0)

/-! ### Power (R337, R338) and functions -/

/-- R337 powerCeiling. -/
def execPowerCeiling (s : State) : Host.Outcome State Fault Refusal :=
  s.admin fun s c => s.checked c [(c.func != 0, stNotPermitted), (decide (6 < c.p0.toNat) || c.p1 != 0 || c.p2 != 0, stBadParam)]
    (({ s with pow := { s.pow with ceiling := c.p0.toNat } } : State).reply c 0 0)

/-- The damper refuses a lease for a die: it holds one, or is in its cooldown (R338). -/
def State.leaseRefused (s : State) (n : Nat) : Bool :=
  let d := s.dieAt n
  d.lease.isSome || decide (s.cycle < d.cooldown)

/-- R338 boost. -/
def execBoost (s : State) : Host.Outcome State Fault Refusal :=
  s.admin fun s c =>
    let dies := (List.range 4).filter fun i => c.p0.getLsbD i
    let start := boundaryFrom (s.cycle + 1)
    let lease : Lease := { func := c.func, start := start, begun := false, stop := start + 800000 * c.p1.toNat, revoked := false }
    s.checked c [(c.func != 0 && !(s.func c.func).permit, stNotPermitted),
                 (!(onlyBits c.p0 0xF) || dies.isEmpty || !(within 1 2000 c.p1.toNat) || c.p2 != 0, stBadParam),
                 (decide (s.pow.watts < 2800) || !s.pow.firmware || dies.any s.leaseRefused, stRefused)]
      ((dies.foldl (fun (s : State) i => s.modDie i fun d => { d with lease := some lease }) s).reply c 0 start)

/-- R365 funcConfig. -/
def execFuncConfig (s : State) : Host.Outcome State Fault Refusal :=
  s.admin fun s c =>
    let f := c.p0.toNat
    s.checked c [(c.func != 0, stNotPermitted), (decide (s.hst.numVfs < f) || !(onlyBits c.p2 1), stBadParam)]
      ((s.modFunc f fun g => { g with slice := c.p1.toNat, permit := c.p2.getLsbD 0 || f == 0 }).reply c 0 0)

/-! ### Channels and the window (R359, R368, R371) -/

/-- A function's channel. -/
def Func.channel? (g : Func) (n : Nat) : Option Channel := g.channels.find? fun c => c.ch == n
/-- Change a channel. -/
def State.modChannel (s : State) (f n : Nat) (h : Channel → Channel) : State :=
  s.modFunc f fun g => { g with channels := g.channels.map fun c => if c.ch == n then h c else c }

/-- R368 chCreate. -/
def execChCreate (s : State) : Host.Outcome State Fault Refusal :=
  s.admin fun s c =>
    let x := c.p0.toNat
    let n := bitsNat x 19 16
    let ch : Channel :=
      { ch := x % 64, out := bitNat x 8, slot := bitsNat x 15 12, count := 2 ^ n, world := bitsNat x 29 24, vec := bitsNat x 47 32,
        ring := c.p1.toNat, shadow := c.p2.toNat, dp := 0, dc := 0, desync := false, cause := 0, lost := 0, bytes := 0,
        copying := 0, waiting := none }
    s.checked c [(!(onlyBits c.p0 0xFFFF3F0FF13F) || decide (12 < ch.slot) || !(within 1 10 n) || ch.ring % 4096 != 0 || ch.shadow % 8 != 0,
                   stBadParam),
                 (!(s.hst.owns c.func ch.world), stNotPermitted), (((s.func c.func).channel? ch.ch).isSome, stBusy)]
      ((s.modFunc c.func fun g => { g with channels := g.channels ++ [ch] }).reply c 0 0)

/-- A resynchronisation takes effect: the old counts are its result (R371). -/
def State.resync (s : State) (f cid n new : Nat) : State :=
  match (s.func f).channel? n with
  | none => s.postCompletion f cid stBadParam 0
  | some ch =>
    (s.modChannel f n fun c => { c with dp := new, dc := new, desync := false, cause := 0, lost := 0, bytes := 0, waiting := none,
                                        copying := 0 }).postCompletion f cid 0 (BitVec.ofNat 64 (ch.dp * 2 ^ 32 + ch.dc))

/-- A channel is deleted. -/
def State.deleteChannel (s : State) (f cid n : Nat) : State :=
  (s.modFunc f fun g => { g with channels := g.channels.filter fun c => c.ch != n }).postCompletion f cid 0 0

/-- A command on a channel that waits for its copy in flight. -/
def State.afterCopy (s : State) (c : AdminCmd) (n : Nat) (what : Option Nat) (now : State) : State :=
  match (s.func c.func).channel? n with
  | none => s.reply c stBadParam 0
  | some ch =>
    if ch.waiting.isSome then s.reply c stBusy 0
    else if ch.copying != 0 then s.modChannel c.func n fun x => { x with waiting := some (c.cid, what) }
    else now

/-- R371 chResync. -/
def execChResync (s : State) : Host.Outcome State Fault Refusal :=
  s.admin fun s c =>
    let n := c.p0.toNat
    s.checked c [(!(onlyBits c.p0 0x3F) || !(onlyBits c.p1 0xFFFFFFFF) || c.p2 != 0, stBadParam)]
      (s.afterCopy c n (some c.p1.toNat) (s.resync c.func c.cid n c.p1.toNat))

/-- R365 chDelete. -/
def execChDelete (s : State) : Host.Outcome State Fault Refusal :=
  s.admin fun s c =>
    let n := c.p0.toNat
    s.checked c [(!(onlyBits c.p0 0x3F) || c.p1 != 0 || c.p2 != 0, stBadParam)]
      (s.afterCopy c n none (s.deleteChannel c.func c.cid n))

/-- R359 aperture. -/
def execAperture (s : State) : Host.Outcome State Fault Refusal :=
  s.admin fun s c =>
    let w := c.p0.toNat
    s.checked c [(!(onlyBits c.p0 0x3F) || c.p1.toNat % 4096 != 0, stBadParam), (!(s.hst.owns c.func w), stNotPermitted)]
      ((s.modFunc c.func fun g => { g with apWorld := w, apBase := c.p1.toNat, apLen := c.p2.toNat }).reply c 0 0)

/-! ### The domain and debugging (R367, R372) -/

/-- R372 domainConfig: the route table is read from host memory. -/
def execDomainConfig (s : State) : Host.Outcome State Fault Refusal :=
  s.admin fun s c =>
    let bs := s.hostRead c.p1.toNat 384
    let routes := (List.range 192).map fun i => leAt bs (2 * i) 2
    s.checked c [(c.func != 0, stNotPermitted),
                 (decide (192 ≤ c.p0.toNat) || c.p2 != 0 || routes.any (fun r => decide (2 ^ 12 ≤ r)), stBadParam)]
      (({ s with fab := { s.fab with device := some c.p0.toNat, routes := routes } } : State).reply c 0 0)

/-- The part a debug command names. -/
def State.debugPart (s : State) (c : AdminCmd) : Option Part :=
  match s.launchOf c.func c.p0.toNat with
  | none => none
  | some l => s.core.parts.find? fun p => p.launch == l.id && p.team == c.p1.toNat % 2 ^ 24 && p.p == bitsNat c.p1.toNat 27 24

/-- The stopped part in the layout of a dump (R367). -/
def State.debugBytes (s : State) (p : Part) (ev : TrapEv) : List Byte :=
  let num := ((s.core.group? p.h ev.slot).map fun g => g.num).getD ev.slot
  let p' : Part := { p with events := [{ ev with slot := num }], fates := s.core.engineEntries p }
  s.dumpHeader p' 1 p.image.swapSize 0 0 s.cycle ++ (s.dumpBytes p').drop 256

/-- R367 dbgRead. -/
def execDbgRead (s : State) : Host.Outcome State Fault Refusal :=
  s.admin fun s c => match s.launchOf c.func c.p0.toNat with
    | none => s.reply c stBadParam 0
    | some _ =>
      if !(onlyBits c.p1 0xFFFFFFF) || c.p2.toNat % 4096 != 0 then s.reply c stBadParam 0
      else match (s.debugPart c).bind fun p => p.stopAt.map fun e => (p, e) with
        | none => s.reply c stBusy 0
        | some (p, e) => (s.hostWrite c.p2.toNat (s.debugBytes p e)).reply c 0 0

/-- R367 dbgResume. -/
def execDbgResume (s : State) : Host.Outcome State Fault Refusal :=
  s.admin fun s c => match s.launchOf c.func c.p0.toNat with
    | none => s.reply c stBadParam 0
    | some _ =>
      if !(onlyBits c.p1 0xFFFFFFF) || c.p2 != 0 then s.reply c stBadParam 0
      else match (s.debugPart c).bind fun p => p.stopAt.map fun e => (p, e) with
        | none => s.reply c stBusy 0
        | some (p, e) =>
          let core := (s.core.modPart p.id fun p => { p with stopAt := none }).releaseStop p e.slot s.cycle
          ({ s with core := core } : State).reply c 0 0

end Sys2Proof.Machine
end

