-- ==== Sys2Proof/Machine/Channel.lean ====
section
/-! DEFINITION. The bounce-buffer channels (R368 to R371) and the BAR 2 window (R359). -/

namespace Sys2Proof.Machine

/-! ### Bytes of virtual memory at their home (R359, R369) -/

/-- Read or write bytes within one 128-byte line at system scope, for the host; the bytes written, or none to read. -/
def State.atHome (s : State) (world id va n : Nat) (data : Option (List Byte)) : Fetched :=
  match s.translate 0 world va (if data.isSome then .write else .read) with
  | .fault kd lv => .fault kd lv
  | .ok s l _ =>
    match data with
    | some bs =>
      if l.tgt = 3 then .fail 0
      else if l.tgt = 2 && (s.fab.portFor l.dev l.pa).isNone then .fail 3
      else .got ((s.sendHome world l (fun _ => true) bs).countLine world 0 l) bs
    | none => match s.lineState l s.core.seq world with
      | .abort r => .fail r
      | .waits => .again s
      | .good => if l.tgt = 2 then s.farLine id world l n else .got (s.countLine world 0 l) (s.homeRead l n)

/-! ### The copy of a slot (R368 to R371) -/

/-- Bytes of a channel's slot. -/
def Channel.slotBytes (c : Channel) : Nat := 4096 * 2 ^ c.slot
/-- Ring index of the slot being copied. -/
def Channel.index (c : Channel) : Nat := c.dc % c.count
/-- Host address of a slot's data. -/
def Channel.dataAt (c : Channel) : Nat := c.ring + ceilDiv (64 * c.count) 4096 * 4096 + c.index * c.slotBytes

/-- The channel enters DESYNC with a cause, and its function hears of it (R361, R370). A copy that is under way at a doorbell
out of bounds goes on. -/
def State.desync (s : State) (f n cause bytes : Nat) : State :=
  (s.modChannel f n fun c =>
    if cause = 2 then { c with desync := true, cause := 2, lost := 0 }
    else { c with desync := true, cause := cause, lost := c.dc, bytes := bytes, copying := 0 }).adminEvent f (2 + 2 ^ 8 * n)

/-- The copy under way aborts: the channel enters DESYNC, unless it is there (R370). -/
def State.copyAborts (s : State) (f : Nat) (c : Channel) (cause bytes : Nat) : State :=
  if c.desync then s.modChannel f c.ch fun x => { x with bytes := 0, copying := 0 } else s.desync f c.ch cause bytes

/-- How a run of copied lines ends. -/
inductive CopyEnd where
  | all
  | fault (kind level va : Nat)
  | again
  | lost
  deriving DecidableEq, Repr

/-- Copy lines of a slot from byte `off` up to `stop`; the bytes copied so far. -/
def State.copyLines (s : State) (f : Nat) (c : Channel) (va stop : Nat) : Nat → Nat → State × Nat × CopyEnd
  | 0, off => (s, off, .all)
  | fuel + 1, off =>
    if stop ≤ off then (s, off, .all)
    else
      let a := va + off
      let n := Nat.min (stop - off) (128 - a % 128)
      let data := if c.out then none else some (s.hostRead (c.dataAt + off) n)
      match s.atHome c.world (chanWaiter f c.ch) a n data with
      | .got t bs =>
        let t := if c.out then t.hostWrite (c.dataAt + off) bs else t
        t.copyLines f c va stop fuel (off + n)
      | .fault kd lv => (s, off, .fault kd lv a)
      | .again t => (t, off, .again)
      | .fail _ => (s, off, .lost)

/-- A command that waited for the copy takes effect once none is in flight (R371). -/
def State.waited (s : State) (f n : Nat) : State :=
  match ((s.func f).channel? n).bind fun c => if c.copying = 0 then c.waiting else none with
  | some (cid, some new) => s.resync f cid n new
  | some (cid, none) => s.deleteChannel f cid n
  | none => s

/-- The slot is copied: DC steps, goes to the shadow, and the vector is raised (R369); none of this in DESYNC (R370). -/
def State.slotDone (s : State) (f : Nat) (c : Channel) : State :=
  if c.desync then s.modChannel f c.ch fun x => { x with copying := 0, bytes := 0 }
  else
  let dc := (c.dc + 1) % 2 ^ 32
  ((s.modChannel f c.ch fun x => { x with dc := dc, copying := 0, bytes := 0 }).hostWrite c.shadow (natLe 8 dc)).raiseIrq f c.vec

/-- Go on with the copy of the channel's slot, up to a host abort after so many bytes. -/
def State.copySlot (s : State) (f : Nat) (c : Channel) (hostAbort : Option Nat) : State :=
  let hdr := s.hostRead (c.ring + 64 * c.index) 64
  let va := leAt hdr 0 8
  let len := leAt hdr 8 4
  if (hdr.drop 12).any (· != 0) || len == 0 || decide (c.slotBytes < len) || decide (2 ^ 57 < va + len) then
    (s.copyAborts f c 5 0).waited f c.ch
  else
    let stop := match hostAbort with | some n => Nat.min n len | none => len
    match s.copyLines f c va stop (stop / 128 + 2) c.bytes with
    | (s, off, .all) =>
      (if hostAbort.isSome then s.copyAborts f c 3 off else s.dropLines.slotDone f c).waited f c.ch
    | (s, off, .fault kd lv a) =>
      if c.copying = 3 then (s.copyAborts f c 4 off).waited f c.ch
      else
        let r : FaultReq := { id := chanWaiter f c.ch, va := BitVec.ofNat 64 a, world := c.world, kind := kd, acc := 9, level := lv }
        ({ s with cch := { s.cch with faultq := s.cch.faultq ++ [r] } } : State).modChannel f c.ch fun x =>
          { x with copying := 1, bytes := off }
    | (s, off, .again) => s.modChannel f c.ch fun x => { x with copying := 4, bytes := off }
    | (s, off, .lost) => (s.copyAborts f c 1 off).waited f c.ch

/-- A copy can go on: slots are posted, and it waits for no page. -/
def Channel.active (c : Channel) : Bool :=
  c.copying != 1 && c.copying != 4 && ((!c.desync && c.dp != c.dc) || c.copying != 0)

/-- R369 channelCopyComplete: the copy of slot DC goes on to its end, to a fault, or to its abort. -/
def execChannelCopyComplete (func ch : Nat) (hostAbort : Option Nat) (s : State) : Host.Outcome State Fault Refusal :=
  .next (match (s.func func).channel? ch with
    | none => s
    | some c =>
      if !c.active then s
      else if c.copying = 3 then (s.copyAborts func c 4 c.bytes).waited func ch
      else s.copySlot func c hostAbort)

/-- R370 channelDoorbell: DP takes the value, or the channel enters DESYNC. -/
def execChannelDoorbell (func ch : Nat) (value : W32) (s : State) : Host.Outcome State Fault Refusal :=
  .next (match (s.func func).channel? ch with
    | none => s.modFunc func fun g => { g with winErrs := g.winErrs + 1 }
    | some c =>
      let v := value.toNat
      if (v + 2 ^ 32 - c.dc) % 2 ^ 32 ≤ c.count && (v + 2 ^ 32 - c.dp) % 2 ^ 32 ≤ c.count then
        s.modChannel func ch fun c => { c with dp := v }
      else if c.desync then s
      else (s.desync func ch 2 0).waited func ch)

/-! ### The BAR 2 window (R359) -/

/-- What carrying out an access gives: the state and the data, a fault, or more to wait for. -/
def State.windowBytes (s : State) (f world : Nat) (write : Bool) (data : W64) : Nat → Nat → Nat → Fetched
  | 0, _, _ => .got s []
  | fuel + 1, va, n =>
    if n = 0 then .got s []
    else
      let k := Nat.min n (128 - va % 128)
      let bs := natLe k data.toNat
      match s.atHome world (winWaiter f) va k (if write then some bs else none) with
      | .got s r => match s.windowBytes f world write (data >>> (8 * k)) fuel (va + k) (n - k) with
        | .got t q => .got t (r ++ q)
        | x => x
      | x => x

/-- Where a window access that faults does so: its first byte, or the page it runs into. -/
def State.windowFault (s : State) (world : Nat) (write : Bool) (va n : Nat) : Nat :=
  match s.translate 0 world va (if write then .write else .read) with
  | .fault _ _ => va
  | .ok _ _ _ => (va + n - 1) / 4096 * 4096

/-- The first access of the window's order is over: a read has its completion. -/
def State.windowDone (s : State) (f : Nat) (r : WinReq) (status : Nat) (data : W64) : State :=
  s.modFunc f fun g => { g with
    win := g.win.drop 1
    winOut := if r.write then g.winOut else g.winOut ++ [(r.off, status, data)] }

/-- Carry out the oldest access of a function's window; nothing while it waits. -/
def State.windowStep (s : State) (f : Nat) : State :=
  let g := s.func f
  match g.win with
  | [] => s
  | r :: _ =>
    let x := r.off - 2 ^ 20
    if !(goesOn r.wait) then s
    else if g.apLen < x + r.len then
      (s.windowDone f r 1 0).modFunc f fun g => { g with winErrs := g.winErrs + 1 }
    else if r.wait = 2 then s.windowDone f r 1 0
    else match s.windowBytes f g.apWorld r.write r.data (r.len + 1) (g.apBase + x) r.len with
      | .got s bs => s.dropLines.windowDone f r 0 (BitVec.ofNat 64 (leNat bs))
      | .fail _ => s.windowDone f r 2 0
      | .again s => s.modFunc f fun g => { g with win := g.win.modifyHead fun r => { r with wait := 3 } }
      | .fault kd lv =>
        let va := s.windowFault g.apWorld r.write (g.apBase + x) r.len
        let q : FaultReq := { id := winWaiter f, va := BitVec.ofNat 64 va, world := g.apWorld, kind := kd, acc := 9, level := lv }
        ({ s with cch := { s.cch with faultq := s.cch.faultq ++ [q] } } : State).modFunc f fun g =>
          { g with win := g.win.modifyHead fun r => { r with wait := 1 } }

/-- Carry out window accesses in order, as far as they go. -/
def State.windowRun (s : State) (f : Nat) : Nat → State
  | 0 => s
  | n + 1 => if (s.func f).win.isEmpty then s else (s.windowStep f).windowRun f n

/-- A doorbell byte of BAR 2 (R359). -/
def doorbellByte (off : Nat) : Bool := decide (off < 512 && off % 8 < 4 || 0x1000 ≤ off && off < 0x1200 && off % 8 < 4)

/-- A read of a doorbell: the value is open; other bytes of the doorbell space read 0. -/
def State.readDoorbell (s : State) (f off len : Nat) : State :=
  let bs := (List.range len).map fun i => if doorbellByte (off + i) then Config.freeByte (s.core.free + i) else 0
  ({ s with core := { s.core with free := s.core.free + len } } : State).modFunc f fun g =>
    { g with winOut := g.winOut ++ [(off, 0, BitVec.ofNat 64 (leNat bs))] }

/-- R359 bar2WindowAccess: a doorbell's bytes, or device memory in PCIe order; a length of 0 carries on with the
accesses that wait. -/
def execBar2WindowAccess (func : Nat) (write : Bool) (off len : Nat) (data : W64) (s : State) :
    Host.Outcome State Fault Refusal :=
  if len = 0 then .next (s.windowRun func (s.func func).win.length)
  else if off < 2 ^ 20 then
    if !write then .next (s.readDoorbell func off len)
    else if len < 4 || off % 8 != 0 then .next s
    else if off < 512 then execLaunchDoorbell func (off / 8) (data.setWidth 32) s
    else if 0x1000 ≤ off && off < 0x1200 then execChannelDoorbell func ((off - 0x1000) / 8) (data.setWidth 32) s
    else .next s
  else
    let s := s.modFunc func fun g => { g with win := g.win ++ [{ write := write, off := off, len := len, data := data, wait := 0 }] }
    .next (s.windowRun func (s.func func).win.length)

end Sys2Proof.Machine
end

