-- ==== Sys2Proof/Machine/Service.lean ====
section
/-! DEFINITION. Service life: sweeps (R396, R397), updates (R398 to R400), the registers of BAR 0 (R352, R353, R358, R390),
resets (R362, R409), and the hold-off of the rings' interrupts (R351, R391). -/

namespace Sys2Proof.Machine

/-! ### The lost-line table (R387, R390) -/

/-- R390 lostClr. -/
def execLostClr (addr : W64) (s : State) : Host.Outcome State Fault Refusal :=
  let l : Loc := { tgt := 0, dev := 0, pa := addr.toNat }
  .next { s with cch := { s.cch with lost := s.cch.lost.filter fun x => x != l.line } }

/-! ### The sweep (R396, R397) -/

/-- Change the service controller's state. -/
def State.modSvc (s : State) (f : Service → Service) : State := { s with svc := f s.svc }

/-- A sweep begins: its stove is withdrawn from placement. -/
def State.startSweep (s : State) (stove : Nat) : State :=
  s.modSvc fun v => { v with
    sweepStove := stove
    sweepPhase := 1
    sweepFailed := 0
    withdrawn := if v.withdrawn.contains stove then v.withdrawn else v.withdrawn ++ [stove]
    sweeps := (stove, s.cycle) :: v.sweeps.filter fun x => x.1 != stove }

/-- R397 sweepStart: ignored while a sweep runs. -/
def execSweepStart (stove : Nat) (s : State) : Host.Outcome State Fault Refusal :=
  .next (if s.svc.sweepPhase ≠ 0 then s else s.startSweep stove)

/-- Interval of the controller's own sweeps, 24 hours unless its threshold block says otherwise (R397, R401). -/
def Service.sweepInterval (v : Service) : Nat := v.thresholds.getD 10 0

/-- A stove holds no team. -/
def State.stoveEmpty (s : State) (stove : Nat) : Bool := !(s.core.parts.any fun p => stoveOf p.h == stove)

/-- A stove that the controller sweeps on its own: empty, and not swept for an interval. -/
def State.autoSweep (s : State) : Option Nat :=
  if s.svc.sweepPhase ≠ 0 then none
  else (List.range 32).find? fun st => s.stoveEmpty st &&
    decide (((s.svc.sweeps.find? fun x => x.1 == st).map fun x => x.2).getD 0 + s.svc.sweepInterval ≤ s.cycle)

/-- R397 sweepAutoStart. -/
def execSweepAutoStart (s : State) : Host.Outcome State Fault Refusal :=
  .next (match s.autoSweep with | none => s | some st => s.startSweep st)

/-- The withdrawn stove is empty. -/
def State.sweepDrained (s : State) : Bool := s.svc.sweepPhase == 1 && s.stoveEmpty s.svc.sweepStove

/-- R396 sweepDrainEnd. -/
def execSweepDrainEnd (s : State) : Host.Outcome State Fault Refusal :=
  .next (if s.sweepDrained then s.modSvc fun v => { v with sweepPhase := 2, sweepDue := s.cycle + 1600000 } else s)

/-- A timed phase of the sweep is over. -/
def State.sweepOver (s : State) (phase : Nat) : Bool := s.svc.sweepPhase == phase && decide (s.svc.sweepDue ≤ s.cycle)

/-- R396 sweepScanEnd: the positions that failed the scan. -/
def execSweepScanEnd (failed : BitVec 17) (s : State) : Host.Outcome State Fault Refusal :=
  .next (if s.sweepOver 2 then
      s.modSvc fun v => { v with sweepPhase := 3, sweepDue := s.cycle + 2400000, sweepFailed := v.sweepFailed ||| failed }
    else s)

/-- Every storage the sweep tests is left at zero, and the stove's TLB empty (R396). -/
def State.sweptClean (s : State) (stove : Nat) : State :=
  let s := (List.range 16).foldl (fun (s : State) i => s.dropL1 (16 * stove + i)) s
  let clear : Hearth → Hearth := fun hr => if stoveOf hr.h = stove then { hr with partitions := [], stream := [], owners := [] } else hr
  { s with
    cch := { s.cch with l1 := s.cch.l1.filter fun e => stoveOf e.h != stove, tlb := s.cch.tlb.filter fun e => e.stove != stove }
    core := { s.core with hearths := s.core.hearths.map clear } }

/-- R396 sweepArrayEnd: filing takes fewer than 80,000 cycles. -/
def execSweepArrayEnd (failed : BitVec 17) (s : State) : Host.Outcome State Fault Refusal :=
  .next (if s.sweepOver 3 then
      let d := Config.freeNat s.core.free % 80000
      let s : State := { s with core := { s.core with free := s.core.free + 1 } }
      (s.sweptClean s.svc.sweepStove).modSvc fun v =>
        { v with sweepPhase := 4, sweepDue := s.cycle + d, sweepFailed := v.sweepFailed ||| failed }
    else s)

/-- Retire a position of a stove (R385). -/
def State.retirePosition (s : State) (stove pos : Nat) : State :=
  if s.svc.retired.contains (stove, pos) then s
  else match s.core.hearths.find? fun hr => stoveOf hr.h == stove && hr.present && hr.pos == pos with
    | some hr => s.retireHearth hr.h
    | none => (s.modSvc fun v => { v with retired := v.retired ++ [(stove, pos)] }).file
        { hubRecord 3 0x02 5 with die := stove / 8, stove := stove % 8, pos := pos }

/-- R396 sweepFilingDone: failing positions are retired, the spare first, and the stove returns to placement. -/
def execSweepFilingDone (s : State) : Host.Outcome State Fault Refusal :=
  .next (if s.sweepOver 4 then
      let st := s.svc.sweepStove
      let bad := ((List.range 17).map (16 - ·)).filter fun i => s.svc.sweepFailed.getLsbD i && !(s.svc.retired.contains (st, i))
      let s := bad.foldl (fun s i => s.retirePosition st i) s
      let s := s.file { hubRecord (if bad.isEmpty then 0 else 3) 0x16 8 with die := st / 8, stove := st % 8 }
      s.modSvc fun v => { v with
        sweepPhase := 0, sweepResult := if bad.isEmpty then 0 else 1, withdrawn := v.withdrawn.filter (· != st) }
    else s)

/-! ### Updates (R398 to R400) -/

/-- The fields of an update image's header (R398). -/
def UpdateImage.magic (i : UpdateImage) : Nat := leAt i.header 0 4
def UpdateImage.part (i : UpdateImage) : Nat := leAt i.header 4 1
def UpdateImage.version (i : UpdateImage) : Nat := leAt i.header 8 4
def UpdateImage.svn (i : UpdateImage) : Nat := leAt i.header 12 4
def UpdateImage.length (i : UpdateImage) : Nat := leAt i.header 16 4
def UpdateImage.flags (i : UpdateImage) : W32 := BitVec.ofNat 32 (leAt i.header 20 4)
def UpdateImage.digest (i : UpdateImage) : List Byte := (i.header.drop 64).take 64
def UpdateImage.signature (i : UpdateImage) : List Byte := (i.header.drop 128).take 4627

/-- Every reserved byte of the header is 0. -/
def UpdateImage.reservedZero (i : UpdateImage) : Bool :=
  leAt i.header 5 3 == 0 && leAt i.header 24 40 == 0 && leAt i.header 4755 109 == 0

/-- DIGEST is the SHA3-512 of bytes 0 to 63 and the payload (R398). -/
def UpdateImage.digestOk (i : UpdateImage) : Bool := i.digest == sha3of512 (i.header.take 64 ++ i.body)

/-- SIG is the ML-DSA-87 signature of DIGEST under the root public key (R398). -/
def UpdateImage.signed (i : UpdateImage) : Bool := dsaVerify Config.rootKey i.digest i.signature

/-- What the payload holds for its part, as numbers (log entry 12). -/
def UpdateImage.payload (i : UpdateImage) : List Nat := Config.payloadWords i.part i.body

/-- The image at UPD_ADDR in host memory (R399). -/
def State.updateImage (s : State) : UpdateImage :=
  let header := s.hostRead s.svc.updAddr.toNat 4864
  { header := header, body := s.hostRead (s.svc.updAddr.toNat + 4864) (leAt header 16 4) }

/-- An update image's header breaks R398. -/
def badHeader (i : UpdateImage) : Bool :=
  i.magic != 0x44505542 || !(within 1 7 i.part) || !i.reservedZero || !(within 1 (2 ^ 26) i.length) || i.flags.toNat / 2 != 0

/-- Why an image is refused, none when it is staged (R399). -/
def State.refuseUpdate (s : State) (i : UpdateImage) (flashOk : Bool) : Option Nat :=
  if badHeader i then some 1
  else if !i.digestOk then some 2
  else if !i.signed then some 3
  else if i.svn < s.svc.svns.getD (i.part - 1) 0 then some 4
  else if i.part = 5 && s.core.hearths.any (fun hr => hr.rebuild != 0) then some 5
  else if !flashOk then some 6
  else none

/-- GO: the image at UPD_ADDR is verified and staged, or refused; it is ignored while an update is under way (R399). -/
def State.startUpdate (s : State) (flashOk : Bool) : State :=
  let v := s.svc
  let img := s.updateImage
  if !(v.updState == 0 || v.updState == 4 || v.updState == 5) then s
  else match s.refuseUpdate img flashOk with
    | some r => s.modSvc fun v => { v with updState := 5, updReason := r, update := none }
    | none =>
      let s := s.modSvc fun v => { v with updState := 2, updReason := 0, update := some { image := img, dies := [] } }
      if img.part = 1 then { s with pow := { s.pow with restarting := true } }
      else if img.part = 4 && v.sweepPhase = 1 then (s.modSvc fun v => { v with sweepResult := 2 }).startSweep v.sweepStove
      else s

/-- R399 updateGo. -/
def execUpdateGo (flashOk : Bool) (s : State) : Host.Outcome State Fault Refusal := .next (s.startUpdate flashOk)

/-- A die none of whose hearths has a refill in flight. -/
def State.noRefill (s : State) (die : Nat) : Bool :=
  !(s.core.hearths.any fun hr => dieOf hr.h == die && hr.partitions.any fun q => !q.refills.isEmpty)

/-- A staged update is at its part's point (R400). -/
def State.updateDue (s : State) : Bool :=
  match s.svc.update with
  | none => false
  | some u =>
    if u.image.part = 1 || u.image.part = 6 then s.boundaryDue
    else if u.image.part = 3 then (List.range 4).any fun d => !(u.dies.contains d) && s.noRefill d
    else if u.image.part = 4 then s.svc.sweepPhase == 1
    else true

/-- The update is active: the part's other flash bank is in use, and its SVN is raised when the image says so. -/
def State.updated (s : State) (i : UpdateImage) : State :=
  let n := i.part - 1
  (s.modSvc fun v => { v with
    updState := 4
    update := none
    banks := v.banks.modify n fun b => 1 - b
    versions := v.versions.set n i.version
    svns := if i.flags.getLsbD 0 then v.svns.set n i.svn else v.svns }).file (hubRecord 0 0x16 9)

/-- New prices: the generation steps, and every hearth that holds entries reloads them (R86). -/
def State.newPrices (s : State) (l : List Nat) : State :=
  let prices := (List.range 64).map fun i => l.getD i 0
  let reload : Hearth → Hearth := fun hr =>
    if hr.partitions.isEmpty then hr
    else { hr with rebuild := 1, oldPrices := some (hr.oldPrices.getD ((s.die hr.h).prices, (s.die hr.h).gen)) }
  { s with
    pow := { s.pow with dies := s.pow.dies.map fun d => { d with prices := prices, gen := d.gen + 1 } }
    core := { s.core with hearths := s.core.hearths.map reload } }

/-- The stoker microcode of the first die that is free of refills changes; with the last die the update is active. -/
def State.newMicrocode (s : State) (u : Update) : State :=
  match (List.range 4).find? fun d => !(u.dies.contains d) && s.noRefill d with
  | none => s
  | some d =>
    let s := s.modDie d fun x => { x with rev := x.rev + 1 }
    if u.dies.length = 3 then s.updated u.image
    else s.modSvc fun v => { v with updState := 3, update := some { u with dies := u.dies ++ [d] } }

/-- R400 updateActivate. -/
def execUpdateActivate (s : State) : Host.Outcome State Fault Refusal :=
  .next (match s.svc.update with
    | none => s
    | some u =>
      if !s.updateDue then s
      else if u.image.part = 1 then
        ({ s with pow := { s.pow with restarting := false, heartbeat := true } } : State).updated u.image
      else if u.image.part = 3 then s.newMicrocode u
      else if u.image.part = 5 then (s.newPrices u.image.payload).updated u.image
      else if u.image.part = 7 then
        let t : State := { s with pow := { s.pow with safeCap := u.image.payload.headD s.pow.safeCap } }
        (t.modSvc fun v => { v with
          thresholds := (u.image.payload.drop 1).take 14
          health := some ((u.image.payload.drop 15).map fun x => (x / 17, x % 17)) }).updated u.image
      else s.updated u.image)

/-! ### Registers (R340, R352, R353, R358, R390) -/

/-- The bits of a field that a write of `v` under the byte mask `m` changes. -/
def putField (old v m : W64) (field : Nat) : W64 :=
  let f := m &&& BitVec.ofNat 64 field
  (old &&& ~~~f) ||| (v &&& f)

/-- A control word whose reserved SIZE or count codes a write does not take (log entry 38). -/
def sizeOk (x : W64) (hi lo most : Nat) : Bool := decide (bitsNat x.toNat hi lo ≤ most)

/-- Write a function's admin-queue register (R358). -/
def State.writeAdmin (s : State) (f off : Nat) (v m : W64) : State :=
  match off with
  | 0x1000 => s.modFunc f fun g => { g with asqBase := putField g.asqBase v m 0xFFFFFFFFFFFFF000 }
  | 0x1008 => s.modFunc f fun g => { g with acqBase := putField g.acqBase v m 0xFFFFFFFFFFFFF000 }
  | 0x1010 => s.modFunc f fun g =>
    let x := putField g.aqCtl v m 0xFFFF01FF
    let x := if sizeOk x 3 0 8 then x else putField x g.aqCtl m 0xF
    let x := if sizeOk x 7 4 8 then x else putField x g.aqCtl m 0xF0
    if x.getLsbD 8 && !(g.aqCtl.getLsbD 8) then { g with aqCtl := x, asqHead := 0, acqProd := 0 } else { g with aqCtl := x }
  | 0x1018 => s.modFunc f fun g => { g with asqTail := (putField (g.asqTail.setWidth 64) v m 0xFFFFFFFF).setWidth 32 }
  | _ => s.modFunc f fun g => { g with acqHead := (putField (g.acqHead.setWidth 64) v m 0xFFFFFFFF).setWidth 32 }

/-- Write a register of the page-fault queue (R353). -/
def State.writeFaultQueue (s : State) (f off : Nat) (v m : W64) : State :=
  match off with
  | 0x2000 => s.modFunc f fun g => { g with fqBase := putField g.fqBase v m 0xFFFFFFFFFFFFF000 }
  | 0x2008 => (s.modFunc f fun g =>
    let x := putField g.fqCtl v m 0xFFFF0000001F
    { g with fqCtl := if sizeOk x 3 0 6 then x else putField x g.fqCtl m 0xF }).drainFaults f
  | 0x2018 => (s.modFunc f fun g => { g with fqCons := (putField (g.fqCons.setWidth 64) v m 0xFFFFFFFF).setWidth 32 }).drainFaults f
  | _ => s

/-- Write a register of the counter block (R340, R341). -/
def State.writeCounter (s : State) (f off : Nat) (v m : W64) : State :=
  let n := off % 64 / 8
  s.modFunc f fun g =>
    let sel := g.vcsel.getD n 0
    if off < 0x3040 then { g with vcsel := g.vcsel.set n (putField sel v m 0xFFFF00C00FFF) }
    else if off < 0x3080 then
      (if f != 0 && decide (0x20 ≤ sel.toNat % 256) then g
       else { g with vcval := g.vcval.set n (putField (BitVec.ofNat 64 (g.vcval.getD n 0)) v m 0xFFFFFFFFFFFF).toNat })
    else { g with vcovf := g.vcovf &&& ~~~((v &&& m).setWidth 8) }

/-- Write a word of the MSI-X table; a vector that is unmasked with its bit pending is sent (R358). -/
def State.writeMsix (s : State) (f i : Nat) (v m : W64) : State :=
  let word := putField ((s.func f).msixWord i) v m 0xFFFFFFFFFFFFFFFF
  let s := s.modFunc f fun g => { g with msix := (i, word) :: g.msix.filter fun w => w.1 != i }
  let vec := i / 2
  if i % 2 = 1 && !(word.getLsbD 32) && (s.func f).pba.contains vec then
    (s.modFunc f fun g => { g with pba := g.pba.filter (· != vec) }).raiseIrq f vec
  else s

/-- Write a register of the error and service block (R390, R397). -/
def State.writeService (s : State) (off : Nat) (v m : W64) : State :=
  match off with
  | 0x10000 => s.modSvc fun x => { x with errBase := putField x.errBase v m 0xFFFFFFFFFFFFF000 }
  | 0x10008 => (s.modSvc fun x =>
    let y := putField x.errCtl v m 0xFFFF000000FF
    { x with errCtl := if sizeOk y 3 0 6 then y else putField y x.errCtl m 0xF }).drainRecords
  | 0x10018 => (s.modSvc fun x => { x with errCons := (putField (x.errCons.setWidth 64) v m 0xFFFFFFFF).setWidth 32 }).drainRecords
  | 0x10028 =>
    if s.svc.sweepPhase ≠ 0 then s
    else
      let st := (putField (BitVec.ofNat 64 s.svc.sweepStove) v m 0x1F).toNat
      if (v &&& m).getLsbD 8 then s.startSweep st else s.modSvc fun x => { x with sweepStove := st }
  | 0x10040 => s.modSvc fun x => { x with updAddr := putField x.updAddr v m 0xFFFFFFFFFFFFF000 }
  | 0x10048 => if (v &&& m).getLsbD 8 then s.startUpdate true else s
  | _ => s

/-- Reserved bits of the registers that have a field map (R8); which of R358's unlisted bits count is log entry 99. -/
def reservedOf (off : Nat) : Nat :=
  if off = 0x1010 then 0xFFFFFFFF0000FE00
  else if off = 0x2008 then 0xFFFF000000FFFFE0
  else if off = 0x2020 then 0xFFFFFFFFFFF0FC00
  else if 0x3000 ≤ off && off < 0x3040 then 0xFFFF0000FF3FF000
  else if 0x3040 ≤ off && off < 0x3080 then 0xFFFF000000000000
  else if off = 0x3080 then 0xFFFFFFFFFFFFFF00
  else if off = 0x10008 then 0xFFFF0000FFFFFF00
  else if off = 0x10020 then 0xFFFFFFFFFFFFFF80
  else if off = 0x10028 then 0xFFFF00F0FFFFFEE0
  else if off = 0x10048 then 0xFFFFFF0000FFFEFF
  else if 0x4000 ≤ off && off < 0x5000 && off % 64 = 0 then 0xC
  else 0

/-- CH_STAT of a channel (R371). -/
def Channel.stat (c : Channel) : Nat := 1 + (if c.desync then 2 else 0) + 16 * c.cause + 2 ^ 8 * c.lost +
  (if c.desync && c.copying == 0 then 2 ^ 40 * c.bytes else 0)

/-- SWEEP_CTL and UPD_CTL (R397, R399). -/
def Service.sweepCtl (v : Service) : Nat := v.sweepStove + 2 ^ 32 * v.sweepPhase + 2 ^ 40 * v.sweepResult
def Service.updCtl (v : Service) : Nat := 2 ^ 24 * v.updReason + 2 ^ 32 * v.updState

/-- Read a register of the error and service block (R390). -/
def Service.readReg (v : Service) (off : Nat) : W64 :=
  match off with
  | 0x10000 => v.errBase
  | 0x10008 => v.errCtl
  | 0x10010 => v.errProd.setWidth 64
  | 0x10018 => v.errCons.setWidth 64
  | 0x10020 => v.repl.setWidth 64
  | 0x10028 => BitVec.ofNat 64 v.sweepCtl
  | 0x10040 => v.updAddr
  | 0x10048 => BitVec.ofNat 64 v.updCtl
  | _ => 0

/-- Read a function's queue register (R353, R358). -/
def Func.readReg (g : Func) (off : Nat) : W64 :=
  match off with
  | 0x1000 => g.asqBase
  | 0x1008 => g.acqBase
  | 0x1010 => g.aqCtl
  | 0x1018 => g.asqTail.setWidth 64
  | 0x1020 => g.acqHead.setWidth 64
  | 0x2000 => g.fqBase
  | 0x2008 => g.fqCtl ||| BitVec.ofNat 64 (2 ^ 24 * g.badAns)
  | 0x2010 => g.fqProd.setWidth 64
  | 0x2018 => g.fqCons.setWidth 64
  | _ => 0

/-- Read a register of the counter block; an event of the PF only reads 0 elsewhere (R340, R341). -/
def Func.readCounter (g : Func) (f off : Nat) : W64 :=
  let n := off % 64 / 8
  let sel := g.vcsel.getD n 0
  if off < 0x3040 then sel
  else if off < 0x3080 then
    if f != 0 && decide (0x20 ≤ sel.toNat % 256) then 0 else BitVec.ofNat 64 (g.vcval.getD n 0)
  else g.vcovf.setWidth 64

/-- The 64 bits of the register at `off` of BAR 0, a multiple of 8; reserved fields read 0, a register of the PF reads 0 in a
VF (R8, R358). -/
def State.readBar0 (s : State) (f off : Nat) : W64 :=
  let g := s.func f
  let chan := fun (n : Nat) => ((g.channels.find? fun c => c.ch == n).map Channel.stat).getD 0
  let pend := fun (i : Nat) => ((List.range 64).map fun b => if g.pba.contains (64 * i + b) then 2 ^ b else 0).sum
  let w : W64 :=
    if off = 0 then BitVec.ofNat 64 (0x4812 + 2 ^ 16 * identityNat 0 2 + 2 ^ 32 * f)
    else if off = 8 then BitVec.ofNat 64 s.status
    else if off < 0x3000 then g.readReg off
    else if off < 0x3088 then g.readCounter f off
    else if 0x4000 ≤ off && off < 0x5000 && off % 64 = 0 then BitVec.ofNat 64 (chan ((off - 0x4000) / 64))
    else if 0x8000 ≤ off && off < 0x8000 + 16 * msixCount f then g.msixWord ((off - 0x8000) / 8)
    else if 0x10000 ≤ off && off < 0x10050 && f = 0 then s.svc.readReg off
    else if 0x20000 ≤ off && off < 0x20000 + msixCount f / 8 then BitVec.ofNat 64 (pend ((off - 0x20000) / 8))
    else 0
  w &&& ~~~(BitVec.ofNat 64 (reservedOf off))

/-- A write of `v` under the mask `m` to the register at `off` takes effect. -/
def State.writeBar0 (s : State) (f off : Nat) (v m : W64) : State :=
  let s := if f != 0 && 0x10000 ≤ off && off < 0x20000 then s
    else if v &&& m &&& BitVec.ofNat 64 (reservedOf off) = 0 then s else s.reservedWrite f off (v &&& m)
  if 0x1000 ≤ off && off ≤ 0x1020 then s.writeAdmin f off v m
  else if 0x2000 ≤ off && off < 0x2020 then s.writeFaultQueue f off v m
  else if 0x3000 ≤ off && off < 0x3088 then s.writeCounter f off v m
  else if 0x8000 ≤ off && off < 0x8000 + 16 * msixCount f then s.writeMsix f ((off - 0x8000) / 8) v m
  else if f = 0 && 0x10000 ≤ off && off < 0x10050 then s.writeService off v m
  else s

/-- R358 registerWrite: a 64-bit write, or a 32-bit write to either half. FQ_ANSWER, LOST_CLR, SWEEP_CTL.START and UPD_CTL.GO
act as their own steps do. A value written to an upper half stands at the register's bits 63 to 32, in
DETAIL too (log entry 99). -/
def execRegisterWrite (func off : Nat) (half : Bool) (value : W64) (s : State) : Host.Outcome State Fault Refusal :=
  let hi := half && off % 8 == 4
  let v := if hi then value <<< 32 else value
  let m : W64 := if hi then 0xFFFFFFFF00000000 else if half then 0xFFFFFFFF else 0xFFFFFFFFFFFFFFFF
  let base := off - off % 8
  if base = 0x2020 then execFqAnswer func (v &&& m) s
  else if base = 0x10050 && func = 0 then execLostClr (v &&& m) s
  else .next (s.writeBar0 func base v m)

/-! ### Resets (R331, R362, R385, R395, R401, R409) -/

/-- A function's launches are discarded, resident, queued and saved (R362). -/
def State.discardLaunches (s : State) (f : Nat) : State :=
  let mine := (s.lch.launches.filter fun l => l.func == f).map fun l => l.id
  let s := (s.core.parts.filter fun p => mine.contains p.launch).foldl (fun s p => s.dropPart p) s
  { s with
    lch := { s.lch with launches := s.lch.launches.filter fun l => l.func != f
                        queues := s.lch.queues.filter fun q => q.func != f
                        swapMons := s.lch.swapMons.filter fun m => !(mine.contains m.launch) }
    cch := { s.cch with contribs := s.cch.contribs.filter fun c => !(mine.contains (c.key.headD 0)) } }

/-- A function's registers and counters as at reset; what the PF has given it, its window and its numbers stay. -/
def Func.cleared (g : Func) : Func :=
  { State.freshFunc g.func with
    slice := g.slice, permit := g.permit, nextLaunch := g.nextLaunch, apWorld := g.apWorld, apBase := g.apBase, apLen := g.apLen,
    winErrs := g.winErrs, win := g.win, winOut := g.winOut }

/-- R362 functionLevelReset. -/
def execFunctionLevelReset (func : Nat) (s : State) : Host.Outcome State Fault Refusal :=
  let s := s.discardLaunches func
  let waiting := ((s.func func).faults.flatMap fun x => x.joined.map fun w => (w, x.world, x.acc)) ++
    (s.func func).waiting.map fun r => ((r.id, r.va), r.world, r.acc)
  let s := s.modFunc func fun g => { g with faults := [], waiting := [], channels := [] }
  let s := waiting.foldl (fun (s : State) x => s.hear x.1.1 x.1.2 x.2.1 x.2.2 3) s
  let own := fun (w : Nat) => s.hst.owners.getD w none == some func
  .next { (s.modFunc func Func.cleared) with
    hst := { (s.modFunc func Func.cleared).hst with
      shoots := s.hst.shoots.filter fun x => x.1 != func
      cmd := s.hst.cmd.filter fun c => c.func != func }
    core := { s.core with hearths := s.core.hearths.map fun hr => { hr with owners := hr.owners.filter fun o => !(own o.2) } } }

/-- A hearth after reset, with the retired positions of the health block (R4, R385); of several in one stove the lowest takes
the spare (log entry 98). -/
def bornHearth (retired : List (Nat × Nat)) (h : Nat) : Hearth :=
  let st := stoveOf h
  let bad := (List.range 16).filter fun i => retired.contains (st, i)
  let x := State.freshHearth h
  if !(bad.contains (h % 16)) then x
  else if bad.head? = some (h % 16) && !(retired.contains (st, 16)) then { x with pos := 16 }
  else { x with present := false }

/-- A port after bring-up. -/
def bornPort (ports : BitVec 12) (p : Nat) : Port := { State.freshPort p with dead := !(ports.getLsbD p) }

/-- Replacement reasons whose cause a reset finds, with their units (R395). -/
def bootReasons (b : BootReport) (spare : List (Nat × Nat × Nat × Nat)) (hearths : List Hearth) : List (Nat × Nat) :=
  let full := spare.any fun x => decide (64 ≤ (spare.filter fun y => y.1 == x.1 && y.2.1 == x.2.1 && y.2.2.1 == x.2.2.1).length)
  (if b.copies.any (· == 1) then [(6, 0x18)] else []) ++ (if b.stackMask != 0xFF then [(4, 0x11)] else []) ++
  (if full then [(2, 0x10)] else []) ++ (if hearths.any fun h => !h.present then [(1, 0x02)] else [])

/-- R409 moduleReset: everything but what is in flash and what belongs to the host starts afresh. A block with no good copy
holds the module at L0 (R401). -/
def execModuleReset (b : BootReport) (s : State) : Host.Outcome State Fault Refusal :=
  let v := s.svc
  let retired := v.health.getD v.retired
  let hearths := (List.range Config.hearthCount).map (bornHearth retired)
  let l0 := b.copies.any (· == 0)
  let level := if l0 then 0 else levelFor s.pow.safeCap
  let die := fun (d : Die) => { State.freshDie d.die with
    prices := d.prices, gen := d.gen, rev := d.rev, kats := d.kats, level := level, bulk := levelBulk.getD level 0 }
  let fresh := State.reset
  let t : State := { fresh with
    work := []
    inputs := (s.inputs.filter fun i => decide (s.cycle ≤ i.1)).map fun i => (i.1 - s.cycle, i.2)
    core := { fresh.core with hearths := hearths, free := s.core.free }
    mem := { fresh.mem with host := s.mem.host }
    cch := { fresh.cch with free := s.cch.free }
    hst := { fresh.hst with irqs := s.hst.irqs, ready := !l0 }
    pow := { fresh.pow with dies := s.pow.dies.map die, safeCap := s.pow.safeCap, l0 := l0, turns := 0 }
    svc := { fresh.svc with
      flash := v.flash, retired := retired, spareRows := v.spareRows, thresholds := v.thresholds, svns := v.svns, versions := v.versions, banks := v.banks,
      stackMask := b.stackMask, channels := b.channels, sweepResult := if v.sweepPhase = 0 then 0 else 2 }
    fab := { fresh.fab with ports := (List.range 12).map (bornPort b.ports) } }
  let t := if l0 then t.file (hubRecord 4 0x18 2) else t
  .next ((bootReasons b v.spareRows hearths).foldl (fun t r => t.replace r.1 (hubRecord 5 r.2 7)) t)

/-! ### The hold-off of ring interrupts (R351, R391) -/

/-- A function whose fault ring's hold-off has run out. -/
def State.faultHoldoff (s : State) : Option Func := s.hst.funcs.find? fun g => g.fqIrq != 0 && decide (g.fqIrq ≤ s.cycle)
/-- The error ring's hold-off has run out. -/
def State.errorHoldoff (s : State) : Bool := s.svc.errIrq != 0 && decide (s.svc.errIrq ≤ s.cycle)

/-- R391 interruptHoldoffExpiry: the vector is raised again while records are unconsumed. -/
def execInterruptHoldoffExpiry (s : State) : Host.Outcome State Fault Refusal :=
  .next (if s.errorHoldoff then
      (if s.svc.errProd = s.svc.errCons then s.modSvc fun v => { v with errIrq := 0 }
       else (s.raiseIrq 0 (bitsNat s.svc.errCtl.toNat 47 32)).modSvc fun v => { v with errIrq := s.cycle + 4096 })
    else match s.faultHoldoff with
      | none => s
      | some g =>
        if g.fqProd = g.fqCons then s.modFunc g.func fun g => { g with fqIrq := 0 }
        else (s.raiseIrq g.func (bitsNat g.fqCtl.toNat 47 32)).modFunc g.func fun g => { g with fqIrq := s.cycle + 4096 })

end Sys2Proof.Machine
end

