-- ==== Sys2Proof/Machine/Fabric.lean ====
section
/-! DEFINITION. The Heath fabric (R372 to R377, R394): requests served here, responses, link state, drains and aborts. -/

namespace Sys2Proof.Machine

/-! ### The bytes of a flit (R374) -/

/-- One bit, and one byte, of the CRC-64 of ECMA-182, high bits first (log entry 31). -/
def crc64Bit (c : W64) : W64 := if c.getLsbD 63 then c <<< 1 ^^^ 0x42F0E1EBA9EA3693 else c <<< 1
def crc64Byte (c : W64) (b : Byte) : W64 := (List.range 8).foldl (fun c _ => crc64Bit c) (c ^^^ (b.setWidth 64 <<< 56))
def crc64 (bs : List Byte) : W64 := bs.foldl crc64Byte 0

/-- Bytes 0 to 247 of a flit with its LINK word. -/
def flitBody (f : Flit) (link : W64) : List Byte :=
  natLe 1 f.type.toNat ++ natLe 1 f.vc.toNat ++ natLe 1 f.src ++ natLe 1 f.dst ++ natLe 2 f.tag.toNat ++ natLe 1 f.world ++
  natLe 1 f.op.toNat ++ natLe 8 f.addr.toNat ++ natLe 16 f.mask.toNat ++ (f.data ++ List.replicate 128 0).take 128 ++
  (f.ext ++ List.replicate 80 0).take 80 ++ natLe 8 link.toNat

/-- The 256 bytes of a flit. -/
def flitWire (f : Flit) (link : W64) : List Byte := flitBody f link ++ natLe 8 (crc64 (flitBody f link)).toNat

/-- The flit that 256 bytes are; none where the CRC is wrong. -/
def readFlit (bs : List Byte) : Option Flit :=
  if bs.length ≠ 256 ∨ crc64 (bs.take 248) ≠ BitVec.ofNat 64 (leAt bs 248 8) then none
  else some { type := BitVec.ofNat 8 (leAt bs 0 1), vc := BitVec.ofNat 8 (leAt bs 1 1), src := leAt bs 2 1, dst := leAt bs 3 1,
              tag := BitVec.ofNat 16 (leAt bs 4 2), world := leAt bs 6 1, op := BitVec.ofNat 8 (leAt bs 7 1),
              addr := BitVec.ofNat 64 (leAt bs 8 8), mask := BitVec.ofNat 128 (leAt bs 16 16),
              data := (bs.drop 32).take 128, ext := (bs.drop 160).take 80 }

/-! ### Answers (R373, R374) -/

/-- Change the fabric's state. -/
def State.modFab (s : State) (f : Fabric → Fabric) : State := { s with fab := f s.fab }

/-- A flit has come in (R341). -/
def State.flitCame (s : State) : State := s.modFab fun x => { x with heard := x.heard + 1 }

/-- Send an answer to a request: `n` bytes of data. -/
def State.answer (s : State) (f : Flit) (type : Nat) (bs : List Byte) : State :=
  let r : Flit := { type := BitVec.ofNat 8 type, vc := 1, src := s.fab.device.getD 0, dst := f.src, tag := f.tag, world := f.world,
                    op := f.op, addr := f.addr, mask := LaneMask.build fun i => decide (i < bs.length),
                    data := (bs ++ List.replicate 128 0).take 128, ext := [] }
  s.modFab fun x => { x with out := x.out ++ [r] }

/-- The place a request names, of kind 00. -/
def flitLoc (f : Flit) : Loc := { tgt := 0, dev := 0, pa := f.addr.toNat % 2 ^ 50 }

/-- The request may be served: its world has keys here, and its `n` bytes are installed (R333, R373; log entry 31). -/
def State.serves (s : State) (f : Flit) (n : Nat) : Bool :=
  (s.sec.draw f.world).isSome && s.svc.installed 0 (flitLoc f).pa n

/-- Serve a request on a line whose data can be had; a line that is being fetched once more makes it wait a cycle. -/
def State.serve (s : State) (f : Flit) (again : Instr) (n : Nat) (k : State → State) : State :=
  if !(s.serves f n) then s.answer f 7 []
  else match s.lineState (flitLoc f) s.core.seq f.world with
    | .abort _ => s.answer f 7 []
    | .waits => { (s.modFab fun x => { x with heard := x.heard - 1 }) with inputs := s.inputs ++ [(s.cycle + 1, again)] }
    | .good => k s

/-- R373 flitRead: sectors of 32 bytes from the home. -/
def execFlitRead (f : Flit) (s : State) : Host.Outcome State Fault Refusal :=
  let s := s.flitCame
  let n := 32 * f.op.toNat
  .next (if n = 0 || 128 < n then s.answer f 7 []
    else s.serve f (.flitRead f) n fun s => (s.answer f 4 (s.homeRead (flitLoc f) n)).countLine f.world (homeStove (flitLoc f).pa / 8) (flitLoc f))

/-- R373 flitWrite: the masked bytes of a line reach their home. -/
def execFlitWrite (f : Flit) (s : State) : Host.Outcome State Fault Refusal :=
  let s := s.flitCame
  .next (if !(s.serves f 128) then s.answer f 7 []
    else ((s.homeWriteMask (flitLoc f) (fun i => f.mask.getLsbD i) f.data f.world).countLine f.world (homeStove (flitLoc f).pa / 8)
      (flitLoc f)).answer f 5 [])

/-- The function of an atomic request: the kind and R88's code (log entry 31). -/
def atomicOf (op : Nat) : Option (AccKind × Nat) :=
  if op < 9 then some (.atom, op)
  else if op = 16 then some (.atomCas, 0)
  else if 32 ≤ op && op < 35 then some (.atomFadd, op - 32)
  else if op = 48 then some (.atomOfa, 0)
  else if op = 49 then some (.atomOclose, 0)
  else if op < 50 then none
  else if op < 52 then some (.acq, op - 50)
  else if op < 55 then some (.rel, op - 52)
  else none

/-- The key of a remote contribution: its launch under the device it comes from (R179, log entry 31). -/
def flitKey (f : Flit) : List Nat :=
  [leAt f.ext 16 4 + 2 ^ 40 * (f.src + 1), leAt f.ext 20 4, leAt f.ext 24 1, leAt f.ext 25 1, leAt f.ext 26 1]

/-- R373 flitAtomic: one word at its home. An ordered contribution that its home refuses is answered with no bytes (R181; log
entry 31). -/
def execFlitAtomic (f : Flit) (s : State) : Host.Outcome State Fault Refusal :=
  let s := s.flitCame
  let w := LaneMask.count f.mask
  .next (match atomicOf f.op.toNat with
    | none => s.answer f 7 []
    | some (kind, fn) =>
      if !(w == 4 || w == 8) || f.addr.toNat % w != 0 then s.answer f 7 []
      else s.serve f (.flitAtomic f) w fun s =>
        match s.atomHome kind fn w (flitLoc f) f.world (flitKey f) (leAt f.ext 27 8) (leAt f.ext 0 16) with
        | some (t, old) => t.answer f 6 (natLe 16 old)
        | none => s.answer f 6 [])

/-- R373 flitMonitorArm: a monitor of another device's split at its line's home (R284). -/
def execFlitMonitorArm (f : Flit) (s : State) : Host.Outcome State Fault Refusal :=
  let s := s.flitCame
  .next (if !(s.serves f 1) then s.answer f 7 []
    else
      let r := s.cch.arm (flitLoc f) none (some (f.src, f.tag.toNat))
      ({ s with cch := r.1 } : State).wakeMonitors r.2)

/-! ### Responses (R374, R375, R377) -/

/-- The request that an answer belongs to. -/
def Fabric.asked (x : Fabric) (f : Flit) (type : Nat) : Option Remote :=
  x.remotes.find? fun r => r.tag == f.tag.toNat && r.dst == f.src && r.type == type

/-- A request is no longer outstanding. -/
def State.settleRemote (s : State) (r : Remote) : State := s.modFab fun x => { x with remotes := x.remotes.filter fun q => q.tag != r.tag }

/-- A line of another device is here, or will not come: it enters the L1 that asked for it, its miss entry is free, and who asked
for it or joined goes on (R266, R373). -/
def State.lineCame (s : State) (r : Remote) (bs : List Byte) : State :=
  let loc : Loc := { tgt := 2, dev := r.dst, pa := r.addr }
  let mine := fun (m : Miss) => m.due.isNone && m.tag == r.tag && m.loc == loc
  let miss := s.cch.misses.find? mine
  let s : State := { s with cch := { s.cch with misses := s.cch.misses.filter fun m => !(mine m) } }
  let s := match miss with
    | some m => if bs.isEmpty || m.stale then s else s.installL1 m.h m.world m.vline m.priv loc bs
    | none => s
  ((r.acc, r.lanes) :: r.joins).foldl (fun (s : State) j =>
    let line : FarLine := { acc := j.1, dev := r.dst, addr := r.addr, bytes := bs, since := s.cycle }
    let go := fun (a : Access) => { a with remote := a.remote &&& ~~~j.2 }
    let s := s.modFab fun x => { x with lines := x.lines ++ [line] }
    { s with core := (s.core.modAccess j.1 go).modEng j.1 fun e => if e.wait = 2 then { e with wait := 0 } else e }) s

/-- R374 flitReadResponse. -/
def execFlitReadResponse (f : Flit) (s : State) : Host.Outcome State Fault Refusal :=
  let s := s.flitCame
  .next (match s.fab.asked f 1 with
    | none => s
    | some r => (s.settleRemote r).lineCame r f.data)

/-- R375 flitWriteAck. -/
def execFlitWriteAck (f : Flit) (s : State) : Host.Outcome State Fault Refusal :=
  let s := s.flitCame
  .next (match s.fab.asked f 2 with | none => s | some r => s.settleRemote r)

/-- The request of an op that a rollback has discarded is answered: its rerun takes the answer (R301). -/
def State.toOrphan (s : State) (r : Remote) (f : Access → Access) : State :=
  let put := fun (a : Access) => if a.id == r.acc && a.orphan then let b := f a; { b with remote := b.remote &&& ~~~r.lanes } else a
  { s with core := { s.core with groups := s.core.groups.map fun g => { g with answers := g.answers.map put } } }

/-- An atomic's old word is here (R175, R374). -/
def State.atomicCame (s : State) (r : Remote) (old : Nat) : State :=
  match s.core.accs.find? fun a => a.id == r.acc with
  | none => s.toOrphan r fun a => { a with got := a.got.set (r.lanes.lowest.getD 0) old, done := a.done ||| r.lanes }
  | some a =>
    let n := r.lanes.lowest.getD 0
    let part := (s.core.group? a.h a.slot).bind fun g => s.core.part? g.part
    let fin := ({ a with got := a.got.set n old, done := a.done ||| r.lanes, todo := a.todo &&& ~~~r.lanes, remote := a.remote &&& ~~~r.lanes })
    match a.kind, part with
    | .acq, some p =>
      if (takeObject old (a.func == 1)).isNone then { s with core := s.core.modAccess a.id fun a => { a with remote := 0 } }
      else (s.acquired a p (a.addrs.headD 0) old).settle fin
    | .rel, some _ => (s.given a (a.addrs.headD 0)).settle fin
    | _, some p => (if a.acquires then s.acquire a.h (p.scopeOf a.scope) else s).settle fin
    | _, none => s.settle fin

/-- The lanes of an aborted atomic take MEM_ABORT with reason 3 (R377), those of a refused contribution ORDERED_OVERFLOW (R181). -/
def State.atomicLost (s : State) (r : Remote) (code i1 : Nat) : State :=
  match s.core.accs.find? fun a => a.id == r.acc with
  | none => s.toOrphan r fun a => { a with lost := a.lost ||| r.lanes }
  | some a =>
    let va := (a.addrs.getD (r.lanes.lowest.getD 0) 0).toNat
    let t : State := { s with core := s.core.trapAfter a (a.lanesOf r.lanes) code va i1 s.cycle }
    t.settle { a with todo := a.todo &&& ~~~r.lanes, remote := a.remote &&& ~~~r.lanes }

/-- R374 flitAtomicResponse. -/
def execFlitAtomicResponse (f : Flit) (s : State) : Host.Outcome State Fault Refusal :=
  let s := s.flitCame
  .next (match s.fab.asked f 3 with
    | none => s
    | some r =>
      let s := s.settleRemote r
      if r.acc = 0 then s else if f.mask = 0 then s.atomicLost r trapOrdered 0 else s.atomicCame r (leAt f.data 0 16))

/-- Releases that wait for remote writes (R280, R375). -/
def State.waitingReleases (s : State) : List Access :=
  s.core.accs.filter fun a => a.stage == 1 &&
    match (s.core.group? a.h a.slot).bind fun g => (s.core.part? g.part).map fun p => s.relScope a g p with
    | some sc => decide (5 ≤ sc)
    | none => false

/-- The releases that wait for a write: those of its hearth (R375). -/
def State.awaiting (s : State) (r : Remote) : List Access := s.waitingReleases.filter fun a => a.h + 1 == r.agent

/-- A write aborts: releases that wait on it trap, and one that none awaits is filed (R377). -/
def State.writeLost (s : State) (r : Remote) : State :=
  match s.awaiting r with
  | [] => s.file (remoteAbortRecord r.addr 0xFF)
  | l => l.foldl (fun (s : State) a =>
      { s with core := (s.core.trapAfter a a.mask trapMemAbort 0 3 s.cycle).dropAccess a.id }) s

/-- A swapped split whose monitor is lost is as a resident one would be: READY, or TRAPPED with an event (R258). -/
def SavedPart.loseMonitor (v : SavedPart) (key code cycle : Nat) (x : Ctx) : SavedPart :=
  let mine := fun (e : SplitE) => e.state == .swapped && e.before == .longwait && (e.monitor.map fun m => m.1) == some key
  let lose := fun (e : SplitE) =>
    if !(mine e) then e
    else if code = 0 then { e with monitor := none, before := .ready, beforeArg := 0 }
    else { e with monitor := none, before := .trapped, beforeArg := BitVec.ofNat 32 code }
  let evs := if code = 0 then [] else v.groups.flatMap fun g => ((List.range 4).filter fun n => mine (g.split n)).map fun n =>
    let e := g.split n
    (trapOf code e.mask 0 3).event { x with h := g.h, slot := g.slot, split := n, off := e.waitOff, iter := none } 2 cycle
  { v with part := { v.part with events := v.part.events ++ evs }
           groups := v.groups.map fun g => { g with splits := g.splits.map lose } }

/-- The swapped teams hear that a monitor is lost (R258). -/
def Launching.loseMonitor (l : Launching) (key code cycle : Nat) (x : Ctx) : Launching :=
  { l with launches := l.launches.map fun y => { y with teams := y.teams.map fun t =>
      { t with saved := t.saved.map fun v => v.loseMonitor key code cycle x } } }

/-- A monitor's request aborts: the splits that wait on its line trap. -/
def State.monitorLost (s : State) (r : Remote) (code : Nat) : State :=
  let key := ({ tgt := 2, dev := r.dst, pa := r.addr } : Loc).key
  let s : State := { s with lch := s.lch.loseMonitor key code s.cycle s.core.ctx }
  s.core.groups.foldl (fun s g => (List.range 4).foldl (fun (s : State) n =>
    let e := g.split n
    if (e.monitor.map fun m => m.1) = some key && e.state == .longwait then
      let c := s.core.modSplit g.h g.slot n fun e => { e with monitor := none }
      if code = 0 then { s with core := c.wake g.h g.slot n s.cycle .longwait }
      else { s with core := c.raise g ((trapOf code e.mask 0 3).event { c.ctx with h := g.h, slot := g.slot, split := n, off := e.waitOff, iter := none } 2 s.cycle) }
    else s) s) s

/-- A request aborts (R373, R377). -/
def State.abortRemote (s : State) (r : Remote) : State :=
  let s := s.settleRemote r
  match r.type with
  | 1 => s.lineCame r []
  | 2 => s.writeLost r
  | 3 => if r.acc = 0 then s.writeLost r else s.atomicLost r trapMemAbort 3
  | _ => s.monitorLost r trapMemAbort

/-- R373 flitAbortResponse. -/
def execFlitAbortResponse (f : Flit) (s : State) : Host.Outcome State Fault Refusal :=
  let s := s.flitCame
  .next (match s.fab.remotes.find? fun r => r.tag == f.tag.toNat && r.dst == f.src with
    | none => s
    | some r => s.abortRemote r)

/-- R373 flitMonitorWake: the waiters of the line wake, a swapped team's among them. -/
def execFlitMonitorWake (f : Flit) (s : State) : Host.Outcome State Fault Refusal :=
  let s := s.flitCame
  .next (match s.fab.asked f 10 with
    | none => s
    | some r =>
      let s := (s.settleRemote r).monitorLost r 0
      { s with cch := s.cch.mark { tgt := 2, dev := r.dst, pa := r.addr } })

/-! ### Collectives (R196, R197) -/

/-- An instance turns out faulty: the op that has issued it here fails (R197). -/
def State.collectFault (s : State) (key inst : Nat) : State :=
  match s.fab.collects.find? fun c => c.key == key && c.inst == inst with
  | none => s
  | some c =>
    let s := s.modFab fun x => { x with collects := x.collects.map fun d => if d == c then { d with bad := true } else d }
    match c.eng with
    | some id => { s with core := s.core.modEng id fun e => { e with wait := 0, failed := some (trapReservedField, e.o0) } }
    | none => s

/-- A piece of a block joins its instance of the collective, or a member's notice fails it; members that differ fail, and the others
learn of it (R196, R197). -/
def State.pieceCame (s : State) (f : Flit) : State :=
  let key := leAt f.ext 0 8
  let params := (f.ext.drop 10).take 32
  let inst := leAt f.ext 42 4
  let n := LaneMask.count f.mask
  let piece := (f.src, leAt f.ext 8 2, f.addr.toNat, f.data.take n)
  if inst < s.fab.collCount key then s
  else
    let s := if s.fab.collects.any fun c => c.key == key && c.inst == inst then s
      else s.modFab fun x => { x with collects := x.collects ++ [({ key := key, inst := inst, eng := none, left := none, sent := 0,
                                                                    bad := false, params := params, parts := [] } : Collect)] }
    if f.op = 1 then s.collectFault key inst
    else match s.fab.collects.find? fun c => c.key == key && c.inst == inst with
      | none => s
      | some c =>
        if c.params != params then
          (s.collectFault key inst).tellFault key inst (memberList (leAt params 0 24) ++ memberList (leAt c.params 0 24))
        else
          let s := s.modFab fun x => { x with collects := x.collects.map fun d => if d == c then { d with parts := d.parts ++ [piece] } else d }
          match c.eng with
          | some id => { s with core := s.core.modEng id fun e => if e.wait = 3 then { e with wait := 0 } else e }
          | none => s

/-- After a drain, a collective some member of which cannot be reached fails with MEM_ABORT (R191, R197). -/
def State.failUnreached (s : State) : State :=
  let own := s.fab.device.getD 192
  let lost := s.fab.collects.filter fun c => (memberList (leAt c.params 0 24)).any fun d => d != own && (s.fab.portFor d 0).isNone
  lost.foldl (fun s c => match c.eng with
    | some id => { s with core := s.core.modEng id fun e => { e with wait := 0, failed := some (trapMemAbort, e.o0) } }
    | none => s) s

/-- R196 flitCollectiveData. -/
def execFlitCollectiveData (f : Flit) (s : State) : Host.Outcome State Fault Refusal :=
  let s := s.flitCame
  .next (s.pieceCame f)

/-! ### Links (R376, R377, R394) -/

/-- A link-state update takes effect: it is forwarded on every live port, its port carries no more traffic to its device, and what
is outstanding enters the drain (log entry 31). -/
def State.linkUpdate (s : State) (dev port sn : Nat) : State :=
  let ext := natLe 1 dev ++ natLe 1 port ++ natLe 4 sn
  let live := (s.fab.ports.filter fun p => !p.dead).length
  let f : Flit := { type := 8, vc := 3, src := s.fab.device.getD 0, dst := 0, tag := 0, world := 0, op := 0, addr := 0, mask := 0,
                    data := List.replicate 128 0, ext := ext }
  s.modFab fun x => { x with
    seen := x.seen ++ [(dev, port, sn)]
    out := x.out ++ List.replicate live f
    routes := if x.device = some dev then x.routes else x.routes.modify dev fun m => if bitNat m port then m - 2 ^ port else m
    remotes := x.remotes.map fun r => if r.drain.isNone then { r with drain := some s.cycle } else r
    drains := x.drains ++ [(s.cycle, 0, sn)] }

/-- R376 linkDead: the port is dead, and its update is flooded once. -/
def execLinkDead (port : Nat) (s : State) : Host.Outcome State Fault Refusal :=
  .next (match s.fab.ports[port]? with
    | none => s
    | some p =>
      if p.told then s
      else
        let s := s.modFab fun x => { x with ports := x.ports.modify port fun p => { p with dead := true, told := true } }
        s.linkUpdate (s.fab.device.getD 0) port (s.fab.seen.length % 2 ^ 32))

/-- R376 flitLinkState: an update seen before is not forwarded again. -/
def execFlitLinkState (f : Flit) (s : State) : Host.Outcome State Fault Refusal :=
  let s := s.flitCame
  let u := (leAt f.ext 0 1, leAt f.ext 1 1, leAt f.ext 2 4)
  .next (if s.fab.seen.contains u then s else s.linkUpdate u.1 u.2.1 u.2.2)

/-- A drain whose round ends. -/
def State.drainDone (s : State) : Option (Nat × Nat × Nat) := s.fab.drains.find? fun d => decide (d.1 + 8000 * (d.2.1 + 1) ≤ s.cycle)

/-- R377 drainRoundEnd: after round 3 what is still outstanding aborts; a monitor's split wakes instead (R284). -/
def execDrainRoundEnd (s : State) : Host.Outcome State Fault Refusal :=
  .next (match s.drainDone with
    | none => s
    | some d =>
      if d.2.1 < 2 then s.modFab fun x => { x with drains := x.drains.map fun e => if e == d then (e.1, e.2.1 + 1, e.2.2) else e }
      else
        let late := s.fab.remotes.filter fun r => r.drain == some d.1
        let s := s.modFab fun x => { x with drains := x.drains.erase d }
        (late.foldl (fun s r => if r.type = 10 then (s.settleRemote r).monitorLost r 0 else s.abortRemote r) s).failUnreached)

/-- A request that has been outstanding for 1 ms with no update, or a write to an unreachable device; a monitor has no answer to
wait for. -/
def State.remoteLate (s : State) : Option Remote :=
  s.fab.remotes.find? fun r => (r.drain.isNone || r.port == noPort) && r.type != 10 &&
    decide (r.issued + (if r.port = noPort then 2 else 800000) ≤ s.cycle)

/-- R377 remoteRequestTimeout: it aborts and is filed; a write that had no port is filed when no release awaits it. -/
def execRemoteRequestTimeout (s : State) : Host.Outcome State Fault Refusal :=
  .next (match s.remoteLate with
    | none => s
    | some r => if r.type = 2 && ((s.awaiting r).isEmpty || r.port == noPort) then s.abortRemote r else (s.abortRemote r).file (remoteAbortRecord r.addr 0xFF))

/-- R394 laneSpareRetrain: the port keeps one lane fewer, and dies below six. -/
def execLaneSpareRetrain (port lane : Nat) (s : State) : Host.Outcome State Fault Refusal :=
  let s := s.modFab fun x => x.spareLane port
  .next (s.file { hubRecord 0 0x13 6 with sub := 0x25, subn := port, lane := lane })

/-- R394 portRetrain: a dead port comes back, or fails; after the third failure it stays dead. -/
def execPortRetrain (port : Nat) (ok : Bool) (s : State) : Host.Outcome State Fault Refusal :=
  .next (match s.fab.ports[port]? with
    | none => s
    | some p =>
      if !p.dead || 3 ≤ p.retrains then s
      else if ok then
        s.modFab fun x => { x with ports := x.ports.modify port fun p => { p with dead := false, told := false, lanes := Nat.max 6 p.lanes } }
      else
        let s := s.modFab fun x => { x with ports := x.ports.modify port fun p => { p with retrains := p.retrains + 1 } }
        if p.retrains = 2 then s.replace 3 { hubRecord 5 0x13 7 with sub := 0x25, subn := port } else s)

/-- R374 flitReservedType: discarded and counted. -/
def execFlitReservedType (_f : Flit) (s : State) : Host.Outcome State Fault Refusal :=
  let s := s.flitCame
  .next (s.modFab fun x => { x with linkErrors := x.linkErrors + 1 })

end Sys2Proof.Machine
end

