-- ==== Sys2Proof/Machine/Boundary.lean ====
section
/-! DEFINITION. What happens at a cycle boundary without an op: splits merge and sides come back (R103, R244), joins complete
(R102), barrier phases complete (R117, R118), waits for tags and for other hearths end (R120, R191, R115), and checkpoints are
asked for (R279, R301); and how the cycle ends. -/

namespace Sys2Proof.Machine

/-! ### Merges (R103) -/

/-- A split that may merge: READY, HELD, EMBER or JOIN, and in no sequencer run. -/
def SplitE.mergeable (e : SplitE) : Bool :=
  (e.state == .ready || e.state == .held || e.state == .ember || e.state == .join) && e.seqRun.isNone

/-- Two splits stand together: at one offset, with one top identity or both at depth 0. -/
def SplitE.together (a b : SplitE) : Bool :=
  a.mergeable && b.mergeable && a.offset == b.offset && a.ids.head? == b.ids.head?

/-- The first two splits of a group that merge, the lower number first. -/
def Group.mergePair (g : Group) : Option (Nat × Nat) :=
  [(0, 1), (0, 2), (0, 3), (1, 2), (1, 3), (2, 3)].find? fun q => (g.split q.1).together (g.split q.2)

/-- The later of two cycles, when there is one. -/
def laterOf (a b : Option Nat) : Option Nat :=
  match a, b with
  | some x, some y => some (Nat.max x y)
  | some x, none => some x
  | none, y => y

/-- Split `b` merges into split `a`, which keeps its bank. -/
def Group.merge (g : Group) (a b cycle : Nat) : Group :=
  let x := g.split a
  let y := g.split b
  let both := x.state == .join && y.state == .join
  let keep := both || x.state == .ready
  let joined : SplitE := { x with
    mask := x.mask ||| y.mask
    state := if both then .join else .ready
    age := Nat.max x.age y.age
    waitarg := if both then x.waitarg else 0
    waitstart := if keep then x.waitstart else cycle + 1
    rmask := if x.rmask = LaneMask.all && y.rmask = LaneMask.all then LaneMask.all else (x.rmask &&& x.mask) ||| (y.rmask &&& y.mask)
    noIssue := laterOf x.noIssue y.noIssue
    born := if x.age < y.age then y.born else x.born
    loads := x.loads ++ y.loads
    passBrk := x.passBrk && y.passBrk
    ckptOk := false }
  (g.freeEntry b).modSplit a fun _ => joined

/-- A group of a team that runs. -/
def Core.running (c : Core) (g : Group) : Bool := match c.part? g.part with | some p => p.halt == 0 | none => false

/-- The first merge to be made. -/
def State.mergeDue (s : State) : Option (Group × Nat × Nat) :=
  s.core.groups.findSome? fun g => if s.core.running g then g.mergePair.map fun q => (g, q.1, q.2) else none

/-- R103 splitMerge. -/
def execSplitMerge (s : State) : Host.Outcome State Fault Refusal :=
  .next (match s.mergeDue with
    | none => s
    | some (g, a, b) => { s with core := s.core.putGroup (g.merge a b s.cycle) })

/-! ### Joins that complete, and sides that come back (R102, R244) -/

/-- A split at a join whose identity is present whole. -/
def Group.joinDone (g : Group) : Option (Nat × Nat × LaneMask) :=
  (List.range 4).findSome? fun n =>
    let e := g.split n
    if e.state != .join then none
    else e.ids.head?.bind fun v => (g.ident? v).bind fun i => if i.present = i.owed then some (n, v, i.owed) else none

/-- The context of an access that a split makes of itself. -/
def Core.ctxOf (c : Core) (g : Group) (split : Nat) : Ctx :=
  { c.ctx with h := g.h, slot := g.slot, split := split, off := (g.split split).offset, seq := c.seq }

/-- Joins of a group complete, at most `n` (R102). -/
def Core.joins (c : Core) (h slot cycle : Nat) : Nat → Core
  | 0 => c
  | n + 1 => match c.group? h slot with
    | none => c
    | some g => match g.joinDone with
      | none => c
      | some (sp, v, owed) =>
        let r := g.complete sp v owed
        let g := r.1.modSplit sp fun e => { e.enter cycle .ready 0 with offset := e.waitOff }
        ((c.putGroup g).regionAccess (c.ctxOf g sp) cycle sp .regionRead 1 r.2).joins h slot cycle n

/-- Free entries of a group take its deferred sides, the top one first (R244). -/
def Core.restores (c : Core) (h slot cycle : Nat) : Nat → Core
  | 0 => c
  | n + 1 => match c.group? h slot with
    | none => c
    | some g => match g.sides, g.freeSlot? with
      | _ :: _, some sp =>
        let r := g.restoreTop cycle sp
        ((c.putGroup r.1).regionAccess (c.ctxOf r.1 sp) cycle sp .regionRead 0 r.2).restores h slot cycle n
      | _, _ => c

/-- Every running group settles its joins and its sides. -/
def Core.settleRegions (c : Core) (cycle : Nat) : Core :=
  (c.groups.filter fun g => c.running g).foldl (fun c g => (c.joins g.h g.slot cycle 8).restores g.h g.slot cycle 4) c

/-! ### Barriers (R116 to R118) -/

/-- The groups that a part's barrier counts, each with its part. -/
def Core.barMembers (c : Core) (p : Part) (n : Nat) : List (Part × Group) :=
  let ps := if p.image.stove && decide (8 ≤ n) then c.teamParts p.launch p.team else [p]
  ps.flatMap fun q => (c.groups.filter fun g => g.part == q.id).map fun g => (q, g)

/-- The group's arrival counts now: every lane it has not ended has arrived (R117). -/
def Barrier.arrives (b : Barrier) (key : Nat) (g : Group) : Bool :=
  let a := b.share key
  !a.counted && g.lanesAlive != 0 && g.lanesAlive &&& ~~~a.lanes == 0

/-- A group's arrival is counted. -/
def Barrier.counts (b : Barrier) (key : Nat) : Barrier :=
  { b with arrived := b.arrived + 1, arrivals := b.arrivals.map fun a => if a.group == key then { a with counted := true } else a }

/-- Lanes that arrived a second time arrive in the phase that begins. -/
def Arrival.again' (a : Arrival) (gen : Nat) : Arrival :=
  { a with lanes := a.again.foldl (fun m x => m ||| x.2.1) 0, counted := false,
           last := if a.again.isEmpty then a.last else some gen, again := [] }

/-- A phase completes (R118). -/
def Barrier.next (b : Barrier) (live : Nat) : Barrier :=
  let gen := (b.gen + 1) % 2 ^ 32
  { gen := gen, expect := live, arrived := 0, arrivals := b.arrivals.map fun a => a.again' gen }

/-- The split arrived a second time with bar.syn, and goes on waiting. -/
def Barrier.waitsOn (b : Barrier) (key split : Nat) : Bool := (b.share key).again.any fun x => x.1 == split && x.2.2

/-- Splits of a group that wait at barrier `n`. -/
def Group.atBarrier (g : Group) (n : Nat) : List Nat :=
  (List.range 4).filter fun i => (g.split i).state == .barrier && (g.split i).waitarg.toNat == n

/-- Waiting splits of one group go on, and the handler that stands on it (R118). -/
def State.passBarrier (s : State) (b : Barrier) (n : Nat) (p : Part) (g : Group) : State :=
  let key := barKey p g n
  let go := (g.atBarrier n).filter fun i => !(b.waitsOn key i)
  let own := match p.handler with | some r => r.slot == g.slot && r.wait == (4, BitVec.ofNat 32 n) && !(b.waitsOn key 4) | none => false
  let s := if go.isEmpty && !own then s else s.acquire g.h (barScope p n)
  let c := go.foldl (fun c i => c.wake g.h g.slot i s.cycle .barrier) s.core
  { s with core := if own then c.wake g.h g.slot 4 s.cycle .barrier else c }

/-- One barrier at a cycle boundary: arrivals are counted, each a release, and a full phase completes. -/
def State.barrierStep (s : State) (id n : Nat) : State :=
  match s.core.part? id with
  | none => s
  | some p =>
    let b := p.bars.getD n { gen := 0, expect := 0, arrived := 0, arrivals := [] }
    if p.halt != 0 || (b.arrived == 0 && b.arrivals.all fun a => a.lanes == 0) || s.core.barHome p n != id then s
    else
      let ms := s.core.barMembers p n
      let new := ms.filter fun m => b.arrives (barKey m.1 m.2 n) m.2
      let s := new.foldl (fun (s : State) m => s.release m.2.h (barScope p n)) s
      let b := new.foldl (fun b m => b.counts (barKey m.1 m.2 n)) b
      let put := fun (s : State) (b : Barrier) => ({ s with core := s.core.modPart id fun p => { p with bars := p.bars.set n b } } : State)
      if b.arrived = 0 || b.arrived < b.expect then put s b
      else
        let s := ms.foldl (fun (s : State) m => s.passBarrier b n m.1 m.2) s
        let s := put s (b.next ms.length)
        { s with core := { s.core with parts := s.core.parts.map fun q =>
            if q.launch == p.launch && q.team == p.team then { q with epoch := (q.epoch + 1) % 65536 } else q } }

/-- Every barrier. -/
def State.barrierPass (s : State) : State :=
  s.core.parts.foldl (fun s p => (List.range 16).foldl (fun s n => s.barrierStep p.id n) s) s

/-! ### Waits for tags and for the other hearths (R115, R120, R191) -/

/-- The tags that a WAITARG names. -/
def tagsOf (arg : W32) : List Nat := (List.range 16).filter fun n => bitNat arg.toNat (16 + n)

/-- A wait for tags of a group ends: by a failure, or with every tag complete (R191). -/
inductive TagEnd where
  | waits
  | done
  | failed (tag code off : Nat) (va : W64)
  deriving DecidableEq, Repr

/-- How a wait for tags stands. -/
def Group.tagEnd (g : Group) (arg : W32) : TagEnd :=
  match (tagsOf arg).findSome? fun n => (g.tag n).failed.map fun e => (n, e) with
  | some (n, code, off, va) => .failed n code off va
  | none => if (tagsOf arg).all fun n => (g.tag n).count == 0 then .done else .waits

/-- A LONGWAIT of kind 1 or 5 is a wait for tags. -/
def tagKind (arg : W32) : Bool := arg.toNat % 16 == 1 || arg.toNat % 16 == 5

/-- A waiting op takes the failure of a tag: its rel or fence is over, and the split traps at it. -/
def Core.failWait (c : Core) (g : Group) (split off cycle : Nat) (mask : LaneMask) (tag code toff : Nat) (va : W64) : Core :=
  let mine := fun (a : Access) => a.h == g.h && a.slot == g.slot && a.split == split && a.off == off && (a.kind == .rel || a.kind == .fence)
  let mask := match c.accs.find? mine with | some a => a.mask | none => mask
  let c := { c with accs := c.accs.filter fun a => !(mine a) }
  let c := c.modGroup g.h g.slot fun g => { g with tags := g.tags.modify tag fun t => { t with failed := none } }
  let c := if split = 4 then c else c.modSplit g.h g.slot split fun e => { e.enter cycle .ready 0 with offset := off }
  let x : Ctx := { c.ctx with h := g.h, slot := g.slot, split := split, off := off, iter := none }
  let t : TrapInfo := { code := code, mask := mask, info0 := tag, info1 := toff, info2 := va.toNat, info3 := 0 }
  c.raise g (t.event x 4 cycle)

/-- The tags that a rel or fence names are complete: what is issued onto them later does not hold it back (R186, R189). -/
def Core.tagsMet (c : Core) (h slot split off : Nat) : Core :=
  { c with accs := c.accs.map fun a =>
      if a.h == h && a.slot == slot && a.split == split && a.off == off && (a.kind == .rel || a.kind == .fence) then { a with arg := 0 } else a }

/-- The tag wait of one split, or of the handler (4). -/
def Core.tagWait (c : Core) (h slot split cycle : Nat) : Core :=
  match c.group? h slot with
  | none => c
  | some g => match c.part? g.part with
    | none => c
    | some p =>
      let w : Option (W32 × Nat × LaneMask) := if split = 4 then
          (p.handler.filter fun r => r.slot == slot && r.wait.1 == 6).map fun r => (r.wait.2, r.waitOff, r.lanes)
        else if (g.split split).state == .longwait then some ((g.split split).waitarg, (g.split split).waitOff, (g.split split).mask)
        else none
      match w with
      | none => c
      | some (arg, off, m) =>
        if !(tagKind arg) then c
        else match g.tagEnd arg with
          | .waits => c
          | .done => (c.tagsMet h slot split off).wake h slot split cycle .longwait
          | .failed n code toff va => c.failWait g split off cycle m n code toff va

/-- Every tag wait of the running groups. -/
def Core.tagPass (c : Core) (cycle : Nat) : Core :=
  (c.groups.filter fun g => c.running g).foldl (fun c g => (List.range 5).foldl (fun c n => c.tagWait g.h g.slot n cycle) c) c

/-- Splits of a group that wait in a stove team's chk. -/
def Group.atChk (g : Group) : List Nat :=
  (List.range 4).filter fun i => (g.split i).state == .longwait && (g.split i).waitarg.toNat % 16 == 6

/-- The chk of a stove team goes on when the group of the same number on all 16 hearths has issued its own (R115). -/
def Core.chkPass (c : Core) (cycle : Nat) : Core :=
  (c.groups.filter fun g => !g.atChk.isEmpty).foldl (fun c g =>
    match c.part? g.part with
    | none => c
    | some p =>
      let gs := (c.teamGroups p.launch p.team).filter fun x => x.num == g.num
      if p.halt == 0 && gs.length == 16 && gs.all (fun x => !x.atChk.isEmpty) then
        gs.foldl (fun c x => x.atChk.foldl (fun c i => c.wake x.h x.slot i cycle .longwait) c) c
      else c) c

/-- The handler does not wait for the other hearths. -/
def Part.passChk (p : Part) : Part :=
  { p with handler := p.handler.map fun r => if r.wait.1 = 6 && r.wait.2.toNat % 16 = 6 then { r with wait := (1, 0) } else r }

/-! ### Checkpoints asked for (R15, R115, R279, R301) -/

/-- The tile mask of the chk in a record at an offset that acts on lanes of a mask; none when it holds none. -/
def State.chkAt (s : State) (g : Group) (p : Part) (off : Nat) (m : LaneMask) : Option Nat :=
  let acts := fun (hd : Hdr) => let k := g.pred hd.gpred.toNat; (if hd.gpol then ~~~k else k) &&& m != 0
  match (s.core.hearth? g.h).map fun hr => recordIn hr p off with
  | some (.ok r) => ((s.core.partition? p).bind fun q => q.hit r.idx).bind fun d => (decodeBundle d.word).findSome? fun i =>
      match i.2 with
      | .chk f => if acts f.hdr then some (f.aux.toNat % 16) else none
      | _ => none
  | _ => none

/-- What a wait for a checkpoint asks, as a tile mask: a chk waits for the group's A ops first (R203). -/
def State.chkAsks (s : State) (g : Group) (p : Part) (off : Nat) (m : LaneMask) : Option Nat :=
  match s.chkAt g p off m with
  | some k => if s.core.engs.any fun x => x.h == g.h && x.slot == g.slot then none else some k
  | none => some 0

/-- What a split's wait asks of a checkpoint. -/
def State.splitAsks (s : State) (g : Group) (p : Part) (n : Nat) : Option Nat :=
  let e := g.split n
  if e.state != .held || e.waitarg != 6 || e.ckptOk then none else s.chkAsks g p e.offset (e.mask &&& e.rmask)

/-- What the handler asks of a checkpoint of a group: its next bundle's, or the one its tret waits for (R279, R293). -/
def State.handlerAsks (s : State) (g : Group) (p : Part) : Option Nat :=
  match p.handler with
  | some r =>
    if r.slot != g.slot then none
    else if r.wait == handlerHeld then s.chkAsks g p r.offset r.lanes
    else if r.done && !g.gated.isEmpty then some 0 else none
  | none => none

/-- Something other than a split's next bundle asks for a checkpoint of a group (R279, R354). -/
def State.otherAsks (s : State) (g : Group) (p : Part) : Bool :=
  (!g.gated.isEmpty &&
    (g.lanesAlive == 0 ||
      (s.core.accs.any fun a => a.h == g.h && a.slot == g.slot && a.stage == 0 && needsCheckpoint g a (s.relScope a g p)) ||
      s.hst.shoots.any fun x => x.2.2.1 == p.world && g.gatedIn x.2.2.2.1 x.2.2.2.2.1 x.2.2.2.2.2))

/-- A group asks for its checkpoint at this boundary. -/
def State.askFor (s : State) (g : Group) : State :=
  match s.core.part? g.part with
  | none => s
  | some p =>
    let who := (List.range 4).filter fun n => (s.splitAsks g p n).isSome
    let hand := s.handlerAsks g p
    let asks := (who.filterMap fun n => s.splitAsks g p n) ++ hand.toList
    if p.halt != 0 || g.ckptReq.isSome || (asks.isEmpty && !(s.otherAsks g p)) then s
    else
      let c := s.core.modGroup g.h g.slot fun g => g.askCheckpoint (asks.foldl (· ||| ·) 0) s.core.seq s.cycle who
      { s with core := c.modPart p.id fun p => { p with handler := p.handler.map fun r =>
          if hand.isSome && r.slot = g.slot && r.wait = handlerHeld then { r with wait := handlerAsked } else r } }

/-- Checkpoints asked for at this boundary. -/
def State.askPass (s : State) : State := s.core.groups.foldl State.askFor s

/-! ### Race records (R307) -/

/-- Write the race records of a part to its launch's debug buffer; further ones are counted. -/
def State.writeRaces (s : State) (p : Part) : State :=
  let s : State := { s with core := s.core.modPart p.id fun p => { p with races := [] } }
  p.races.foldl (fun s r =>
    let l := s.lch.launch? p.launch
    let k := (l.map fun l => l.races).getD 0
    let drop : State := { s with lch := s.lch.modLaunch p.launch fun l => { l with dropRaces := l.dropRaces + 1 } }
    if p.dbufn ≤ k then drop
    else match s.putBytes (stoveOf p.h) p.world (p.dbuf + 32 * k) r with
      | .done s => { s with lch := s.lch.modLaunch p.launch fun l => { l with races := l.races + 1 } }
      | _ => drop) s

/-- Every race record of the cycle. -/
def State.racePass (s : State) : State := (s.core.parts.filter fun p => !p.races.isEmpty).foldl State.writeRaces s

/-! ### The boundary -/

/-- Waits that end at a boundary, before splits merge. -/
def State.wakePass (s : State) : State :=
  let s := s.barrierPass
  let c := ((s.core.tagPass s.cycle).chkPass s.cycle).quitRuns s.cycle
  { s with core := { c with parts := c.parts.map Part.passChk } }

/-- What follows the events of a boundary. -/
def State.boundaryPass (s : State) : State :=
  (({ s with core := s.core.settleRegions s.cycle } : State).walkRegions 64).racePass.askPass

/-! ### The end of a cycle (R246, R256, R340) -/

/-- A split's age steps; one made or released in this cycle starts at 0 (R246). -/
def SplitE.older (e : SplitE) (cycle : Nat) : SplitE :=
  if e.state = .free then e
  else
    let fresh := match e.born with | some b => b.2 == cycle | none => false
    { e with age := if fresh then e.age else Nat.min 1023 (e.age + 1), born := none
             noIssue := e.noIssue.filter fun c => decide (cycle < c) }

/-- A team's splits let its wait clock run (R256). -/
def waitsLong (l : List SplitE) : Bool :=
  l.any (fun e => e.state == .barrier || e.state == .longwait) &&
  !(l.any fun e => e.state == .ready || e.state == .held || e.state == .ember)

/-- A part at the end of a cycle. -/
def Part.older (p : Part) (long : Bool) : Part :=
  { p with waitClock := if long then p.waitClock + 1 else 0
           handler := p.handler.map fun r => { r with age := Nat.min 1023 (r.age + 1) } }

/-- The claim of a hearth stands while its split is in EMBER (R255). -/
def Core.keepClaim (c : Core) (hr : Hearth) : Hearth :=
  { hr with
    poolAt := hr.pool
    claim := hr.claim.filter fun x => match c.group? hr.h x.1 with | some g => (g.split x.2).state == .ember | none => false }

/-- The groups of a hearth take the blocks of the checkpoint buffer that their records need, in the order of their slots; one
that finds no free block is full until its checkpoint closes (R300). -/
def takeBlocks : List Group → Nat → List Group
  | [], _ => []
  | g :: l, free =>
    let need := ceilDiv g.ckptBytes 4096 - g.blocks
    let n := if g.full then 0 else Nat.min need free
    { g with blocks := g.blocks + n, full := g.full || decide (n < need) } :: takeBlocks l (free - n)

/-- Every hearth's groups take their blocks. -/
def Core.shareBlocks (c : Core) : Core :=
  let of' := fun (h : Nat) =>
    let gs := (List.range 16).filterMap fun n => c.group? h n
    takeBlocks gs (64 - 2 * gs.length - (gs.map fun g => g.blocks).sum)
  let new := ((c.groups.map fun g => g.h).eraseDups).flatMap of'
  { c with groups := c.groups.map fun g => (new.find? fun x => x.h == g.h && x.slot == g.slot).getD g }

/-- The hearths grow older by a cycle. -/
def Core.older (c : Core) (cycle : Nat) : Core :=
  { c with
    groups := c.groups.map fun g =>
      { g with splits := g.splits.map fun (e : SplitE) => e.older cycle
               sides := g.sides.map fun (d : Side) => { d with born := none } }
    parts := c.parts.map fun p => p.older (waitsLong (c.teamSplits p.launch p.team))
    hearths := c.hearths.map c.keepClaim }

/-- Functions with a split in EMBER on a hearth, each once (R341). -/
def Core.emberWaits (c : Core) : List (Nat × Nat) :=
  ((c.groups.filter fun g => g.splits.any fun e => e.state == .ember).filterMap fun g =>
    (c.part? g.part).map fun p => (p.func, g.h)).eraseDups

/-- A virtual counter that has counted: its value, and whether it has passed 2^48 − 1 (R340). -/
def stepVc (sel : W64) (die ev n x : Nat) : Nat × Bool :=
  let on := sel.getLsbD 22 && sel.toNat % 256 == ev && (die == 7 || bitNat sel.toNat (8 + die))
  if on then ((x + n) % 2 ^ 48, decide (2 ^ 48 ≤ x + n)) else (x, false)

/-- Fold an event into one counter of its function. -/
def State.foldInto (s : State) (f die ev n i : Nat) : State :=
  let g := s.func f
  let sel := g.vcsel.getD i 0
  let r := stepVc sel die ev n (g.vcval.getD i 0)
  let s := s.modFunc f fun g => { g with
    vcval := g.vcval.set i r.1
    vcovf := if r.2 then g.vcovf ||| BitVec.twoPow 8 i else g.vcovf }
  if r.2 && sel.getLsbD 23 then s.raiseIrq f (bitsNat sel.toNat 47 32) else s

/-- Live counts are folded into the functions' counters (R340). -/
def State.foldCounts (s : State) : State :=
  let live := s.core.live ++ s.core.emberWaits.map (fun x => (8 * x.1 + dieOf x.2, 0x04, 1)) ++
    [(7, 0x20, s.fab.out.length - s.fab.counted), (7, 0x21, s.fab.heard)]
  let s : State := { s with
    core := { s.core with live := [] }
    fab := { s.fab with counted := s.fab.out.length, heard := 0 } }
  (live.filter fun e => e.2.2 != 0).foldl (fun s e =>
    (List.range 8).foldl (fun s i => s.foldInto (e.1 / 8) (e.1 % 8) e.2.1 e.2.2 i) s) s

/-- Lines of other devices that no one needs any more are not kept. -/
def State.keepLines (s : State) : List FarLine :=
  s.fab.lines.filter fun x =>
    if x.bytes.isEmpty then decide (s.cycle < x.since + 4)
    else decide (2 ^ 60 ≤ x.acc) || s.core.accs.any (fun a => a.id == x.acc) || s.core.engs.any fun e => e.id == x.acc

/-- What waits for the next cycle goes on. -/
def State.refresh (s : State) : State :=
  let team : Team → Team := fun t => { t with saveWait := freshWait t.saveWait }
  let win : WinReq → WinReq := fun r => { r with wait := freshWait r.wait }
  let chan : Channel → Channel := fun c => if c.copying = 4 then { c with copying := 2 } else c
  let hour : Predict → Predict := fun p => if p.buckets.length < 24 then { p with buckets := 0 :: p.buckets } else p
  { s with
    svc := { s.svc with counters := s.svc.counters.map hour }
    lch := { s.lch with
      queues := s.lch.queues.map fun q => { q with wait := freshWait q.wait }
      launches := s.lch.launches.map fun l => { l with wait := freshWait l.wait, teams := l.teams.map team } }
    hst := { s.hst with funcs := s.hst.funcs.map fun g => { g with win := g.win.map win, channels := g.channels.map chan } }
    cch := { s.cch.freeMisses s.cycle with poison := [] }
    fab := { s.fab with lines := s.keepLines } }

/-- The next cycle begins. -/
def State.tick (s : State) : State :=
  let s := s.foldCounts.refresh
  { s with core := { s.core.shareBlocks.older s.cycle with ports := [], requests := [], doomed := [] }, cycle := s.cycle + 1, phase := 0, work := [] }

end Sys2Proof.Machine
end

