-- ==== Sys2Proof/Machine/Crossbar.lean ====
section
/-! DEFINITION. The X slot: the lane crossbar (R155 to R159). -/

namespace Sys2Proof.Machine

/-- Send a result of the crossbar on its way: end of c + 2, WB2, in the lanes of `m` (R155). -/
def View.putX (v : View) (sq : Bool) (vd : Nat) (act m : LaneMask) (x : Vec) (fl : List (BitVec 5)) : OpResult :=
  .ok (v.sendTo v.st.core 2 sq (some 2) act [v.vwrite vd m x] fl 0)

/-- A 64-bit pair is no literal for the crossbar (R156). -/
def xRouteBad (v : View) : Bool × Nat := (v.route64 .x, routeBit .x)

/-! ### Data movement (R156, R157) -/

/-- A pattern of the kernel: the 128 lane numbers (R68). -/
def View.pattern (v : View) (n : Nat) : List Nat := v.p.pats.getD n []

/-- Reserved values of the static forms (R156). -/
def staticBad (v : View) (f : XsFields) : Option Nat :=
  firstBad [(v.vecBad f.vd.toNat 1, 14), (v.vecBad f.va.toNat 1, 19), (decide (v.p.image.patCount ≤ f.pat.toNat), 24),
    xRouteBad v]

/-- R156 xperm. -/
def execXperm (f : XsFields) (s : State) : Host.Outcome State Fault Refusal :=
  coreOp s fun s => slotOp s .x f.hdr (fun v => staticBad v f) (fun v act =>
    let a := v.vec f.va.toNat
    let p := v.pattern f.pat.toNat
    v.putX f.hdr.sq f.vd.toNat act act (Vec.build fun n => a.lane (p.getD n 0 % 128)) [])

/-- The source lane that pushes into each lane, the highest where several do (R156). -/
def pushSources (act : LaneMask) (dest : Nat → Nat) : List (Option Nat) :=
  act.toList.foldl (fun l s => l.set (dest s) (some s)) (List.replicate lanes none)

/-- A push: the active destinations that a source names are written (R156). -/
def View.push (v : View) (sq : Bool) (vd va : Nat) (act : LaneMask) (dest : Nat → Nat) : OpResult :=
  let a := v.vec va
  let src := pushSources act dest
  v.putX sq vd act (LaneMask.build fun n => act.has n && (src.getD n none).isSome)
    (Vec.build fun n => match src.getD n none with | some s => a.lane s | none => 0) []

/-- R156 xpush. -/
def execXpush (f : XsFields) (s : State) : Host.Outcome State Fault Refusal :=
  coreOp s fun s => slotOp s .x f.hdr (fun v => staticBad v f) (fun v act =>
    let p := v.pattern f.pat.toNat
    v.push f.hdr.sq f.vd.toNat f.va.toNat act fun n => p.getD n 0 % 128)

/-- Reserved values of the general forms: `third` when AUX names a vector register, else its own check (R156). -/
def generalBad (v : View) (f : XFields) (third : Bool) (auxBad : Bool) : Option Nat :=
  firstBad [(v.vecBad f.vd.toNat 1, 14), (v.vecBad f.va.toNat 1, 20),
    (if third then v.vecBad f.aux.toNat 1 else auxBad, 26), xRouteBad v]

/-- Lane number in each lane of the register AUX names, bits [6:0] (R156). -/
def View.laneNums (v : View) (f : XFields) : Nat → Nat :=
  let vi := v.vec f.aux.toNat
  fun n => (vi.lane n).toNat % 128

/-- Destinations named by more than one active source, ascending (R157). -/
def collisions (act : LaneMask) (dest : Nat → Nat) : List Nat :=
  let ds := act.toList.map dest
  (List.range lanes).filter fun d => decide (1 < (ds.filter fun x => x == d).length)

/-- R156, R157 xpushd: a collision traps ILLEGAL_SCHEDULE. -/
def execXpushd (f : XFields) (s : State) : Host.Outcome State Fault Refusal :=
  coreOp s fun s => slotOp s .x f.hdr (fun v => generalBad v f true false) (fun v act =>
    let dest := v.laneNums f
    match collisions act dest with
    | [] => v.push f.hdr.sq f.vd.toNat f.va.toNat act dest
    | d :: ds =>
      .trap (trapOf trapIllegalSchedule (LaneMask.build fun n => act.has n && (d :: ds).contains (dest n)) d 0) 0)

/-- R156 xpushd.hi: the highest colliding source wins. -/
def execXpushdHi (f : XFields) (s : State) : Host.Outcome State Fault Refusal :=
  coreOp s fun s => slotOp s .x f.hdr (fun v => generalBad v f true false) (fun v act =>
    v.push f.hdr.sq f.vd.toNat f.va.toNat act (v.laneNums f))

/-- R156 xpull. -/
def execXpull (f : XFields) (s : State) : Host.Outcome State Fault Refusal :=
  coreOp s fun s => slotOp s .x f.hdr (fun v => generalBad v f true false) (fun v act =>
    let a := v.vec f.va.toNat
    v.putX f.hdr.sq f.vd.toNat act act (Vec.build fun n => a.lane (v.laneNums f n)) [])

/-- A form with a distance n, from AUX or from literal bits [6:0] (R156). -/
def distanceOp (s : State) (f : XFields) (lane : Vec → Nat → Nat → W32) : Core :=
  slotOp s .x f.hdr (fun v => generalBad v f false (v.route32 .x && f.aux != 0)) (fun v act =>
    let a := v.vec f.va.toNat
    let n := if v.route32 .x then (v.literal .x).toNat % 128 else f.aux.toNat
    v.putX f.hdr.sq f.vd.toNat act act (Vec.build fun l => lane a l n) [])

/-- R156 xrot. -/
def execXrot (f : XFields) (s : State) : Host.Outcome State Fault Refusal :=
  coreOp s fun s => distanceOp s f fun a l n => a.lane ((l + 128 - n) % 128)
/-- R156 xbc. -/
def execXbc (f : XFields) (s : State) : Host.Outcome State Fault Refusal :=
  coreOp s fun s => distanceOp s f fun a _ n => a.lane n
/-- R156 xup. -/
def execXup (f : XFields) (s : State) : Host.Outcome State Fault Refusal :=
  coreOp s fun s => distanceOp s f fun a l n => if n ≤ l then a.lane (l - n) else 0
/-- R156 xdn. -/
def execXdn (f : XFields) (s : State) : Host.Outcome State Fault Refusal :=
  coreOp s fun s => distanceOp s f fun a l n => if l + n ≤ 127 then a.lane (l + n) else 0
/-- R156 xbfly. -/
def execXbfly (f : XFields) (s : State) : Host.Outcome State Fault Refusal :=
  coreOp s fun s => distanceOp s f fun a l n => a.lane (l ^^^ n)

/-- Lanes in a block of xtr: 4 × 4 bytes, 2 × 2 halves or 8 × 8 nibbles (R156). -/
def xtrBlock (m : Nat) : Nat := match m with | 0 => 4 | 1 => 2 | _ => 8

/-- R156 xtr. -/
def execXtr (f : XFields) (s : State) : Host.Outcome State Fault Refusal :=
  coreOp s fun s => slotOp s .x f.hdr (fun v => generalBad v f false (decide (2 < f.aux.toNat))) (fun v act =>
    let a := v.vec f.va.toNat
    let b := xtrBlock f.aux.toNat
    v.putX f.hdr.sq f.vd.toNat act act
      (Vec.build fun l => laneOf (32 / b) fun i => elemOf (a.lane (l - l % b + i)) (32 / b) (l % b)) [])

/-! ### Reductions and ballots (R158, R159) -/

/-- Combine two elements: operation 0 add, 1 min, 2 max; type 0 i32, 1 n32, 2 f32, 3 f16, 4 bf16 (R158). -/
def combineX (op typ a b : Nat) : Nat × FlagSet :=
  if typ < 2 then
    let less := if typ = 0 then decide (toSigned 32 a ≤ toSigned 32 b) else decide (a ≤ b)
    (if op = 0 then (a + b) % 2 ^ 32 else if op = 1 then (if less then a else b) else (if less then b else a), 0)
  else
    let F := (floatFmt (typ - 2)).getD f32
    if op = 0 then addFloat F 0 a b else minMax F (op == 2) a b

/-- Element width and elements per lane of a type of R158. -/
def widthX (typ : Nat) : Nat := if typ < 3 then 32 else 16

/-- Combine two values either of which may be absent; flags gather. -/
def combineOpt (op typ : Nat) (a b : Option Nat) : Option Nat × FlagSet :=
  match a, b with
  | none, b => (b, 0)
  | a, none => (a, 0)
  | some x, some y => let r := combineX op typ x y; (some r.1, r.2)

/-- One level of the pairwise tree of xred. -/
def redLevel (op typ : Nat) : List (Option Nat) → List (Option Nat) × FlagSet
  | a :: b :: l =>
    let r := combineOpt op typ a b
    let t := redLevel op typ l
    (r.1 :: t.1, r.2 ||| t.2)
  | l => (l, 0)

/-- The tree of xred, `n` levels. -/
def redTree (op typ : Nat) : Nat → List (Option Nat) → Option Nat × FlagSet
  | 0, l => (l.headD none, 0)
  | n + 1, l =>
    let r := redLevel op typ l
    let t := redTree op typ n r.1
    (t.1, r.2 ||| t.2)

/-- The running combination of xscan, lane by lane. -/
def scanRun (op typ : Nat) : Option Nat → List (Option Nat) → List (Option Nat) × FlagSet
  | _, [] => ([], 0)
  | run, a :: l =>
    let r := combineOpt op typ run a
    let t := scanRun op typ r.1 l
    ((if a.isSome then r.1 else none) :: t.1, r.2 ||| t.2)

/-- Element `i` of each active lane. -/
def streamX (typ : Nat) (act : LaneMask) (a : Vec) (i : Nat) : List (Option Nat) :=
  (List.range lanes).map fun n => if act.has n then some (elemOf (a.lane n) (widthX typ) i) else none

/-- A combining op: each stream gives what its lanes receive and the flags (R158). -/
def combineOp (s : State) (f : XFields) (run : Nat → Nat → List (Option Nat) → List (Option Nat) × FlagSet) : Core :=
  let op := f.aux.toNat / 16
  let typ := f.aux.toNat % 16
  slotOp s .x f.hdr (fun v => generalBad v f false (decide (2 < op) || decide (4 < typ))) (fun v act =>
    let a := v.vec f.va.toNat
    let w := widthX typ
    let rs := (List.range (32 / w)).map fun i => run op typ (streamX typ act a i)
    let fl := rs.foldl (fun acc r => acc ||| r.2) (0 : FlagSet)
    v.putX f.hdr.sq f.vd.toNat act act
      (Vec.build fun n => laneOf w fun i => ((rs.getD i ([], 0)).1.getD n none).getD 0)
      (if 2 ≤ typ then (List.range lanes).map fun n => if act.has n then fl else 0 else []))

/-- R158 xred. -/
def execXred (f : XFields) (s : State) : Host.Outcome State Fault Refusal :=
  coreOp s fun s => combineOp s f fun op typ l =>
    let r := redTree op typ 7 l
    (l.map fun _ => r.1, r.2)
/-- R158 xscan. -/
def execXscan (f : XFields) (s : State) : Host.Outcome State Fault Refusal :=
  coreOp s fun s => combineOp s f fun op typ l => scanRun op typ none l

/-- R159 xbal: no bus, no vector destination. -/
def execXbal (f : XFields) (s : State) : Host.Outcome State Fault Refusal :=
  coreOp s fun s => slotOp s .x f.hdr
    (fun v => firstBad [(decide (16 ≤ f.vd.toNat), 14), (v.vecBad f.va.toNat 1, 20), (f.aux != 0, 26), xRouteBad v])
    (fun v act =>
      let a := v.vec f.va.toNat
      .ok (v.sendTo v.st.core 2 f.hdr.sq none act
        [.pred f.vd.toNat act (LaneMask.build fun n => act.has n && a.lane n != 0)] [] 0))

end Sys2Proof.Machine
end

