-- ==== Sys2Proof/Machine/Special.lean ====
section
/-! DEFINITION. The F slot: ten functions within the error bounds of R153, with the special values and flags of R154. -/

namespace Sys2Proof.Machine

/-! ### Fixed point: integers in units of 2^−512 -/

/-- Fraction bits of the fixed-point evaluations. -/
abbrev fixBits : Nat := 512
/-- ln 2 in fixed point, rounded down. -/
def ln2Fix : Nat := 0xb17217f7d1cf79abc9e3b39803f2f6af40f343267298b62d8a0d175b8baafa2be7b876206debac98559552fb4afa1b10ed2eae35c138214427573b291169b825
/-- 1 / ln 2 in fixed point, rounded down. -/
def log2eFix : Nat := 0x171547652b82fe1777d0ffda0d23a7d11d6aef551bad2b4b1164a2cd9a342648fbc3887eeaa2ed9ac49b25eeb82d7c167d52173cc1895213f897f5e06a7be7366
/-- π in fixed point, rounded down. -/
def piFix : Nat := 0x3243f6a8885a308d313198a2e03707344a4093822299f31d0082efa98ec4e6c89452821e638d01377be5466cf34e90c6cc0ac29b7c97c50dd3f84d5b5b5470917
/-- 2 / √π in fixed point, rounded down. -/
def twoOverRootPi : Nat := 0x120dd750429b6d11ae3a914fed7fd8688281341d7587cea2e7342b06199cc416180eb39f0b24e1e2281806c12d98f35d77a3e9ddc91c394f0e9eedf0efffd84a2

/-- A product in fixed point. -/
def fixMul (a b : Nat) : Nat := (a * b) >>> fixBits
/-- Sum of t^k / k! from term `k` on, `n` terms; `t` is the k-th. -/
def expTerms (x : Nat) : Nat → Nat → Nat → Nat
  | 0, _, _ => 0
  | n + 1, k, t => t + expTerms x n (k + 1) (fixMul t x / (k + 1))
/-- 2^f for a fraction f. -/
def exp2Fix (f : Nat) : Nat := expTerms (fixMul f ln2Fix) 110 0 (2 ^ fixBits)
/-- Alternating sum of terms, each the one before times z over `d k` (`k` counting up), divided by `q k` when added:
the positive and the negative parts. -/
def altTerms (z : Nat) (d q : Nat → Nat) : Nat → Nat → Nat → Nat × Nat
  | 0, _, _ => (0, 0)
  | n + 1, k, t => let r := altTerms z d q n (k + 1) (fixMul t z / d k); (t / q k + r.2, r.1)
/-- Value of an alternating sum. -/
def altSum (z : Nat) (d q : Nat → Nat) (n t : Nat) : Int :=
  let r := altTerms z d q n 0 t
  (r.1 : Int) - r.2
/-- sin of an angle up to π. -/
def sinFix (x : Nat) : Int := altSum (fixMul x x) (fun k => (2 * k + 2) * (2 * k + 3)) (fun _ => 1) 80 x
/-- cos of an angle up to π. -/
def cosFix (x : Nat) : Int := altSum (fixMul x x) (fun k => (2 * k + 1) * (2 * k + 2)) (fun _ => 1) 80 (2 ^ fixBits)
/-- erf of a number up to 8. -/
def erfFix (x : Nat) : Int :=
  altSum (fixMul x x) (fun k => k + 1) (fun k => 2 * k + 1) 400 (fixMul x twoOverRootPi)
/-- Fraction bits of log2 y for y in 1 to 2, most significant first. -/
def logBits : Nat → Nat → Nat → Nat
  | 0, _, acc => acc
  | n + 1, y, acc =>
    let z := fixMul y y
    if 2 ^ (fixBits + 1) ≤ z then logBits n (z / 2) (2 * acc + 1) else logBits n z (2 * acc)
/-- Integer square root, one bit at a time from bit `n` − 1. -/
def sqrtBits (x : Nat) : Nat → Nat → Nat
  | 0, r => r
  | n + 1, r => let r' := r + 2 ^ n; if r' * r' ≤ x then sqrtBits x n r' else sqrtBits x n r
/-- m × 2^e in fixed point, rounded down. -/
def toFix (m : Nat) (e : Int) : Nat :=
  if 0 ≤ e + fixBits then m <<< (e + fixBits).toNat else m >>> (-(e + fixBits)).toNat

/-! ### Function values (R153) -/

/-- What a function gives: a value to be delivered as it stands, one within so many ulps of ±m × 2^e (with whether
that is exact), or one within 2^−22 of a fixed-point number. -/
inductive SfuVal where
  | exactly (v : FVal)
  | within (ulps : Nat) (neg : Bool) (m : Nat) (e : Int) (exact : Bool)
  | absolute (x : Int)
  deriving DecidableEq, Repr

/-- 1 minus less than the last place. -/
def belowOne (ulps : Nat) (neg : Bool) : SfuVal := .within ulps neg (2 ^ 200 - 1) (-200) false

/-- 2^(n + f) for a fixed-point x = n + f, within 2 ulps. -/
def expVal (x : Int) : SfuVal :=
  let u : Int := (2 ^ fixBits : Nat)
  let n := clampInt (-400) 400 (x / u)
  .within 2 false (exp2Fix (x % u).toNat) (n - fixBits) false

/-- e^x for a fixed-point x between −128 and 64, in fixed point. -/
def expFix (x : Int) : Nat :=
  let y := x * log2eFix / (2 ^ fixBits : Nat)
  let u : Int := (2 ^ fixBits : Nat)
  let n := y / u
  let r := exp2Fix (y % u).toNat
  if 0 ≤ n then r <<< n.toNat else r >>> (-n).toNat

/-- A fixed-point number of a sign. -/
def fixSigned (neg : Bool) (m : Nat) (e : Int) : Int := if neg then -(toFix m e : Int) else toFix m e

/-- |x| is at least 2^k. -/
def magAtLeast (m : Nat) (e k : Int) : Bool := m != 0 && decide (k ≤ (m.log2 : Int) + e)

/-- The finite, non-zero x = ±m × 2^e is an integer. -/
def isWhole (m : Nat) (e : Int) : Bool := decide (0 ≤ e) || m % 2 ^ (-e).toNat == 0

/-- The fraction of x turns, in fixed point, for a non-integer x. -/
def turnFrac (m : Nat) (e : Int) : Nat := toFix (m % 2 ^ (-e).toNat) e

/-- sin or cos of r turns for 0 ≤ r < 1. -/
def turnFix (cosine : Bool) (r : Nat) : Int :=
  let half := 2 ^ (fixBits - 1)
  let a := fixMul (2 * piFix) (if half ≤ r then 2 ^ fixBits - r else r)
  if cosine then cosFix a else if half ≤ r then -(sinFix a) else sinFix a

/-- The functions of R153 on a finite non-zero x = ±m × 2^e, past the special values of R154. -/
def sfuVal (fn : Nat) (neg : Bool) (m : Nat) (e : Int) : SfuVal :=
  let pow2 := m == 2 ^ m.log2
  match fn with
  | 1 => if pow2 then .exactly (.fin neg 1 (-(m.log2 : Int) - e))
         else .within 1 neg (2 ^ 120 / m) (-120 - e) false
  | 2 =>
    let odd := e % 2 != 0
    let m' := if odd then 2 * m else m
    let e' := if odd then e - 1 else e
    let r := sqrtBits (2 ^ 240 / m') 121 0
    .within 1 false r (-120 - e' / 2) (r * r * m' == 2 ^ 240)
  | 4 => if magAtLeast m e 10 then .within 2 false 1 (if neg then -400 else 400) false
         else
           let x := fixSigned neg m e
           let n := x / (2 ^ fixBits : Nat)
           if isWhole m e && -149 ≤ n && n ≤ 127 then .exactly (.fin false 1 n) else expVal x
  | 5 =>
    let k := (m.log2 : Int) + e
    if pow2 then .exactly (intToVal k)
    else
      let y := logBits 64 (toFix m (-(m.log2 : Int))) 0
      let x : Int := k * (2 ^ 64 : Nat) + y
      if k = 0 || k = -1 then .absolute (x * (2 ^ (fixBits - 64) : Nat))
      else .within 2 (x < 0) x.natAbs (-64) false
  | 6 => if isWhole m e then .exactly (.fin false 0 0)
         else .absolute (let y := turnFix false (turnFrac m e); if neg then -y else y)
  | 7 => if isWhole m e then .exactly (.fin false 1 0) else .absolute (turnFix true (turnFrac m e))
  | 8 => if magAtLeast m e 4 then belowOne 2 neg
         else
           let x := expFix (2 * toFix m e)
           .within 2 neg (((x - 2 ^ fixBits) <<< fixBits) / (x + 2 ^ fixBits)) (-fixBits) false
  | 9 => if magAtLeast m e 6 then
           (if neg then (if magAtLeast m e 7 then .within 2 false 1 (-400) false
                         else let x := expFix (fixSigned true m e); .within 2 false ((x <<< fixBits) / (x + 2 ^ fixBits)) (-fixBits) false)
            else belowOne 2 false)
         else
           let x := expFix (fixSigned neg m e)
           .within 2 false ((x <<< fixBits) / (x + 2 ^ fixBits)) (-fixBits) false
  | _ => if magAtLeast m e 3 then belowOne 2 neg
         else .within 2 neg (erfFix (toFix m e)).toNat (-fixBits) false

/-! ### Delivery -/

/-- An exact or internal F32 value rounded to the destination; the flags it raises are those of an overflow (frcp,
fexp2) and of a tiny result that FTZ flushes (R44, R153, R154). -/
def sfuRound (F : FloatFmt) (ftz : Bool) (v : FVal) : Nat × FlagSet :=
  match v with
  | .fin neg m e =>
    let r := roundFin F 0 ftz false neg m e false
    if r.2 &&& flagOF != 0 then (r.1, flagOF ||| flagNX)
    else if ftz && r.2 &&& flagUF != 0 && r.1 % 2 ^ (F.mbits + F.ebits) == 0 then (r.1, flagUF ||| flagNX)
    else (r.1, 0)
  | v => deliver F 0 false false v

/-- F32 encodings within so many ulps of m × 2^e, the ulp being that of the exact result; without `exact` the exact result lies
strictly between m × 2^e and (m + 1) × 2^e. The encoding after the largest finite one stands for 2^128 (R153). -/
def ulpChoices (ulps m : Nat) (e : Int) (exact : Bool) : List Nat :=
  let g := (roundFin f32 1 false false false m e (!exact)).1
  let q : Int := (m.log2 : Int) + e - 23
  let q : Int := if q < -149 then -149 else q
  let e0 : Int := if e < -149 then e else -149
  let x : Int := FVal.scaled (.fin false m e) e0
  let top : Int := if exact then x else FVal.scaled (.fin false (m + 1) e) e0
  let u : Int := ulps * FVal.scaled (.fin false 1 q) e0
  ((List.range (3 * ulps + 3)).map fun i => g + ulps - i).eraseDups.filter fun n =>
    let y : Int := if n = maxEnc f32 + 1 then FVal.scaled (.fin false 1 128) e0 else FVal.scaled (unpack f32 n) e0
    decide (n ≤ maxEnc f32 + 1) && (if exact then decide (x - u ≤ y) && decide (y ≤ x + u) else decide (x - u < y) && decide (y < top + u))

/-- A result the spec bounds and does not fix: the free choice of the unit, by function, format and operand bits,
within the bound (R153, log entry 10). -/
def sfuDeliver (F : FloatFmt) (ftz : Bool) (pick : Nat) (v : SfuVal) : Nat × FlagSet :=
  match v with
  | .exactly x => sfuRound F ftz x
  | .within ulps neg m e exact =>
    if (roundFin f32 3 false false false m e (!exact)).2 &&& flagOF != 0 then
      (infEnc F neg, flagOF ||| flagNX)
    else
      let l := ulpChoices ulps m e exact
      let n := l.getD (pick % l.length) 0
      if maxEnc f32 < n then (infEnc F neg, flagOF ||| flagNX)
      else sfuRound F ftz (unpack f32 (signBit f32 neg + n))
  | .absolute x =>
    let off : Int := ((pick % (2 ^ 21 - 1) : Nat) : Int) - (2 ^ 20 - 1 : Nat)
    let y := x + off * (2 ^ (fixBits - 42) : Nat)
    let r := roundFin f32 (if 0 < off then 2 else 3) false false (y < 0) y.natAbs (-fixBits) false
    sfuRound F ftz (unpack f32 r.1)

/-- Correctly rounded square root of a positive finite number (R153). -/
def sqrtDeliver (F : FloatFmt) (rm : RMode) (ftz : Bool) (m : Nat) (e : Int) : Nat × FlagSet :=
  let odd := e % 2 != 0
  let m' := (if odd then 2 * m else m) <<< 80
  let e' := if odd then e - 1 else e
  let r := sqrtBits m' 60 0
  roundFin F rm ftz false false r (e' / 2 - 40) (r * r != m')

/-- One element of an F op: the special values of R154, else the function (R153). -/
def sfuElem (fn code : Nat) (rm : RMode) (ftz : Bool) (x0 : Nat) : Nat × FlagSet :=
  let F := (floatFmt code).getD f32
  let x := flushIn F ftz x0
  let inf := fun neg => (infEnc F neg, (0 : FlagSet))
  let num := fun neg m e => sfuRound F ftz (.fin neg m e)
  let iv := (canonNaN F, flagIV)
  match unpack F x with
  | .nan sig => (canonNaN F, if sig then flagIV else 0)
  | .inf neg =>
    match fn with
    | 1 => num neg 0 0
    | 2 => if neg then iv else num false 0 0
    | 3 => if neg then iv else inf false
    | 4 => if neg then num false 0 0 else inf false
    | 5 => if neg then iv else inf false
    | 6 => iv
    | 7 => iv
    | 9 => if neg then num false 0 0 else num false 1 0
    | _ => num neg 1 0
  | .fin neg m e =>
    if m = 0 then
      match fn with
      | 1 => (infEnc F neg, flagDZ)
      | 2 => (infEnc F neg, flagDZ)
      | 4 => num false 1 0
      | 5 => (infEnc F true, flagDZ)
      | 7 => num false 1 0
      | 9 => num false 1 (-1)
      | _ => num neg 0 0
    else if neg && (fn == 2 || fn == 3 || fn == 5) then iv
    else if fn = 3 then sqrtDeliver F rm ftz m e
    else if fn = 1 && m.log2 + e < (if F.ebits = 5 then -16 else -128) then (infEnc F neg, flagOF ||| flagNX)
    else
      let r := sfuDeliver F ftz (Config.sfuBits fn code x) (sfuVal fn neg m e)
      if fn = 4 && !(isWhole m e) && r.1 / 2 ^ F.mbits % 2 ^ F.ebits = 0 then (r.1, r.2 ||| flagUF ||| flagNX) else r

/-! ### The ops -/

/-- An F op: a function per element, landing at the end of c + 11 on WB1 (R153). -/
def sfuOp (s : State) (f : FFields) (fn : Nat) : Core :=
  slotOp s .f f.hdr
    (fun v => firstBad [(v.vecBad f.vd.toNat 1, 14), (v.vecBad f.va.toNat 1, 20), (decide (2 < f.fmt.toNat), 26),
      (f.rsv, 31)])
    (fun v act =>
      let a := v.vec f.va.toNat
      let w := fmtWidth f.fmt.toNat
      let rs := lanesOut act fun n => perElem w fun i =>
        flagElem (sfuElem fn f.fmt.toNat (v.g.fctl.toNat % 4) v.ftz (elemOf (a.lane n) w i))
      .ok (v.sendTo v.st.core 11 f.hdr.sq (some 1) act [v.vwrite f.vd.toNat act (rs.map fun r => r.1.getD 0 0)]
        (rs.map fun r => r.2.1) 0))

/-- R153 frcp: 1 / x. -/
def execFrcp (f : FFields) (s : State) : Host.Outcome State Fault Refusal :=
  coreOp s fun s => sfuOp s f 1
/-- R153 frsq: 1 / √x. -/
def execFrsq (f : FFields) (s : State) : Host.Outcome State Fault Refusal :=
  coreOp s fun s => sfuOp s f 2
/-- R153 fsqrt: √x. -/
def execFsqrt (f : FFields) (s : State) : Host.Outcome State Fault Refusal :=
  coreOp s fun s => sfuOp s f 3
/-- R153 fexp2: 2^x. -/
def execFexp2 (f : FFields) (s : State) : Host.Outcome State Fault Refusal :=
  coreOp s fun s => sfuOp s f 4
/-- R153 flog2: log2 x. -/
def execFlog2 (f : FFields) (s : State) : Host.Outcome State Fault Refusal :=
  coreOp s fun s => sfuOp s f 5
/-- R153 fsin: sin 2πx. -/
def execFsin (f : FFields) (s : State) : Host.Outcome State Fault Refusal :=
  coreOp s fun s => sfuOp s f 6
/-- R153 fcos: cos 2πx. -/
def execFcos (f : FFields) (s : State) : Host.Outcome State Fault Refusal :=
  coreOp s fun s => sfuOp s f 7
/-- R153 ftanh: tanh x. -/
def execFtanh (f : FFields) (s : State) : Host.Outcome State Fault Refusal :=
  coreOp s fun s => sfuOp s f 8
/-- R153 fsig: 1 / (1 + e^−x). -/
def execFsig (f : FFields) (s : State) : Host.Outcome State Fault Refusal :=
  coreOp s fun s => sfuOp s f 9
/-- R153 ferf: erf x. -/
def execFerf (f : FFields) (s : State) : Host.Outcome State Fault Refusal :=
  coreOp s fun s => sfuOp s f 10

end Sys2Proof.Machine
end

