-- ==== Sys2Proof/Machine/Dispatch.lean ====
section
/-! DEFINITION. What each step of the part does: one arm per constructor, each a call of its meaning. -/

namespace Sys2Proof.Machine

/-- Carry out one step of the part. -/
def exec (i : Instr) (s : State) : Host.Outcome State Fault Refusal :=
  match i with
  | .br f => Sys2Proof.Machine.execBr f s
  | .brc f => Sys2Proof.Machine.execBrc f s
  | .bri f => Sys2Proof.Machine.execBri f s
  | .brd f => Sys2Proof.Machine.execBrd f s
  | .brx f => Sys2Proof.Machine.execBrx f s
  | .call f => Sys2Proof.Machine.execCall f s
  | .callScalar f => Sys2Proof.Machine.execCallScalar f s
  | .ret f => Sys2Proof.Machine.execRet f s
  | .join f => Sys2Proof.Machine.execJoin f s
  | .brk f => Sys2Proof.Machine.execBrk f s
  | .brkScalar f => Sys2Proof.Machine.execBrkScalar f s
  | .exit f => Sys2Proof.Machine.execExit f s
  | .trap f => Sys2Proof.Machine.execTrap f s
  | .tret f => Sys2Proof.Machine.execTret f s
  | .seq f => Sys2Proof.Machine.execSeq f s
  | .seqx f => Sys2Proof.Machine.execSeqx f s
  | .swp f => Sys2Proof.Machine.execSwp f s
  | .chk f => Sys2Proof.Machine.execChk f s
  | .barArr f => Sys2Proof.Machine.execBarArr f s
  | .barWt f => Sys2Proof.Machine.execBarWt f s
  | .barSyn f => Sys2Proof.Machine.execBarSyn f s
  | .waitT f => Sys2Proof.Machine.execWaitT f s
  | .wmon f => Sys2Proof.Machine.execWmon f s
  | .yld f => Sys2Proof.Machine.execYld f s
  | .spawn f => Sys2Proof.Machine.execSpawn f s
  | .dbg f => Sys2Proof.Machine.execDbg f s
  | .add f => Sys2Proof.Machine.execAdd f s
  | .sub f => Sys2Proof.Machine.execSub f s
  | .mul f => Sys2Proof.Machine.execMul f s
  | .mulh f => Sys2Proof.Machine.execMulh f s
  | .and f => Sys2Proof.Machine.execAnd f s
  | .or f => Sys2Proof.Machine.execOr f s
  | .xor f => Sys2Proof.Machine.execXor f s
  | .shl f => Sys2Proof.Machine.execShl f s
  | .shr f => Sys2Proof.Machine.execShr f s
  | .sar f => Sys2Proof.Machine.execSar f s
  | .rot f => Sys2Proof.Machine.execRot f s
  | .min f => Sys2Proof.Machine.execMin f s
  | .max f => Sys2Proof.Machine.execMax f s
  | .minn f => Sys2Proof.Machine.execMinn f s
  | .maxn f => Sys2Proof.Machine.execMaxn f s
  | .cmp f => Sys2Proof.Machine.execCmp f s
  | .sel f => Sys2Proof.Machine.execSel f s
  | .mov f => Sys2Proof.Machine.execMov f s
  | .li f => Sys2Proof.Machine.execLi f s
  | .lea f => Sys2Proof.Machine.execLea f s
  | .clz f => Sys2Proof.Machine.execClz f s
  | .ctz f => Sys2Proof.Machine.execCtz f s
  | .popc f => Sys2Proof.Machine.execPopc f s
  | .brev f => Sys2Proof.Machine.execBrev f s
  | .bfx f => Sys2Proof.Machine.execBfx f s
  | .bfi f => Sys2Proof.Machine.execBfi f s
  | .sext f => Sys2Proof.Machine.execSext f s
  | .zext f => Sys2Proof.Machine.execZext f s
  | .csrRd f => Sys2Proof.Machine.execCsrRd f s
  | .csrWr f => Sys2Proof.Machine.execCsrWr f s
  | .csrSet f => Sys2Proof.Machine.execCsrSet f s
  | .csrClr f => Sys2Proof.Machine.execCsrClr f s
  | .kset f => Sys2Proof.Machine.execKset f s
  | .kand f => Sys2Proof.Machine.execKand f s
  | .kor f => Sys2Proof.Machine.execKor f s
  | .kxor f => Sys2Proof.Machine.execKxor f s
  | .knot f => Sys2Proof.Machine.execKnot f s
  | .kpop f => Sys2Proof.Machine.execKpop f s
  | .kfirst f => Sys2Proof.Machine.execKfirst f s
  | .vadd f => Sys2Proof.Machine.execVadd f s
  | .vsub f => Sys2Proof.Machine.execVsub f s
  | .vmul f => Sys2Proof.Machine.execVmul f s
  | .vfma f => Sys2Proof.Machine.execVfma f s
  | .vfms f => Sys2Proof.Machine.execVfms f s
  | .vfnma f => Sys2Proof.Machine.execVfnma f s
  | .vmin f => Sys2Proof.Machine.execVmin f s
  | .vmax f => Sys2Proof.Machine.execVmax f s
  | .vabs f => Sys2Proof.Machine.execVabs f s
  | .vneg f => Sys2Proof.Machine.execVneg f s
  | .vcpys f => Sys2Proof.Machine.execVcpys f s
  | .vcmp f => Sys2Proof.Machine.execVcmp f s
  | .vclass f => Sys2Proof.Machine.execVclass f s
  | .vcvt f => Sys2Proof.Machine.execVcvt f s
  | .vrnd f => Sys2Proof.Machine.execVrnd f s
  | .vldexp f => Sys2Proof.Machine.execVldexp f s
  | .vdot2 f => Sys2Proof.Machine.execVdot2 f s
  | .vdot4 f => Sys2Proof.Machine.execVdot4 f s
  | .vdot8 f => Sys2Proof.Machine.execVdot8 f s
  | .viadd f => Sys2Proof.Machine.execViadd f s
  | .visub f => Sys2Proof.Machine.execVisub f s
  | .vimul f => Sys2Proof.Machine.execVimul f s
  | .vimulh f => Sys2Proof.Machine.execVimulh f s
  | .vimad f => Sys2Proof.Machine.execVimad f s
  | .vabsd f => Sys2Proof.Machine.execVabsd f s
  | .vimin f => Sys2Proof.Machine.execVimin f s
  | .vimax f => Sys2Proof.Machine.execVimax f s
  | .vicmp f => Sys2Proof.Machine.execVicmp f s
  | .vsadd f => Sys2Proof.Machine.execVsadd f s
  | .vssub f => Sys2Proof.Machine.execVssub f s
  | .vshl f => Sys2Proof.Machine.execVshl f s
  | .vshr f => Sys2Proof.Machine.execVshr f s
  | .vsar f => Sys2Proof.Machine.execVsar f s
  | .vand f => Sys2Proof.Machine.execVand f s
  | .vor f => Sys2Proof.Machine.execVor f s
  | .vxor f => Sys2Proof.Machine.execVxor f s
  | .vnot f => Sys2Proof.Machine.execVnot f s
  | .vpopc f => Sys2Proof.Machine.execVpopc f s
  | .vclz f => Sys2Proof.Machine.execVclz f s
  | .vbrev f => Sys2Proof.Machine.execVbrev f s
  | .vbfx f => Sys2Proof.Machine.execVbfx f s
  | .vbfi f => Sys2Proof.Machine.execVbfi f s
  | .vsel f => Sys2Proof.Machine.execVsel f s
  | .vmov f => Sys2Proof.Machine.execVmov f s
  | .vmovi f => Sys2Proof.Machine.execVmovi f s
  | .vs2v f => Sys2Proof.Machine.execVs2v f s
  | .vext f => Sys2Proof.Machine.execVext f s
  | .vlane f => Sys2Proof.Machine.execVlane f s
  | .vgid f => Sys2Proof.Machine.execVgid f s
  | .vwid f => Sys2Proof.Machine.execVwid f s
  | .vnar f => Sys2Proof.Machine.execVnar f s
  | .vpack f => Sys2Proof.Machine.execVpack f s
  | .vunpk f => Sys2Proof.Machine.execVunpk f s
  | .vqz f => Sys2Proof.Machine.execVqz f s
  | .vdq f => Sys2Proof.Machine.execVdq f s
  | .frcp f => Sys2Proof.Machine.execFrcp f s
  | .frsq f => Sys2Proof.Machine.execFrsq f s
  | .fsqrt f => Sys2Proof.Machine.execFsqrt f s
  | .fexp2 f => Sys2Proof.Machine.execFexp2 f s
  | .flog2 f => Sys2Proof.Machine.execFlog2 f s
  | .fsin f => Sys2Proof.Machine.execFsin f s
  | .fcos f => Sys2Proof.Machine.execFcos f s
  | .ftanh f => Sys2Proof.Machine.execFtanh f s
  | .fsig f => Sys2Proof.Machine.execFsig f s
  | .ferf f => Sys2Proof.Machine.execFerf f s
  | .xperm f => Sys2Proof.Machine.execXperm f s
  | .xpush f => Sys2Proof.Machine.execXpush f s
  | .xpushd f => Sys2Proof.Machine.execXpushd f s
  | .xpushdHi f => Sys2Proof.Machine.execXpushdHi f s
  | .xpull f => Sys2Proof.Machine.execXpull f s
  | .xrot f => Sys2Proof.Machine.execXrot f s
  | .xbc f => Sys2Proof.Machine.execXbc f s
  | .xup f => Sys2Proof.Machine.execXup f s
  | .xdn f => Sys2Proof.Machine.execXdn f s
  | .xbfly f => Sys2Proof.Machine.execXbfly f s
  | .xtr f => Sys2Proof.Machine.execXtr f s
  | .xred f => Sys2Proof.Machine.execXred f s
  | .xscan f => Sys2Proof.Machine.execXscan f s
  | .xbal f => Sys2Proof.Machine.execXbal f s
  | .ldG f => Sys2Proof.Machine.execLdG f s
  | .stG f => Sys2Proof.Machine.execStG f s
  | .ldSc f => Sys2Proof.Machine.execLdSc f s
  | .stSc f => Sys2Proof.Machine.execStSc f s
  | .ldSp f => Sys2Proof.Machine.execLdSp f s
  | .stSp f => Sys2Proof.Machine.execStSp f s
  | .satom f => Sys2Proof.Machine.execSatom f s
  | .ldPv f => Sys2Proof.Machine.execLdPv f s
  | .stPv f => Sys2Proof.Machine.execStPv f s
  | .ldMd f => Sys2Proof.Machine.execLdMd f s
  | .ldGs f => Sys2Proof.Machine.execLdGs f s
  | .atom f => Sys2Proof.Machine.execAtom f s
  | .atomCas f => Sys2Proof.Machine.execAtomCas f s
  | .atomFadd f => Sys2Proof.Machine.execAtomFadd f s
  | .atomOfa f => Sys2Proof.Machine.execAtomOfa f s
  | .atomOclose f => Sys2Proof.Machine.execAtomOclose f s
  | .pf f => Sys2Proof.Machine.execPf f s
  | .bind f => Sys2Proof.Machine.execBind f s
  | .unbind f => Sys2Proof.Machine.execUnbind f s
  | .acq f => Sys2Proof.Machine.execAcq f s
  | .rel f => Sys2Proof.Machine.execRel f s
  | .fence f => Sys2Proof.Machine.execFence f s
  | .cpGs f => Sys2Proof.Machine.execCpGs f s
  | .cpSg f => Sys2Proof.Machine.execCpSg f s
  | .cpGg f => Sys2Proof.Machine.execCpGg f s
  | .cpMs f => Sys2Proof.Machine.execCpMs f s
  | .gth f => Sys2Proof.Machine.execGth f s
  | .sct f => Sys2Proof.Machine.execSct f s
  | .collBc f => Sys2Proof.Machine.execCollBc f s
  | .collRed f => Sys2Proof.Machine.execCollRed f s
  | .collAg f => Sys2Proof.Machine.execCollAg f s
  | .collA2a f => Sys2Proof.Machine.execCollA2a f s
  | .tnWr f => Sys2Proof.Machine.execTnWr f s
  | .tnRd f => Sys2Proof.Machine.execTnRd f s
  | .tnLd f => Sys2Proof.Machine.execTnLd f s
  | .sqLd f => Sys2Proof.Machine.execSqLd f s
  | .sqDrp f => Sys2Proof.Machine.execSqDrp f s
  | .qInit f => Sys2Proof.Machine.execQInit f s
  | .qAdvp f => Sys2Proof.Machine.execQAdvp f s
  | .qAdvc f => Sys2Proof.Machine.execQAdvc f s
  | .qWt f => Sys2Proof.Machine.execQWt f s
  | .tagTst f => Sys2Proof.Machine.execTagTst f s
  | .mma f => Sys2Proof.Machine.execMma f s
  | .mmaQ f => Sys2Proof.Machine.execMmaQ f s
  | .mmaSp f => Sys2Proof.Machine.execMmaSp f s
  | .mmaSt f => Sys2Proof.Machine.execMmaSt f s
  | .accZ f => Sys2Proof.Machine.execAccZ f s
  | .accLd f => Sys2Proof.Machine.execAccLd f s
  | .accSt f => Sys2Proof.Machine.execAccSt f s
  | .accCvt f => Sys2Proof.Machine.execAccCvt f s
  | .accMv f => Sys2Proof.Machine.execAccMv f s
  | .accAdd f => Sys2Proof.Machine.execAccAdd f s
  | .kat f => Sys2Proof.Machine.execKat f s
  | .computeError h slot unit covered => Sys2Proof.Machine.execComputeError h slot unit covered s
  | .rerunCompare h slot runs => Sys2Proof.Machine.execRerunCompare h slot runs s
  | .macCheckFail read => Sys2Proof.Machine.execMacCheckFail read s
  | .macRefetchDone line image => Sys2Proof.Machine.execMacRefetchDone line image s
  | .uncorrectableData line dirty unit => Sys2Proof.Machine.execUncorrectableData line dirty unit s
  | .correctedError e => Sys2Proof.Machine.execCorrectedError e s
  | .rowSpareSwitch die region bank row => Sys2Proof.Machine.execRowSpareSwitch die region bank row s
  | .fqAnswer func value => Sys2Proof.Machine.execFqAnswer func value s
  | .droopCut die => Sys2Proof.Machine.execDroopCut die s
  | .launchDoorbell func queue value => Sys2Proof.Machine.execLaunchDoorbell func queue value s
  | .leaseRevoke die => Sys2Proof.Machine.execLeaseRevoke die s
  | .channelDoorbell func ch value => Sys2Proof.Machine.execChannelDoorbell func ch value s
  | .channelCopyComplete func ch hostAbort => Sys2Proof.Machine.execChannelCopyComplete func ch hostAbort s
  | .bar2WindowAccess func write off len data => Sys2Proof.Machine.execBar2WindowAccess func write off len data s
  | .lostClr addr => Sys2Proof.Machine.execLostClr addr s
  | .sweepStart stove => Sys2Proof.Machine.execSweepStart stove s
  | .sweepScanEnd failed => Sys2Proof.Machine.execSweepScanEnd failed s
  | .sweepArrayEnd failed => Sys2Proof.Machine.execSweepArrayEnd failed s
  | .updateGo flashOk => Sys2Proof.Machine.execUpdateGo flashOk s
  | .registerWrite func off half value => Sys2Proof.Machine.execRegisterWrite func off half value s
  | .functionLevelReset func => Sys2Proof.Machine.execFunctionLevelReset func s
  | .moduleReset b => Sys2Proof.Machine.execModuleReset b s
  | .thermalThreshold die celsius => Sys2Proof.Machine.execThermalThreshold die celsius s
  | .rackCapMessage endpoint watts seqn expiry => Sys2Proof.Machine.execRackCapMessage endpoint watts seqn expiry s
  | .rackTimeMessage endpoint seqn time => Sys2Proof.Machine.execRackTimeMessage endpoint seqn time s
  | .linkDead port => Sys2Proof.Machine.execLinkDead port s
  | .flitLinkState f => Sys2Proof.Machine.execFlitLinkState f s
  | .flitRead f => Sys2Proof.Machine.execFlitRead f s
  | .flitWrite f => Sys2Proof.Machine.execFlitWrite f s
  | .flitAtomic f => Sys2Proof.Machine.execFlitAtomic f s
  | .flitReadResponse f => Sys2Proof.Machine.execFlitReadResponse f s
  | .flitWriteAck f => Sys2Proof.Machine.execFlitWriteAck f s
  | .flitAtomicResponse f => Sys2Proof.Machine.execFlitAtomicResponse f s
  | .flitAbortResponse f => Sys2Proof.Machine.execFlitAbortResponse f s
  | .flitCollectiveData f => Sys2Proof.Machine.execFlitCollectiveData f s
  | .flitMonitorArm f => Sys2Proof.Machine.execFlitMonitorArm f s
  | .flitMonitorWake f => Sys2Proof.Machine.execFlitMonitorWake f s
  | .laneSpareRetrain port lane => Sys2Proof.Machine.execLaneSpareRetrain port lane s
  | .portRetrain port ok => Sys2Proof.Machine.execPortRetrain port ok s
  | .temperatureFall die celsius => Sys2Proof.Machine.execTemperatureFall die celsius s
  | .reservedOpcode slot word => Sys2Proof.Machine.execReservedOpcode slot word s
  | .flitReservedType f => Sys2Proof.Machine.execFlitReservedType f s
  | .tretReplay => Sys2Proof.Machine.execTretReplay s
  | .tretSkip => Sys2Proof.Machine.execTretSkip s
  | .tretGoto => Sys2Proof.Machine.execTretGoto s
  | .tretExit => Sys2Proof.Machine.execTretExit s
  | .tretPark => Sys2Proof.Machine.execTretPark s
  | .tretEnd => Sys2Proof.Machine.execTretEnd s
  | .resultWriteback => Sys2Proof.Machine.execResultWriteback s
  | .variableLatencyResult => Sys2Proof.Machine.execVariableLatencyResult s
  | .ldGsArrival => Sys2Proof.Machine.execLdGsArrival s
  | .stokerRefill => Sys2Proof.Machine.execStokerRefill s
  | .partitionPreload => Sys2Proof.Machine.execPartitionPreload s
  | .decodeTableRebuild => Sys2Proof.Machine.execDecodeTableRebuild s
  | .sequencerIssue => Sys2Proof.Machine.execSequencerIssue s
  | .splitMerge => Sys2Proof.Machine.execSplitMerge s
  | .aOpStart => Sys2Proof.Machine.execAOpStart s
  | .aOpComplete => Sys2Proof.Machine.execAOpComplete s
  | .matrixStep => Sys2Proof.Machine.execMatrixStep s
  | .mmaStInstanceStart => Sys2Proof.Machine.execMmaStInstanceStart s
  | .tileShadowDone => Sys2Proof.Machine.execTileShadowDone s
  | .checkpointClose => Sys2Proof.Machine.execCheckpointClose s
  | .counterWindowSlide => Sys2Proof.Machine.execCounterWindowSlide s
  | .translationFault => Sys2Proof.Machine.execTranslationFault s
  | .loggedReplay => Sys2Proof.Machine.execLoggedReplay s
  | .fetchRetry => Sys2Proof.Machine.execFetchRetry s
  | .handlerStart => Sys2Proof.Machine.execHandlerStart s
  | .debugStop => Sys2Proof.Machine.execDebugStop s
  | .claimPlace => Sys2Proof.Machine.execClaimPlace s
  | .revolutionBoundary => Sys2Proof.Machine.execRevolutionBoundary s
  | .limiterRelease => Sys2Proof.Machine.execLimiterRelease s
  | .meadowRefreshWindow => Sys2Proof.Machine.execMeadowRefreshWindow s
  | .monitorWake => Sys2Proof.Machine.execMonitorWake s
  | .monitorTimeout => Sys2Proof.Machine.execMonitorTimeout s
  | .swapOut => Sys2Proof.Machine.execSwapOut s
  | .teamReadyToReturn => Sys2Proof.Machine.execTeamReadyToReturn s
  | .swapIn => Sys2Proof.Machine.execSwapIn s
  | .groupRetirement => Sys2Proof.Machine.execGroupRetirement s
  | .launchAccept => Sys2Proof.Machine.execLaunchAccept s
  | .dependenceWake => Sys2Proof.Machine.execDependenceWake s
  | .teamPlacement => Sys2Proof.Machine.execTeamPlacement s
  | .ageingExpiry => Sys2Proof.Machine.execAgeingExpiry s
  | .meadowLoad => Sys2Proof.Machine.execMeadowLoad s
  | .priorityPreemptTrigger => Sys2Proof.Machine.execPriorityPreemptTrigger s
  | .timeSliceExpiry => Sys2Proof.Machine.execTimeSliceExpiry s
  | .preemption => Sys2Proof.Machine.execPreemption s
  | .contextRestore => Sys2Proof.Machine.execContextRestore s
  | .launchCompletion => Sys2Proof.Machine.execLaunchCompletion s
  | .freshBufferRewrap => Sys2Proof.Machine.execFreshBufferRewrap s
  | .haltDrainDone => Sys2Proof.Machine.execHaltDrainDone s
  | .dumpWrite => Sys2Proof.Machine.execDumpWrite s
  | .identify => Sys2Proof.Machine.execIdentify s
  | .summary => Sys2Proof.Machine.execSummary s
  | .lqCreate => Sys2Proof.Machine.execLqCreate s
  | .lqDelete => Sys2Proof.Machine.execLqDelete s
  | .worldAssign => Sys2Proof.Machine.execWorldAssign s
  | .worldRoot => Sys2Proof.Machine.execWorldRoot s
  | .invalidate => Sys2Proof.Machine.execInvalidate s
  | .bufReg => Sys2Proof.Machine.execBufReg s
  | .bufUnreg => Sys2Proof.Machine.execBufUnreg s
  | .meadowAssign => Sys2Proof.Machine.execMeadowAssign s
  | .preempt => Sys2Proof.Machine.execPreempt s
  | .abort => Sys2Proof.Machine.execAbort s
  | .powerCeiling => Sys2Proof.Machine.execPowerCeiling s
  | .boost => Sys2Proof.Machine.execBoost s
  | .funcConfig => Sys2Proof.Machine.execFuncConfig s
  | .chCreate => Sys2Proof.Machine.execChCreate s
  | .chResync => Sys2Proof.Machine.execChResync s
  | .chDelete => Sys2Proof.Machine.execChDelete s
  | .aperture => Sys2Proof.Machine.execAperture s
  | .domainConfig => Sys2Proof.Machine.execDomainConfig s
  | .dbgRead => Sys2Proof.Machine.execDbgRead s
  | .dbgResume => Sys2Proof.Machine.execDbgResume s
  | .leaseEnd => Sys2Proof.Machine.execLeaseEnd s
  | .sweepAutoStart => Sys2Proof.Machine.execSweepAutoStart s
  | .sweepDrainEnd => Sys2Proof.Machine.execSweepDrainEnd s
  | .sweepFilingDone => Sys2Proof.Machine.execSweepFilingDone s
  | .updateActivate => Sys2Proof.Machine.execUpdateActivate s
  | .heartbeatTimeout => Sys2Proof.Machine.execHeartbeatTimeout s
  | .thermalStepDown => Sys2Proof.Machine.execThermalStepDown s
  | .capExpiry => Sys2Proof.Machine.execCapExpiry s
  | .drainRoundEnd => Sys2Proof.Machine.execDrainRoundEnd s
  | .remoteRequestTimeout => Sys2Proof.Machine.execRemoteRequestTimeout s
  | .emberRingTake => Sys2Proof.Machine.execEmberRingTake s
  | .releasePushComplete => Sys2Proof.Machine.execReleasePushComplete s
  | .walkComplete => Sys2Proof.Machine.execWalkComplete s
  | .interruptHoldoffExpiry => Sys2Proof.Machine.execInterruptHoldoffExpiry s
  | .limiterHoldEnd => Sys2Proof.Machine.execLimiterHoldEnd s
  | .damperRestart => Sys2Proof.Machine.execDamperRestart s
  | .powerLoss => Sys2Proof.Machine.execPowerLoss s
  | .refusedEntryIssue => Sys2Proof.Machine.execRefusedEntryIssue s
  | .streamFetchFault => Sys2Proof.Machine.execStreamFetchFault s

end Sys2Proof.Machine
end

