-- ==== Sys2Proof/Machine/Issue.lean ====
section
/-! DEFINITION. The issue of bundles: the checks a bundle must pass (R13, R24, R48, R169, R170, R188, R192, R204, R212, R279,
R296, R298), the choice of primary and secondary (R30, R246 to R248, R255, R291), the charge (R33), the traps of the whole
record (R286), and sampling (R306, R343). -/

namespace Sys2Proof.Machine

/-! ### Bundles -/

/-- A record of a bundle, with the control word and metadata of its decode-table entry. -/
structure BundleRec where
  issued : Issued
  word : BitVec 512
  data : Meta
  deriving DecidableEq, Repr

/-- A bundle that a split, or the handler as split 4, would issue: one record, or those of a sequencer's body cycle. -/
structure Bundle where
  h : Nat
  slot : Nat
  split : Nat
  mask : LaneMask
  rmask : LaneMask
  age : Nat
  /-- The lowest group slot of the team, which breaks ties between handlers (R291). -/
  rank : Nat
  recs : List BundleRec
  deriving DecidableEq, Repr

/-- What the ops of a record read at issue. -/
def Bundle.ctx (b : Bundle) (r : BundleRec) (seq : Nat) (kill : LaneMask) : Ctx :=
  { h := b.h, slot := b.slot, split := b.split, off := r.issued.off, nxt := r.issued.nxt, idx := r.issued.idx,
    shared := sharedOf r.word, lits := r.issued.lits, smask := b.mask, rmask := b.rmask, kill := kill, iter := r.issued.iter,
    rho := r.issued.rho, seq := seq, reason := r.data.reason, fetch := r.issued.fetch, voided := false }

/-- The machine with a record at issue. -/
def State.atRecord (s : State) (x : Ctx) : State := { s with core := { s.core with ctx := x } }

/-- The record's ops can be carried out: its fetch met nothing, and the filter did not refuse its entry. -/
def BundleRec.plain (r : BundleRec) : Bool := r.issued.fetch.1 == 0 && r.data.reason == 0

/-- An op of a bundle: its slot, its uses, its header, the view of its record and its active mask. -/
structure BundleOp where
  sl : Slot
  op : Instr
  uses : Uses
  hd : Hdr
  item : BundleRec
  v : View
  act : LaneMask

/-- The ops of a record, in the order of their slots. -/
def BundleRec.ops (r : BundleRec) (v : View) : List BundleOp :=
  if !r.plain then []
  else (usesOf r.word).map fun e =>
    let hd := readHdr (slotOf r.word e.1)
    { sl := e.1, op := e.2.1, uses := e.2.2, hd := hd, item := r, v := v, act := v.active hd }

/-- The ops of a bundle, record by record. -/
def State.opsOf (s : State) (b : Bundle) : List BundleOp :=
  b.recs.flatMap fun r => match view (s.atRecord (b.ctx r s.core.seq 0)) with
    | some v => r.ops v
    | none => []

/-! ### One op at issue -/

/-- An op at issue: a route that names no literal of the record traps under the op's own mask (R13), else its meaning. -/
def State.opAt (s : State) (o : BundleOp) : State :=
  match view s with
  | none => s
  | some v =>
    let act := v.lanesOf o.sl o.hd
    if routeBad (v.route o.sl) v.x.lits.length && act != 0 then
      { s with core := takeTrap s (v.reserved (placeOf o.sl) act (routeBit o.sl)) (if o.sl = .t then 1 else 0) }
    else match exec o.op s with
      | .next t => t
      | _ => s

/-- An op of a bundle tried alone. -/
def State.tryOp (s : State) (b : Bundle) (kill : LaneMask) (o : BundleOp) : State :=
  (s.atRecord (b.ctx o.item s.core.seq kill)).opAt o

/-- The lanes of the bundle that its own C op takes away, so that the bundle's squashable ops do not act on them (R26). -/
def State.killOf (s : State) (b : Bundle) (ops : List BundleOp) : LaneMask :=
  match ops.find? fun o => o.sl == .c with
  | some o => (s.tryOp b 0 o).core.ctx.kill
  | none => 0

/-- The lowest bit of the shared field's reserved values: non-zero reserved bits, and bus selects of 11 (R13). -/
def sharedBad (w : BitVec 512) : Option Nat :=
  firstBad [(w.extractLsb' 0 5 != 0, 0), (w.getLsbD 32, 32), (w.extractLsb' 34 2 == 3, 34), (w.extractLsb' 36 2 == 3, 36)]

/-- A trap of a record as a whole: what its fetch met (R66), a refused entry (R80), or its shared field (R13), which takes the
split's whole mask (log entry 100). -/
def State.recordTrap (s : State) (r : BundleRec) : Option State :=
  let run := fun (i : Instr) => match exec i s with | .next t => some t | _ => none
  if r.issued.fetch.1 ≠ 0 then run .streamFetchFault
  else if r.data.reason ≠ 0 then run .refusedEntryIssue
  else match sharedBad r.word with
    | some bit =>
      let t := trapOf trapReservedField s.core.ctx.smask (9 + 256 * bit) s.core.ctx.idx
      some { s with core := takeTrap s t 0 }
    | none => none

/-- The machine after a trap that voids the bundle, when one does: the first in the order of records and slots
(log entry 14). -/
def State.voidBy (s : State) (b : Bundle) (kill : LaneMask) : Option State :=
  b.recs.findSome? fun r =>
    let s := s.atRecord (b.ctx r s.core.seq kill)
    match s.recordTrap r with
    | some t => some t
    | none => match view s with
      | none => none
      | some v => (r.ops v).findSome? fun o =>
          let t := s.opAt o
          if t.core.ctx.voided then some t else none

/-! ### Pending registers (R24, R48) -/

/-- A register of the group is pending; s0 to s15 are each split's own. -/
def Group.isPending (g : Group) (split : Nat) (r : Reg) : Bool :=
  g.pend.any fun e => e.1 == r && match r with | .s n => decide (16 ≤ n) || e.2.1 == split | _ => true

/-- The registers of a matrix operand held in registers (R214). -/
def View.blockRegs (v : View) (f : TFields) (code tn : Nat) (sp : Bool) : List Reg :=
  let n := (f.rep.toNat + 1) * (passK f.rate.toNat sp * fmtWidth (entryFmt (v.entry tn)) / 32)
  (v.spanRegs code n).map Reg.v

/-- The register operands of a multiply. -/
def BundleOp.blocks (o : BundleOp) : List Reg :=
  let a := fun (f : TFields) => if f.asrc then [] else o.v.blockRegs f f.opa.toNat f.tna.toNat false
  let b := fun (f : TFields) => if f.bsrc then [] else o.v.blockRegs f f.opb.toNat f.tnb.toNat false
  match o.op with
  | .mma f | .mmaQ f => a f ++ b f
  | .mmaSt f => (if suppliesA o.v.p.p then a f else []) ++ (if suppliesB o.v.p.p then b f else [])
  | _ => []

/-- Registers an op reads, and those it writes with a fixed latency. -/
def BundleOp.regs (o : BundleOp) : List Reg :=
  ((o.uses.vread ++ o.uses.vwrite).flatMap fun r => (o.v.spanRegs r.1 r.2).map Reg.v) ++
  (o.uses.sread ++ o.uses.swrite).map codeReg ++ (o.uses.kread ++ o.uses.kwrite).map Reg.k ++
  [Reg.k o.hd.gpred.toNat] ++ o.blocks

/-- An earlier op of the group has flags to raise (R48). -/
def Core.flagsOut (c : Core) (g : Group) : Bool :=
  (c.land.any fun l => l.h == g.h && l.slot == g.slot && (!l.fflags.isEmpty || l.isat != 0)) ||
  (c.accs.any fun a => a.h == g.h && a.slot == g.slot && a.kind == .atomFadd) ||
  c.mats.any fun m => m.h == g.h && m.slot == g.slot

/-- A csr op on %FFLAGS or %ISAT waits for flags still to be raised (R48, R132). -/
def BundleOp.flagsWait (o : BundleOp) (c : Core) : Bool :=
  match o.op with
  | .csrRd f | .csrWr f | .csrSet f | .csrClr f => (f.aux == 0x10 || f.aux == 0x12) && c.flagsOut o.v.g
  | _ => false

/-- The handler's write of another GROUP or SPLIT waits for its earlier results (R292). -/
def BundleOp.selectWait (o : BundleOp) (c : Core) : Bool :=
  let waits := fun (f : SFields) (x : W64) =>
    f.aux == 0x30 && (match o.v.p.handler with | some r => bitsNat x.toNat 21 16 != r.slot + 16 * r.split | none => false) &&
    c.land.any fun l => l.split == 4 && l.h == o.v.x.h && l.slot == o.v.x.slot
  o.v.x.split == 4 &&
  match o.op with
  | .csrWr f => waits f (o.v.csrArg f)
  | .csrSet f => waits f (o.v.csr f.aux.toNat 0 ||| o.v.csrArg f)
  | .csrClr f => waits f (o.v.csr f.aux.toNat 0 &&& ~~~o.v.csrArg f)
  | _ => false

/-- An op of the bundle waits for a register (HELD with cause 1). -/
def BundleOp.pendingWait (o : BundleOp) (c : Core) : Bool :=
  (o.regs.any fun r => o.v.g.isPending o.v.x.split r) || o.flagsWait c || o.selectWait c

/-! ### Other short waits (R238) -/

/-- The op acts: its active mask is not empty. -/
def BundleOp.acts (o : BundleOp) : Bool := o.act != 0

/-- A T op finds 8 ops in its hearth's queue (R204). -/
def BundleOp.queueFull (o : BundleOp) (c : Core) : Bool :=
  o.sl == .t && o.acts && decide (Config.tQueue ≤ (c.mats.filter fun m => m.h == o.v.x.h).length)

/-- The op goes to the engines (R188). -/
def queuedA (i : Instr) : Bool :=
  match i with
  | .tnWr _ | .tnRd _ | .qInit _ | .qWt _ | .tagTst _ => false
  | _ => true

/-- A group holds 64 queued A ops (R188). -/
def BundleOp.enginesFull (o : BundleOp) (c : Core) : Bool :=
  o.sl == .a && o.acts && queuedA o.op &&
  decide (Config.aQueue ≤ (c.engs.filter fun e => e.h == o.v.x.h && e.slot == o.v.x.slot).length)

/-- Two ranges meet. -/
def rangeMeets (q r : Nat × Nat) : Bool := decide (q.1 < r.1 + r.2) && decide (r.1 < q.1 + q.2)

/-- Ranges that T ops of a part still hold (R219). -/
def Core.matRanges (c : Core) (part : Nat) : List (Nat × Nat) :=
  (c.mats.filter fun m => match c.group? m.h m.slot with | some g => g.part == part | none => false).flatMap fun m =>
    c.matReadsOf m ++ m.writeRanges

/-- A scratchpad access meets a range that an engine op or a T op holds (R170, R219). -/
def BundleOp.padWait (o : BundleOp) (c : Core) : Bool :=
  let waits := fun (f : MFields) =>
    let l := (o.v.padOffs f o.act).map fun x => (x, widthBytes f.width.toNat)
    c.boardOverlap o.v.p.id (c.seq + 1) l || (c.matRanges o.v.p.id).any fun r => l.any fun q => rangeMeets q r
  o.acts &&
  match o.op with
  | .ldSp f | .stSp f | .satom f => waits f
  | _ => false

/-- Scoreboard entries that ops of a hearth hold. -/
def Core.boardUsed (c : Core) (h : Nat) : Nat := ((c.engs.filter fun e => e.h == h).map fun e => e.ranges.length).sum

/-- An A op needs more scoreboard entries than are free; `t` is the machine after the op alone (R192). -/
def BundleOp.boardFull (o : BundleOp) (c : Core) (t : State) : Bool :=
  let new := ((t.core.engs.drop c.engs.length).map fun e => e.ranges.length).sum
  new != 0 && decide (Config.boardEntries < c.boardUsed o.v.x.h + new)

/-- The op names a tensor entry that is being loaded (R198, R212). -/
def BundleOp.tensorWait (o : BundleOp) : Bool :=
  let p := fun (n : BitVec 6) => o.v.p.tnPend.contains n.toNat
  o.acts &&
  match o.op with
  | .mma f | .mmaQ f | .mmaSp f => p f.tna || p f.tnb
  | .mmaSt f => (suppliesA o.v.p.p && p f.tna) || (suppliesB o.v.p.p && p f.tnb)
  | .accCvt f => p f.tna
  | .tnWr f | .tnRd f => p f.opc1
  | _ => false

/-! ### Checkpoints before a bundle (R15, R115, R279, R301) -/

/-- The group holds global stores, or has some that are not yet translated. -/
def Core.holdsStores (c : Core) (g : Group) : Bool :=
  !g.gated.isEmpty || c.accs.any fun a => a.h == g.h && a.slot == g.slot && (a.kind == .stG || a.kind == .stSc) && a.due.isNone

/-- The op issues only after a checkpoint: chk, atomics and spawn always, a release at team scope or wider when the group
holds stores. -/
def BundleOp.needsCkpt (o : BundleOp) (c : Core) : Bool :=
  o.acts &&
  match o.op with
  | .chk _ | .atom _ | .atomCas _ | .atomFadd _ | .atomOfa _ | .atomOclose _ | .spawn _ => true
  | .barArr _ | .barSyn _ => c.holdsStores o.v.g
  | .stSc f => (f.ord == 2 || f.ord == 3) && decide (2 ≤ f.scope.toNat) && c.holdsStores o.v.g
  | _ => false

/-- A full group asks for a checkpoint before a bundle with CKE, and with its reserve full before any (R15, R300). -/
def Group.forcedCkpt (g : Group) (b : Bundle) : Bool :=
  g.full && (decide (4096 * g.blocks + 8192 ≤ g.ckptBytes) || b.recs.any fun r => hcwCke r.word)

/-- The checkpoint that the bundle waits for has closed. -/
def Part.ckptPast (p : Part) (g : Group) (b : Bundle) : Bool :=
  if b.split = 4 then match p.handler with | some r => r.wait == handlerPast | none => false
  else (g.split b.split).ckptOk

/-! ### The operand log (R296, R298) -/

/-- Some lane of the access has not passed translation. -/
def Access.undecided (a : Access) : Bool := a.todo &&& ~~~a.walked != 0 || a.faulted != 0

/-- Logged accesses of a group that still hold their entries. -/
def Core.logOf (c : Core) (g : Group) : List Access :=
  c.accs.filter fun a => a.h == g.h && a.slot == g.slot && a.kind.logged && a.undecided

/-- The byte ranges of an access's lanes; addresses below 2^57 are global or private, meadow offsets lie apart. -/
def Access.ranges (a : Access) (g : Group) (p : Part) : List (Nat × Nat) :=
  let far := if a.kind == .ldMd then 2 ^ 64 else 0
  ((if a.kind.once then [0] else (a.todo ||| a.faulted).toList).flatMap fun n => a.vaOf g p n).map fun x => (far + x, a.span)

/-- Two accesses touch one byte. -/
def Access.meets (a b : Access) (g : Group) (p : Part) : Bool :=
  (a.ranges g p).any fun q => (b.ranges g p).any (rangeMeets q)

/-- The accesses an op adds; `t` is the machine after it alone. -/
def newAccesses (c : Core) (t : State) : List Access := (t.core.accs.drop c.accs.length).filter fun a => a.kind.logged

/-- The log has no room for the bundle's accesses, or one of them overlaps an access that is not complete. -/
def Core.logWait (c : Core) (g : Group) (p : Part) (new : List Access) : Bool :=
  !new.isEmpty && (decide (Config.logEntries < (c.logOf g).length + new.length) ||
    c.accs.any fun a => a.h == g.h && a.slot == g.slot && a.kind.logged && a.due.isNone && new.any fun b => a.meets b g p)

/-- A memory op of a split waits for its earlier rel, fence, acq or ordered access (R187). -/
def BundleOp.orderWait (o : BundleOp) (c : Core) : Bool :=
  let mem := o.sl == .m || match o.op with
    | .barArr _ | .barSyn _ | .barWt _ | .spawn _ | .wmon _ => true
    | _ => false
  o.acts && mem && c.accs.any fun a => a.h == o.v.x.h && a.slot == o.v.x.slot && a.split == o.v.x.split && a.due.isNone &&
    (a.kind == .rel || a.kind == .fence || a.kind == .acq || a.ord != 0)

/-! ### The checks of a bundle -/

/-- How a split's next bundle stands. -/
inductive Ask where
  /-- It can issue, at this price. -/
  | go (b : Bundle) (price : Nat)
  /-- HELD with a cause of R238. -/
  | held (cause : Nat)
  /-- An entry it needs is not in the decode table; with the body that a seq loads (R109). -/
  | miss (idx : Nat) (wants : List Nat)
  /-- The stream byte at this offset is not in the stream buffer. -/
  | fetch (off : Nat)
  /-- The pool is short of its price, or another split's claim stands. -/
  | short (price : Nat)
  /-- A result would meet another on a bus. -/
  | stay

/-- The ember price of a bundle; a T op that is not active charges nothing (R33, R207). -/
def State.priceOf (s : State) (b : Bundle) (ops : List BundleOp) : Nat :=
  let all := ((b.recs.filter fun r => r.plain).map fun r => r.data.price).sum
  let idle := ops.filter fun o => o.sl == .t && !o.acts
  all - (idle.map fun o => opPrice (s.dieFor b.h).prices .t o.op).sum

/-- A fixed-latency result of the op would land on a bus lane slice that an earlier result holds (R22). -/
def Core.busConflict (c : Core) (t : State) : Bool :=
  (t.core.land.drop c.land.length).any fun l => l.bus.isSome && c.land.any fun m =>
    m.h == l.h && m.bus == l.bus && m.due == l.due && m.lanes &&& l.lanes != 0

/-- A split's region-area entries are being translated (R245). -/
def Core.regionBusy (c : Core) (h slot split : Nat) : Bool :=
  c.accs.any fun a => a.h == h && a.slot == slot && a.split == split && (a.kind == .regionRead || a.kind == .regionWrite)

/-- The body entries that a seq at issue still has to load, and its whole body (R109). -/
def BundleOp.bodyMissing (o : BundleOp) : List Nat × List Nat :=
  match o.op with
  | .seq f | .seqx f => if o.acts && o.v.x.split != 4 && o.v.route64 .c then o.v.bodyMissing f else ([], [])
  | _ => ([], [])

/-- The checks of a bundle in the order of the causes, then buses and embers (R248). -/
def State.checkBundle (s : State) (hr : Hearth) (g : Group) (p : Part) (b : Bundle) : Ask :=
  let c := s.core
  let ops := s.opsOf b
  let tries := ops.map fun o => (o, s.tryOp b (s.killOf b ops) o)
  let new := tries.flatMap fun e => newAccesses c e.2
  let price := s.priceOf b ops
  let claimed := match hr.claim with | some k => k != (b.slot, b.split) | none => false
  let body := ((ops.map BundleOp.bodyMissing).find? fun l => !l.1.isEmpty).getD ([], [])
  if ops.any fun o => o.pendingWait c then .held 1
  else if !body.1.isEmpty then .miss (body.1.headD 0) body.2
  else if ops.any fun o => o.queueFull c then .held 3
  else if ops.any fun o => o.enginesFull c then .held 4
  else if (ops.any fun o => o.padWait c) || tries.any fun e => e.1.boardFull c e.2 then .held 5
  else if ((ops.any fun o => o.needsCkpt c) || g.forcedCkpt b) && !(p.ckptPast g b) then .held 6
  else if ops.any fun o => o.tensorWait then .held 7
  else if c.logWait g p new || ops.any fun o => o.orderWait c then .held 9
  else if tries.any fun e => c.busConflict e.2 then .stay
  else if price ≠ 0 && (decide (hr.pool < price) || claimed) then .short price
  else .go b price

/-- The bundle's entries, or what keeps it from being formed: the first record whose bytes or entry are absent. -/
def State.formRecs (q : Partition) : List Issued → Sum Ask (List BundleRec)
  | [] => .inr []
  | r :: l =>
    if r.fetch.1 = 0 && r.nxt = r.off then .inl (.fetch r.off)
    else
      let found : Option (BitVec 512 × Meta) :=
        if r.fetch.1 ≠ 0 then some (0, filterEntry [] [] 0 0 0) else (q.hit r.idx).map fun e => (e.word, e.data)
      match found with
      | none => .inl (.miss r.idx [])
      | some e => match State.formRecs q l with
        | .inl a => .inl a
        | .inr t => .inr (({ issued := r, word := e.1, data := e.2 } : BundleRec) :: t)

/-- The stop scalar of a seqx at the start of an iteration after the first (R113). -/
def SeqRun.stopNow (r : SeqRun) : Option Nat :=
  if r.t % r.ii = 0 && r.t / r.ii != 0 && decide (r.t / r.ii < r.trip) then r.stop else none

/-- A split whose spawn still has its launch record to read issues nothing further (R123). -/
def Core.spawning (c : Core) (g : Group) (split : Nat) : Bool :=
  c.accs.any fun a => a.kind == .spawn && a.h == g.h && a.slot == g.slot && a.split == split && (a.todo != 0 || a.faulted != 0)

/-- How the next bundle of a split stands, given its records. -/
def State.askWith (s : State) (hr : Hearth) (q : Partition) (g : Group) (p : Part) (split : Nat) (recs : List Issued) : Ask :=
  let e := g.split split
  let stop := (if split = 4 || e.replay.isSome then none else e.seqRun).bind fun r => r.stopNow
  if s.core.regionBusy g.h g.slot split then .held 10
  else if s.core.spawning g split then .held 9
  else if s.cycle < g.busyUntil then .held 8
  else if (stop.map fun code => g.isPending split (codeReg code)).getD false then .held 1
  else match State.formRecs q recs with
    | .inl a => a
    | .inr rs =>
      s.checkBundle hr g p
        { h := g.h, slot := g.slot, split := split,
          mask := if split = 4 then (p.handler.map fun r => r.lanes).getD 0 else e.mask,
          rmask := if split = 4 then LaneMask.all else e.rmask,
          age := if split = 4 then (p.handler.map fun r => r.age).getD 0 else e.age,
          rank := ((s.core.groups.filter fun x => x.part == p.id).map fun x => x.slot).foldl Nat.min 16, recs := rs }

/-- How the next bundle of a split stands. -/
def State.ask (s : State) (hr : Hearth) (q : Partition) (g : Group) (p : Part) (split : Nat) : Ask :=
  s.askWith hr q g p split (bundleRecords hr p g split)

/-! ### Who asks -/

/-- The part may issue: it is not halted, leaving, under rerun or preloading. -/
def State.mayIssue (s : State) (hr : Hearth) (p : Part) : Bool :=
  p.halt == 0 && p.started && !(s.leavingPart p) && !(s.rerunning p) && hr.rebuild != 2 && s.core.teamLoaded p

/-- The split may be considered in this cycle. -/
def SplitE.mayAsk (e : SplitE) (cycle : Nat) : Bool :=
  (e.state == .ready || e.state == .held || e.state == .ember) && e.noIssue != some cycle

/-- The handler may be considered in this cycle. -/
def HandlerRun.mayAsk (r : HandlerRun) (cycle : Nat) : Bool :=
  !r.done && r.lanes != 0 && decide (r.ready ≤ cycle) && (r.wait.1 == 1 || r.wait.1 == 2 || r.wait.1 == 5)

/-- The splits of a hearth that ask, and its handlers as split 4 of their selected group. -/
def State.askers (s : State) (hr : Hearth) : List (Group × Part × Partition × Nat) :=
  (s.core.groups.filter fun g => g.h == hr.h).flatMap fun g => match s.core.part? g.part with
    | none => []
    | some p => match s.core.partition? p with
      | none => []
      | some q =>
        if !(s.mayIssue hr p) then []
        else
          let own := match p.handler with | some r => r.slot == g.slot && r.mayAsk s.cycle | none => false
          ((List.range 4).filter (fun n => (g.split n).mayAsk s.cycle) ++ (if own then [4] else [])).map fun n => (g, p, q, n)

/-- The runs of a hearth's splits see their stop scalars (R113). -/
def State.stops (s : State) (hr : Hearth) : State :=
  { s with core := (s.askers hr).foldl (fun c a =>
      match (a.1.split a.2.2.2).seqRun.bind fun r => r.stopNow with
      | none => c
      | some code =>
        if a.2.2.2 = 4 || (a.1.split a.2.2.2).replay.isSome || a.1.isPending a.2.2.2 (codeReg code) then c
        else match c.group? a.1.h a.1.slot, view (s.atRecord { s.core.ctx with h := a.1.h, slot := a.1.slot, split := a.2.2.2 }) with
          | some g, some v => c.putGroup (g.seqStop a.2.2.2 (v.scalar code))
          | _, _ => c) s.core }

/-! ### What becomes of those that do not issue (R248) -/

/-- A split enters a state of a short wait, or stays in it. -/
def SplitE.waitFor (e : SplitE) (cycle : Nat) (st : SplitState) (arg : W32) : SplitE :=
  if e.state = st then { e with waitarg := arg } else e.enter cycle st arg

/-- The handler waits; while its checkpoint is asked for it goes on waiting for that. -/
def HandlerRun.waitFor (r : HandlerRun) (st : SplitState) (arg : W32) : HandlerRun :=
  if st = .held && arg = 6 && r.wait = handlerAsked then r else { r with wait := (st.code, arg) }

/-- A split, or the handler, waits. -/
def Core.waitFor (c : Core) (g : Group) (split cycle : Nat) (st : SplitState) (arg : W32) : Core :=
  if split = 4 then c.modPart g.part fun p => { p with handler := p.handler.map fun r => r.waitFor st arg }
  else c.modSplit g.h g.slot split fun e => e.waitFor cycle st arg

/-- A cause has cleared: the split is READY again; the claimant keeps its place until it issues (R255). -/
def Core.cleared (c : Core) (hr : Hearth) (g : Group) (split cycle : Nat) : Core :=
  if split = 4 then c.modPart g.part fun p => { p with handler := p.handler.map fun r =>
    if r.wait = handlerPast then r else { r with wait := (1, 0) } }
  else c.modSplit g.h g.slot split fun e =>
    if e.state = .held || (e.state = .ember && hr.claim != some (g.slot, split)) then e.enter cycle .ready 0 else e

/-- A split that does not issue takes up its wait. -/
def State.waits (s : State) (hr : Hearth) (g : Group) (p : Part) (split : Nat) (a : Ask) : State :=
  match a with
  | .go _ _ => { s with core := s.core.cleared hr g split s.cycle }
  | .held n => { s with core := s.core.waitFor g split s.cycle .held (BitVec.ofNat 32 n) }
  | .miss idx wants =>
    let c := s.core.waitFor g split s.cycle .held 2
    let c := if split = 4 then c else c.modSplit g.h g.slot split fun e => { e with missing := some idx, wants := wants }
    ({ s with core := c } : State).miss g.h p idx (g.slot, split)
  | .fetch off => s.streamFetch p g.slot split (p.image.base + p.image.streamOff + off)
  | .short n => { s with core := s.core.waitFor g split s.cycle .ember (BitVec.ofNat 32 n) }
  | .stay => { s with core := s.core.cleared { hr with claim := some (g.slot, split) } g split s.cycle }

/-! ### Samples (R306, R343) -/

/-- Write a record to the sample buffer of a part's launch; when the buffer is full it is dropped and counted. -/
def State.writeSample (s : State) (p : Part) (bs : List Byte) : State :=
  let k := ((s.lch.launch? p.launch).map fun l => l.samples).getD 0
  let drop : State := { s with lch := s.lch.modLaunch p.launch fun l => { l with dropSamples := l.dropSamples + 1 } }
  if p.sbufn ≤ k then drop
  else match s.putBytes (stoveOf p.h) p.world (p.sbuf + 32 * k) bs with
    | .done s => { s with lch := s.lch.modLaunch p.launch fun l => { l with samples := l.samples + 1 } }
    | _ => drop

/-- The global or private access of a bundle that a memory sample follows. -/
def sampledKind (k : AccKind) : Bool :=
  k.atomic || k == .ldG || k == .stG || k == .ldSc || k == .stSc || k == .ldPv || k == .stPv

/-- The bytes of a bundle's sample record; a handler's bundle names the selected split. -/
def sampleRecord (cycle off num split pool : Nat) (mask : LaneMask) : List Byte :=
  natLe 8 cycle ++ natLe 4 off ++ natLe 1 (num + 16 * split) ++ natLe 1 1 ++ natLe 1 pool ++ natLe 1 0 ++ natLe 16 mask.toNat

/-- An issued bundle of a hearth is counted, and the Nth is sampled; `old` is how many accesses were in flight before. -/
def State.sample (s : State) (b : Bundle) (g : Group) (p : Part) (old : Nat) : State :=
  let hr := (s.core.hearth? b.h).getD (State.freshHearth b.h)
  let s : State := { s with core := s.core.modHearth b.h fun hr => { hr with sampled := hr.sampled + 1 } }
  if !(bitNat p.flags 0) || (hr.sampled + 1) % p.sampn != 0 then s
  else
    let off := (b.recs.head?.map fun r => r.issued.off).getD 0
    let split := if b.split = 4 then (p.handler.map fun r => r.split).getD 0 else b.split
    let watch := (s.core.accs.drop old).find? fun a => sampledKind a.kind
    let s := s.writeSample p (sampleRecord s.cycle off g.num split hr.poolAt b.mask)
    match watch with
    | none => s
    | some a =>
      let m : MemSample := { acc := a.id, part := p.id, cycle := s.cycle, off := off, who := g.num + 16 * split }
      { s with core := { s.core with samples := s.core.samples ++ [m] } }

/-- The bytes of a memory-sample record: the queueing times are open, as are the tiers of stores and atomics (log entry 51). -/
def memSampleRecord (m : MemSample) (cycle free : Nat) : List Byte :=
  natLe 8 m.cycle ++ natLe 4 m.off ++ natLe 1 m.who ++ natLe 1 (m.tier.getD (Config.freeNat free % 7)) ++ natLe 1 0 ++ natLe 1 1 ++
  (List.range 12).map (fun i => Config.freeByte (free + 1 + i)) ++ natLe 4 (cycle - m.cycle)

/-- Memory samples whose request is complete are written. -/
def State.samplePass (s : State) : State :=
  let ended := s.core.samples.filter fun m => !(s.core.accs.any fun a => a.id == m.acc)
  let s : State := { s with core := { s.core with samples := s.core.samples.filter fun m => !(ended.contains m) } }
  ended.foldl (fun s m => match s.core.part? m.part with
    | none => s
    | some p =>
      let r := memSampleRecord m s.cycle s.core.free
      ({ s with core := { s.core with free := s.core.free + 16 } } : State).writeSample p r) s

/-! ### The bundle issues -/

/-- The split goes past the record and its waits are over; its AGE starts again (R246). -/
def SplitE.advance (e : SplitE) (cycle off : Nat) : SplitE :=
  { e with
    state := .ready, waitarg := 0, waitstart := if e.state = .ready then e.waitstart else cycle + 1
    offset := if e.seqRun.isSome then e.offset else off
    age := 0, rmask := LaneMask.all, replay := none, passBrk := false, ckptOk := false }

/-- The handler goes past the record. -/
def HandlerRun.advance (r : HandlerRun) (off : Nat) : HandlerRun := { r with offset := off, age := 0, wait := (1, 0) }

/-- The issuing split or handler goes past the bundle's record. -/
def Core.advance (c : Core) (b : Bundle) (g : Group) (cycle : Nat) : Core :=
  let off := (b.recs.getLast?.map fun r => r.issued.nxt).getD 0
  if b.split = 4 then c.modPart g.part fun p => { p with handler := p.handler.map fun r => r.advance off }
  else c.modSplit b.h b.slot b.split fun e => e.advance cycle off

/-- The entries that a bundle issues from are used (R75, R76). -/
def Core.useEntries (c : Core) (p : Part) (b : Bundle) : Core :=
  c.modPartition b.h p.pid fun q => b.recs.foldl (fun q r =>
    match q.entries.findIdx? fun e => e.tag == some r.issued.idx && e.valid with
    | some n => if r.issued.fetch.1 = 0 then q.use n else q
    | none => q) q

/-- The ops of the bundle take effect: those of the lanes and units first, the C op last (R26). -/
def State.runOps (s : State) (b : Bundle) (seq : Nat) (kill : LaneMask) (ops : List BundleOp) : State :=
  ((ops.filter fun o => o.sl != .c) ++ ops.filter fun o => o.sl == .c).foldl
    (fun (s : State) o => (s.atRecord (b.ctx o.item seq kill)).opAt o) s

/-- Counts of an issued bundle; the cycle counts once, with its first bundle that issues (R341). -/
def Core.countIssue (c : Core) (p : Part) (secondary first : Bool) (h : Nat) : Core :=
  let c := c.count p.func (dieOf h) 0x02 1
  let c := if secondary then c.count p.func (dieOf h) 0x03 1 else c
  if first then c.count p.func (dieOf h) 0x01 1 else c

/-- A bundle issues: a trap of the whole record leaves it without effect and uncharged; else it is charged and carried
out (R33, R286). The `first` bundle of its group in the cycle steps %ISSUES (R133). -/
def State.issueBundle (s : State) (b : Bundle) (price : Nat) (secondary first : Bool) : State :=
  match s.core.group? b.h b.slot with
  | none => s
  | some g => match s.core.part? g.part with
    | none => s
    | some p =>
      let s : State := { s with core := s.core.useEntries p b }
      let ops := s.opsOf b
      let kill := s.killOf b ops
      match s.voidBy b kill with
      | some t => t
      | none =>
        let seq := s.core.seq
        let old := s.core.accs.length
        let c := (s.core.modHearth b.h fun hr => { hr with pool := hr.pool - price }).advance b g s.cycle
        let c := c.countIssue p secondary first b.h
        let t := ({ s with core := { c with seq := seq + 1 } } : State).runOps b seq kill ops
        let run := b.split != 4 && (g.split b.split).seqRun.isSome && (g.split b.split).replay.isNone
        let t : State := { t with core := t.core.modGroup b.h b.slot fun g =>
            let g := if run then g.seqNext b.split else g
            if b.split = 4 || !first then g else { g with issues := g.issues + 1 } }
        t.sample b g p old

/-! ### The choice (R30, R247) -/

/-- An eligible bundle with its price. -/
abbrev Eligible := Bundle × Nat

/-- The key of R247: greatest AGE first, then the handler, then the rotation. -/
def issueKey (cycle : Nat) (e : Eligible) : List Nat :=
  if e.1.split = 4 then [1023 - e.1.age, 0, e.1.rank] else [1023 - e.1.age, 1, tieRank cycle e.1.slot e.1.split]

/-- Resource vector and write set of a bundle over its records. -/
def Bundle.units (b : Bundle) : Nat := b.recs.foldl (fun m r => m ||| bitsNat r.data.rvec.toNat 15 10) 0
def Bundle.reads (b : Bundle) : Nat := (b.recs.map fun r => bitsNat r.data.rvec.toNat 7 5).sum
def Bundle.writes (b : Bundle) : Nat := (b.recs.map fun r => bitsNat r.data.rvec.toNat 9 8).sum
def Bundle.wset (b : Bundle) : W32 := b.recs.foldl (fun m r => m ||| r.data.wset) 0

/-- A bundle of records that issue as they stand: neither a refused entry nor one whose fetch traps (R80). -/
def Bundle.plain (b : Bundle) : Bool := b.recs.all BundleRec.plain

/-- The co-issue test of R30; beside a claim of another split a secondary must be unpriced (R255), and a refused entry
issues alone (R80). -/
def coIssue (hr : Hearth) (p s : Eligible) : Bool :=
  p.1.split != 4 && s.1.split != 4 && p.1.slot == s.1.slot && p.1.split != s.1.split && p.1.mask &&& s.1.mask == 0 &&
  p.1.units &&& s.1.units == 0 && decide (p.1.reads + s.1.reads ≤ 4) && decide (p.1.writes + s.1.writes ≤ 2) &&
  p.1.wset &&& s.1.wset == 0 && decide (p.2 + s.2 ≤ hr.pool) &&
  (hr.claim.isNone || hr.claim == some (s.1.slot, s.1.split) || s.2 == 0) && s.1.plain

/-- The eligible bundles among the answers. -/
def eligible (l : List (Group × Part × Nat × Ask)) : List Eligible :=
  l.filterMap fun a => match a.2.2.2 with | .go b n => some (b, n) | _ => none

/-- Put an item into a list ordered by a key, behind those with the same key. -/
def insertBy (key : α → List Nat) (x : α) : List α → List α
  | [] => [x]
  | y :: l => if key x < key y then x :: y :: l else y :: insertBy key x l

/-- Order a list by a key; items with one key keep their order. -/
def orderBy (key : α → List Nat) (l : List α) : List α := l.foldl (fun r x => insertBy key x r) []

/-- The order in which misses choose their victims: by the cycle of their detection, then the primary split, the secondary
split, and the others by group number (R74; log entry 66). -/
def missKey (cycle : Nat) (hr : Hearth) (a : Group × Part × Nat × Ask) : List Nat :=
  let e := a.1.split a.2.2.1
  let since := if a.2.2.1 != 4 && e.state == .held && e.waitarg == 2 then e.waitstart else cycle + 1
  [since, hr.issuers.findIdx (· == (a.1.slot, a.2.2.1)), a.1.num, a.1.slot, a.2.2.1]

/-- The answer is a miss. -/
def Ask.isMiss (a : Ask) : Bool := match a with | .miss _ _ => true | _ => false

/-- The bundle of one split, taking a sequencer's records through its own step (R110). -/
def State.issueFor (s : State) (e : Eligible) (secondary first : Bool) : State :=
  let running := e.1.split != 4 && (match s.core.group? e.1.h e.1.slot with
    | some g => (g.split e.1.split).seqRun.isSome | none => false)
  if !running then s.issueBundle e.1 e.2 secondary first
  else
    let x : Ctx := { s.core.ctx with h := e.1.h, slot := e.1.slot, split := e.1.split }
    match exec .sequencerIssue (s.atRecord x) with
    | .next t => ({ t with work := s.work } : State).issueBundle e.1 e.2 secondary first
    | _ => s

/-- A hearth issues in a cycle: its primary, and with it a secondary of the same group (R30, R247). -/
def State.issueHearth (s : State) (h : Nat) : State :=
  match s.core.hearth? h with
  | none => s
  | some hr =>
    let s := s.stops hr
    let asks := (s.askers hr).map fun a => (a.1, a.2.1, a.2.2.2, s.ask hr a.2.2.1 a.1 a.2.1 a.2.2.2)
    let all := eligible asks
    let first := leastBy (issueKey s.cycle) all
    let second := first.bind fun p => leastBy (fun e => [1023 - e.1.age, e.1.split]) (all.filter (coIssue hr p))
    let chosen := fun (slot split : Nat) => (first.toList ++ second.toList).any fun e => e.1.slot == slot && e.1.split == split
    let rest := asks.filter fun a => !(chosen a.1.slot a.2.2.1)
    let s := ((rest.filter fun a => !a.2.2.2.isMiss) ++ orderBy (missKey s.cycle hr) (rest.filter fun a => a.2.2.2.isMiss)).foldl
      (fun s a => s.waits hr a.1 a.2.1 a.2.2.1 a.2.2.2) s
    let s : State := { s with core := s.core.modHearth h fun hr =>
      { hr with issuers := (first.toList ++ second.toList).map fun e => (e.1.slot, e.1.split) } }
    let t := match first with | some e => s.issueFor e false true | none => s
    match second with | some e => t.issueFor e true (t.core.seq == s.core.seq) | none => t

/-- A split's bundle issues from the records that the sequencer has picked, if it can (R110, R112). -/
def State.issueRecs (s : State) (h slot split : Nat) (recs : List Issued) : State :=
  match s.core.hearth? h, s.core.group? h slot with
  | some hr, some g => match s.core.part? g.part with
    | none => s
    | some p => match s.core.partition? p with
      | none => s
      | some q => match s.askWith hr q g p split recs with
        | .go b n => s.issueBundle b n false true
        | a => s.waits hr g p split a
  | _, _ => s

end Sys2Proof.Machine
end

