-- ==== Sys2Proof/Machine/Agenda.lean ====
section
/-! DEFINITION. The order of a cycle: what the environment sends, what is due in each of its phases, and how one phase follows
another; the fetch of admin commands (R363 to R365); and what placing a program takes. -/

namespace Sys2Proof.Machine

/-! ### What the environment sends -/

/-- A step that the environment may send; every other step arises within the machine. -/
def fromOutside : Instr → Bool
  | .computeError _ _ _ _ | .rerunCompare _ _ _ | .macCheckFail _ | .macRefetchDone _ _ | .uncorrectableData _ _ _
  | .correctedError _ | .rowSpareSwitch _ _ _ _ | .fqAnswer _ _ | .droopCut _ | .launchDoorbell _ _ _ | .leaseRevoke _
  | .channelDoorbell _ _ _ | .channelCopyComplete _ _ _ | .bar2WindowAccess _ _ _ _ _ | .lostClr _ | .sweepStart _
  | .sweepScanEnd _ | .sweepArrayEnd _ | .updateGo _ | .registerWrite _ _ _ _ | .functionLevelReset _ | .moduleReset _
  | .thermalThreshold _ _ | .rackCapMessage _ _ _ _ | .rackTimeMessage _ _ _ | .linkDead _ | .flitLinkState _ | .flitRead _
  | .flitWrite _ | .flitAtomic _ | .flitReadResponse _ | .flitWriteAck _ | .flitAtomicResponse _ | .flitAbortResponse _
  | .flitCollectiveData _ | .flitMonitorArm _ | .flitMonitorWake _ | .laneSpareRetrain _ _ | .portRetrain _ _
  | .temperatureFall _ _ | .flitReservedType _ | .heartbeatTimeout | .damperRestart | .powerLoss | .monitorWake => true
  | _ => false

/-- The first input that has landed, and the others; inputs that no environment can send are passed over. -/
def takeInput (cycle : Nat) : List (Nat × Instr) → Option (Instr × List (Nat × Instr))
  | [] => none
  | (c, i) :: l =>
    if !(fromOutside i) then takeInput cycle l
    else if c ≤ cycle then some (i, l)
    else (takeInput cycle l).map fun r => (r.1, (c, i) :: r.2)

/-- The module reset among the inputs of a module without power, and what lies after it. -/
def takeReset : List (Nat × Instr) → Option (Nat × Instr × List (Nat × Instr))
  | [] => none
  | (c, .moduleReset b) :: l => some (c, .moduleReset b, l)
  | _ :: l => takeReset l

/-! ### What is due in each phase -/

/-- The first due of a list. -/
def firstDue (l : List (Bool × Instr)) : Option Instr := (l.find? fun e => e.1).map fun e => e.2

/-- A port whose death is still to be flooded (R376). -/
def Fabric.dying (f : Fabric) : Option Nat := (f.ports.find? fun p => p.dead && !p.told).map fun p => p.port

/-- A channel with a copy to go on with. -/
def State.copying (s : State) : Option (Nat × Nat) :=
  s.hst.funcs.findSome? fun g => (g.channels.find? Channel.active).map fun c => (g.func, c.ch)

/-- A function whose window has an access to go on with. -/
def State.windowed (s : State) : Option Nat :=
  (s.hst.funcs.find? fun g => match g.win with | r :: _ => goesOn r.wait | [] => false).map fun g => g.func

/-- Time, power and service life. -/
def State.duePower (s : State) : Option Instr :=
  firstDue [
    (s.leaseDue.isSome, .leaseEnd),
    (s.updateDue, .updateActivate),
    (s.boundaryDue, .revolutionBoundary),
    (s.capLapsed, .capExpiry),
    (s.thermalDue.isSome, .thermalStepDown),
    (s.limiterDue.isSome, .limiterRelease),
    (s.holdDue.isSome, .limiterHoldEnd),
    (s.slideDue, .counterWindowSlide),
    (s.autoSweep.isSome, .sweepAutoStart),
    (s.sweepDrained, .sweepDrainEnd),
    (s.sweepOver 2, .sweepScanEnd 0),
    (s.sweepOver 3, .sweepArrayEnd 0),
    (s.sweepOver 4, .sweepFilingDone),
    (s.errorHoldoff || s.faultHoldoff.isSome, .interruptHoldoffExpiry)]

/-- The host's queues, faults, refills, channels and the fabric. -/
def State.dueHost (s : State) : Option Instr :=
  firstDue [
    (s.shootDue.isSome, .invalidate),
    (!s.cch.faultq.isEmpty, .translationFault),
    (s.retryDue.isSome, .fetchRetry),
    (s.core.accs.any (fun a => !a.replay.isEmpty), .loggedReplay),
    (s.rebuildDue.isSome, .decodeTableRebuild),
    (s.refillDue.isSome, .stokerRefill),
    (s.preloadDue.isSome, .partitionPreload),
    (s.copying.isSome, .channelCopyComplete (s.copying.getD (0, 0)).1 (s.copying.getD (0, 0)).2 none),
    (s.windowed.isSome, .bar2WindowAccess (s.windowed.getD 0) false 0 0 0),
    (s.drainDone.isSome, .drainRoundEnd),
    (s.remoteLate.isSome, .remoteRequestTimeout),
    (s.fab.dying.isSome, .linkDead (s.fab.dying.getD 0))]

/-- Launches and teams. -/
def State.dueLaunch (s : State) : Option Instr :=
  firstDue [
    (s.rewrapDue.isSome, .freshBufferRewrap),
    (s.completeDue.isSome, .launchCompletion),
    (s.lch.queues.any LQueue.ready, .launchAccept),
    (s.dependDue.isSome, .dependenceWake),
    (s.ageDue.isSome, .ageingExpiry),
    (s.loadDue.isSome, .meadowLoad),
    (s.returnDue.isSome, .teamReadyToReturn),
    (s.hst.ready && (s.comeBack (.swapped true)).isSome, .swapIn),
    (s.hst.ready && (s.comeBack .preempted).isSome, .contextRestore),
    (s.hst.ready && s.placeDue.isSome, .teamPlacement),
    (s.priorityDue.isSome, .priorityPreemptTrigger),
    (s.sliceDue.isSome, .timeSliceExpiry)]

/-- Engines, accesses and results at the end of a cycle (R20, R24, R188, R205, R296). -/
def State.dueLate (s : State) : Option Instr :=
  firstDue [
    (s.engStart?.isSome, .aOpStart),
    (s.engDue?.isSome, .aOpComplete),
    (s.windowDue.isSome, .meadowRefreshWindow),
    (s.nextAccess.isSome, .walkComplete),
    (s.pushDue.isSome, .releasePushComplete),
    (s.gsDue.isSome, .ldGsArrival),
    (s.matDue, .matrixStep),
    (s.landDue.isSome, .resultWriteback),
    (s.moveDue.isSome || s.lateDue.isSome, .variableLatencyResult),
    (s.regionDue.isSome, .walkComplete)]

/-- The boundary after a cycle (R103, R115, R255 to R257, R288 to R293, R301, R305, R410). -/
def State.dueBoundary (s : State) : Option Instr :=
  firstDue [
    ((s.tretDue 0).isSome, .tretReplay),
    ((s.tretDue 1).isSome, .tretSkip),
    ((s.tretDue 2).isSome, .tretGoto),
    ((s.tretDue 3).isSome, .tretExit),
    ((s.tretDue 4).isSome, .tretPark),
    ((s.tretDue 5).isSome, .tretEnd),
    (s.stopDue.isSome, .debugStop),
    (s.handlerDue.isSome, .handlerStart),
    (s.rung?.isSome, .monitorWake),
    (s.timeoutDue.isSome, .monitorTimeout),
    (s.mergeDue.isSome, .splitMerge),
    (s.closeDue.isSome, .checkpointClose),
    (s.shadowDue.isSome, .tileShadowDone),
    (s.retireDue.isSome, .groupRetirement),
    (s.preemptMonitor.isSome || (s.leaverDue 2).isSome, .preemption),
    (s.swapTrigger.isSome || s.staysDue.isSome || (s.leaverDue 1).isSome, .swapOut),
    (s.drainDue.isSome, .haltDrainDone),
    (s.dumpDue.isSome, .dumpWrite),
    (s.claimDue.isSome, .claimPlace)]

/-- What is due in the current phase. -/
def State.due (s : State) : Option Instr :=
  match s.phase with
  | 0 => (s.duePower.orElse fun _ => s.dueHost).orElse fun _ => s.dueLaunch
  | 1 => firstDue [(s.stStart?.isSome, .mmaStInstanceStart), (s.matDue, .matrixStep)]
  | 3 => s.dueLate
  | 4 => s.dueBoundary
  | 5 => if s.pow.taken ≤ s.cycle then some .emberRingTake else none
  | _ => none

/-! ### Admin commands (R363 to R365) -/

/-- The step that carries out an admin command, by its opcode. -/
def adminStep (opc : Nat) : Option Instr :=
  [Instr.identify, .summary, .lqCreate, .lqDelete, .worldAssign, .worldRoot, .invalidate, .bufReg, .bufUnreg, .meadowAssign,
    .preempt, .abort, .powerCeiling, .boost, .funcConfig, .chCreate, .chResync, .chDelete, .aperture, .domainConfig,
    .dbgRead, .dbgResume][opc - 1]?.filter fun _ => opc != 0

/-- A function with a command in its enabled submission ring. -/
def State.submitted (s : State) : Option Func :=
  s.hst.funcs.find? fun g => g.aqCtl.getLsbD 8 && g.asqHead != g.asqTail

/-- What comes next. -/
inductive Turn where
  /-- A step of the part, in this state. -/
  | event (s : State) (i : Instr)
  /-- The machine moves on by itself. -/
  | done (s : State)

/-- The device takes a function's next command: it is refused, or becomes the step that is carried out. -/
def State.fetchCommand (s : State) (g : Func) : Turn :=
  let bs := s.hostRead (g.asqBase.toNat + 64 * (g.asqHead.toNat % g.asqSize)) 64
  let s := s.modFunc g.func fun g => { g with asqHead := g.asqHead + 1 }
  let c : AdminCmd := { func := g.func, cid := leAt bs 2 2, p0 := le64 bs 8, p1 := le64 bs 16, p2 := le64 bs 24 }
  match adminStep (leAt bs 0 1) with
  | none => .done (s.reply c 1 0)
  | some i =>
    if leAt bs 1 1 ≠ 0 || leAt bs 4 4 ≠ 0 || leNat (bs.drop 32) ≠ 0 || c.cid = 0xFFFF then .done (s.reply c stBadParam 0)
    else .event { s with hst := { s.hst with cmd := some c } } i

/-! ### One phase after another -/

/-- The hearths that hold a part. -/
def Core.busyHearths (c : Core) : List Nat := ((c.parts.map fun p => p.h).eraseDups)

/-- The next phase begins. -/
def State.nextPhase (s : State) : State :=
  match s.phase with
  | 0 => { s.startTeams with phase := 1 }
  | 1 => { s with phase := 2, work := s.core.busyHearths.map Work.issue }
  | 3 => { ({ s with core := s.core.killDoomed } : State).wakePass with phase := 4 }
  | 4 => { s.boundaryPass.samplePass with phase := 5 }
  | 5 => s.tick
  | n => { s with phase := n + 1 }

/-- What comes next when no work stands open: an input that has landed, an admin command, what is due, or the next phase. -/
def State.turn (s : State) : Turn :=
  match (if s.phase = 0 then takeInput s.cycle s.inputs else none) with
  | some (i, rest) => .event { s with inputs := rest } i
  | none =>
    match (if s.phase = 0 then s.submitted else none) with
    | some g => s.fetchCommand g
    | none =>
      match s.due with
      | some i => .event s i
      | none => .done s.nextPhase

/-- The machine's next turn: the work that stands open first. -/
def State.nextTurn (s : State) : Turn :=
  match s.work with
  | .event i :: rest => .event { s with work := rest } i
  | .issue h :: rest => .done (({ s with work := rest } : State).issueHearth h)
  | .bundle h slot split recs :: rest => .done (({ s with work := rest } : State).issueRecs h slot split recs)
  | [] => s.turn

/-- A module without power waits for its next reset. -/
def State.darkTurn (s : State) : Option Turn :=
  (takeReset s.inputs).map fun r => .event { s with cycle := Nat.max s.cycle r.1, inputs := r.2.2, work := [] } r.2.1

end Sys2Proof.Machine
end

