-- ==== Sys2Proof/Machine/Place.lean ====
section
/-! DEFINITION. A one-op program placed whole: a resident team of one group whose stream buffer, decode table and ember pool
hold what its first bundle takes (log entry 3). -/

namespace Sys2Proof.Machine

/-- The slot whose field a table word fills. -/
def slotFor (nbits w : Nat) : Option Slot :=
  if nbits = 32 then
    if 0 < w % 256 && w % 256 ≤ 10 && !(w.testBit 31) && w / 67108864 % 32 ≤ 2 then some .f else some .x
  else if nbits = 40 then some .c
  else if nbits = 48 then some .s
  else if nbits = 56 then some .a
  else if nbits = 64 then some .v0
  else none

/-- The control word of a bundle of one op: the table's whole word, or the slot's field with its bus granted. -/
def controlFor (nbits w : Nat) : BitVec 512 :=
  match slotFor nbits w with
  | none => BitVec.ofNat 512 w
  | some sl => withParity (placeSlot sl (BitVec.ofNat 64 w) ||| BitVec.ofNat 512 (2 ^ 33 + 2 * 2 ^ 34 + 2 * 2 ^ 36))

/-- The image of the placed program. -/
def placedImage : Image :=
  { base := 0x10000, dictCount := 1, hotCount := 0, dictOff := 0x80, patOff := 0, patCount := 32, swCount := 0, tnCount := 0,
    swOff := 0, landOff := 0x200, tnOff := 0, streamOff := 0x1000, streamLen := 16, entry := 0, vregs := 64, acc := 4,
    groups := 1, stove := false, scratch := 65536, priv := 0 }

/-- Its patterns: every lane keeps its place. -/
def placedPats : List (List Nat) := List.replicate 32 (List.range 128)

/-- The part of the placed program on hearth 0. -/
def placedPart (s : State) : Part :=
  { id := 1, launch := 1, team := 0, p := 0, h := 0, func := 0, world := 1, prio := 0, image := placedImage, pid := 1,
    filt := 0x20000, arg := 0, privBase := 0x40000, privStride := 0, swap := 0, ovf := 0, ovfn := 0, handlerOff := 0xFFFFFFFF,
    dbgen := 0, brk := List.replicate 4 0xFFFFFFFF, flags := 0, sampn := 0, sbuf := 0, sbufn := 0, dbuf := 0, dbufn := 0,
    scratch := [], bars := (List.range 16).map fun _ => { gen := 0, expect := 1, arrived := 0, arrivals := [] },
    tn := List.replicate 64 (List.replicate 8 0), tnPend := [], pats := placedPats,
    threshold := 16384, waitClock := 0, handler := none, events := [], handlerAt := 0, shadow := [], epoch := 0, races := [],
    halt := 0, dump := 0, fates := [], stop := [], stopAt := none, bindings := [], placed := s.cycle }

/-- The decode-table partition that holds the one entry. -/
def placedPartition (s : State) (w : BitVec 512) : Partition :=
  let d := s.die 0
  { pid := 1, image := 0x10000, filt := 0x20000, world := 1, size := 0, base := 0, dictCount := 1,
    entries := { tag := some 0, busy := false, valid := true, pinned := false, ref := false, word := w,
                 data := filterEntry d.prices placedPats d.fver 0 w } :: List.replicate 7 emptyEntry,
    lru := [], hand := 0, preloaded := true, refills := [] }

/-- The stream page that holds the one-byte record of dictionary index 0. -/
def placedPage : StreamPage := { world := 1, page := 0x11, bytes := [] }

/-- The hearth of the placed program. -/
def Hearth.placed (hr : Hearth) (q : Partition) : Hearth :=
  { hr with present := true, pool := 64, claim := none, partitions := [q], rebuild := 0, stream := [placedPage] }

/-- A slot op's program placed, with the hearth's issue as the next thing to do. -/
def State.placeOp (s : State) (w : BitVec 512) : State :=
  let p := placedPart s
  let c := s.core.modHearth 0 fun hr => hr.placed (placedPartition s w)
  { s with
    phase := 2
    work := [.issue 0]
    core := { c with parts := [p], groups := [startGroup p 0 0 s.core.seq], land := [], accs := [], engs := [], mats := [] }
    pow := { s.pow with powered := true } }

/-- Place the instruction that a table word stands for. -/
def State.placeWord (s : State) (nbits w : Nat) : State :=
  match decodeTableWord nbits w with
  | some _ => s.placeOp (controlFor nbits w)
  | none => s

end Sys2Proof.Machine
end

