-- ==== Sys2Proof/Machine/Step.lean ====
section
/-! DEFINITION. One step of the machine, and the state in which the next step runs a given instruction. -/

namespace Sys2Proof.Machine

/-- One step: the next turn of the cycle's agenda. Without power nothing steps but a module reset. -/
def step (s : State) : Host.Outcome State Fault Refusal :=
  if s.pow.powered then
    match s.nextTurn with
    | .event t i => exec i t
    | .done t => .next t
  else match s.darkTurn with
    | some (.event t i) => exec i t
    | some (.done t) => .next t
    | none => .fault .noPower

/-- The state in which the next step fetches and runs the instruction that the word stands for: a slot op as a bundle
of its own at the stream position of a resident group, a step of the part as the next of the agenda. -/
def State.withFetchWord (s : State) (nbits w : Nat) : State := s.placeWord nbits w

end Sys2Proof.Machine
end

