-- ==== Sys2Proof/Laws/Exec.lean ====
section
/-! SUPPORT. The meaning of each constructor, one equation per arm of `exec`. -/

namespace Sys2Proof.Machine

theorem exec_br (f) (s) : exec (.br f) s = execBr f s := rfl
theorem exec_brc (f) (s) : exec (.brc f) s = execBrc f s := rfl
theorem exec_bri (f) (s) : exec (.bri f) s = execBri f s := rfl
theorem exec_brd (f) (s) : exec (.brd f) s = execBrd f s := rfl
theorem exec_brx (f) (s) : exec (.brx f) s = execBrx f s := rfl
theorem exec_call (f) (s) : exec (.call f) s = execCall f s := rfl
theorem exec_callScalar (f) (s) : exec (.callScalar f) s = execCallScalar f s := rfl
theorem exec_ret (f) (s) : exec (.ret f) s = execRet f s := rfl
theorem exec_join (f) (s) : exec (.join f) s = execJoin f s := rfl
theorem exec_brk (f) (s) : exec (.brk f) s = execBrk f s := rfl
theorem exec_brkScalar (f) (s) : exec (.brkScalar f) s = execBrkScalar f s := rfl
theorem exec_exit (f) (s) : exec (.exit f) s = execExit f s := rfl
theorem exec_trap (f) (s) : exec (.trap f) s = execTrap f s := rfl
theorem exec_tret (f) (s) : exec (.tret f) s = execTret f s := rfl
theorem exec_seq (f) (s) : exec (.seq f) s = execSeq f s := rfl
theorem exec_seqx (f) (s) : exec (.seqx f) s = execSeqx f s := rfl
theorem exec_swp (f) (s) : exec (.swp f) s = execSwp f s := rfl
theorem exec_chk (f) (s) : exec (.chk f) s = execChk f s := rfl
theorem exec_barArr (f) (s) : exec (.barArr f) s = execBarArr f s := rfl
theorem exec_barWt (f) (s) : exec (.barWt f) s = execBarWt f s := rfl
theorem exec_barSyn (f) (s) : exec (.barSyn f) s = execBarSyn f s := rfl
theorem exec_waitT (f) (s) : exec (.waitT f) s = execWaitT f s := rfl
theorem exec_wmon (f) (s) : exec (.wmon f) s = execWmon f s := rfl
theorem exec_yld (f) (s) : exec (.yld f) s = execYld f s := rfl
theorem exec_spawn (f) (s) : exec (.spawn f) s = execSpawn f s := rfl
theorem exec_dbg (f) (s) : exec (.dbg f) s = execDbg f s := rfl
theorem exec_add (f) (s) : exec (.add f) s = execAdd f s := rfl
theorem exec_sub (f) (s) : exec (.sub f) s = execSub f s := rfl
theorem exec_mul (f) (s) : exec (.mul f) s = execMul f s := rfl
theorem exec_mulh (f) (s) : exec (.mulh f) s = execMulh f s := rfl
theorem exec_and (f) (s) : exec (.and f) s = execAnd f s := rfl
theorem exec_or (f) (s) : exec (.or f) s = execOr f s := rfl
theorem exec_xor (f) (s) : exec (.xor f) s = execXor f s := rfl
theorem exec_shl (f) (s) : exec (.shl f) s = execShl f s := rfl
theorem exec_shr (f) (s) : exec (.shr f) s = execShr f s := rfl
theorem exec_sar (f) (s) : exec (.sar f) s = execSar f s := rfl
theorem exec_rot (f) (s) : exec (.rot f) s = execRot f s := rfl
theorem exec_min (f) (s) : exec (.min f) s = execMin f s := rfl
theorem exec_max (f) (s) : exec (.max f) s = execMax f s := rfl
theorem exec_minn (f) (s) : exec (.minn f) s = execMinn f s := rfl
theorem exec_maxn (f) (s) : exec (.maxn f) s = execMaxn f s := rfl
theorem exec_cmp (f) (s) : exec (.cmp f) s = execCmp f s := rfl
theorem exec_sel (f) (s) : exec (.sel f) s = execSel f s := rfl
theorem exec_mov (f) (s) : exec (.mov f) s = execMov f s := rfl
theorem exec_li (f) (s) : exec (.li f) s = execLi f s := rfl
theorem exec_lea (f) (s) : exec (.lea f) s = execLea f s := rfl
theorem exec_clz (f) (s) : exec (.clz f) s = execClz f s := rfl
theorem exec_ctz (f) (s) : exec (.ctz f) s = execCtz f s := rfl
theorem exec_popc (f) (s) : exec (.popc f) s = execPopc f s := rfl
theorem exec_brev (f) (s) : exec (.brev f) s = execBrev f s := rfl
theorem exec_bfx (f) (s) : exec (.bfx f) s = execBfx f s := rfl
theorem exec_bfi (f) (s) : exec (.bfi f) s = execBfi f s := rfl
theorem exec_sext (f) (s) : exec (.sext f) s = execSext f s := rfl
theorem exec_zext (f) (s) : exec (.zext f) s = execZext f s := rfl
theorem exec_csrRd (f) (s) : exec (.csrRd f) s = execCsrRd f s := rfl
theorem exec_csrWr (f) (s) : exec (.csrWr f) s = execCsrWr f s := rfl
theorem exec_csrSet (f) (s) : exec (.csrSet f) s = execCsrSet f s := rfl
theorem exec_csrClr (f) (s) : exec (.csrClr f) s = execCsrClr f s := rfl
theorem exec_kset (f) (s) : exec (.kset f) s = execKset f s := rfl
theorem exec_kand (f) (s) : exec (.kand f) s = execKand f s := rfl
theorem exec_kor (f) (s) : exec (.kor f) s = execKor f s := rfl
theorem exec_kxor (f) (s) : exec (.kxor f) s = execKxor f s := rfl
theorem exec_knot (f) (s) : exec (.knot f) s = execKnot f s := rfl
theorem exec_kpop (f) (s) : exec (.kpop f) s = execKpop f s := rfl
theorem exec_kfirst (f) (s) : exec (.kfirst f) s = execKfirst f s := rfl
theorem exec_vadd (f) (s) : exec (.vadd f) s = execVadd f s := rfl
theorem exec_vsub (f) (s) : exec (.vsub f) s = execVsub f s := rfl
theorem exec_vmul (f) (s) : exec (.vmul f) s = execVmul f s := rfl
theorem exec_vfma (f) (s) : exec (.vfma f) s = execVfma f s := rfl
theorem exec_vfms (f) (s) : exec (.vfms f) s = execVfms f s := rfl
theorem exec_vfnma (f) (s) : exec (.vfnma f) s = execVfnma f s := rfl
theorem exec_vmin (f) (s) : exec (.vmin f) s = execVmin f s := rfl
theorem exec_vmax (f) (s) : exec (.vmax f) s = execVmax f s := rfl
theorem exec_vabs (f) (s) : exec (.vabs f) s = execVabs f s := rfl
theorem exec_vneg (f) (s) : exec (.vneg f) s = execVneg f s := rfl
theorem exec_vcpys (f) (s) : exec (.vcpys f) s = execVcpys f s := rfl
theorem exec_vcmp (f) (s) : exec (.vcmp f) s = execVcmp f s := rfl
theorem exec_vclass (f) (s) : exec (.vclass f) s = execVclass f s := rfl
theorem exec_vcvt (f) (s) : exec (.vcvt f) s = execVcvt f s := rfl
theorem exec_vrnd (f) (s) : exec (.vrnd f) s = execVrnd f s := rfl
theorem exec_vldexp (f) (s) : exec (.vldexp f) s = execVldexp f s := rfl
theorem exec_vdot2 (f) (s) : exec (.vdot2 f) s = execVdot2 f s := rfl
theorem exec_vdot4 (f) (s) : exec (.vdot4 f) s = execVdot4 f s := rfl
theorem exec_vdot8 (f) (s) : exec (.vdot8 f) s = execVdot8 f s := rfl
theorem exec_viadd (f) (s) : exec (.viadd f) s = execViadd f s := rfl
theorem exec_visub (f) (s) : exec (.visub f) s = execVisub f s := rfl
theorem exec_vimul (f) (s) : exec (.vimul f) s = execVimul f s := rfl
theorem exec_vimulh (f) (s) : exec (.vimulh f) s = execVimulh f s := rfl
theorem exec_vimad (f) (s) : exec (.vimad f) s = execVimad f s := rfl
theorem exec_vabsd (f) (s) : exec (.vabsd f) s = execVabsd f s := rfl
theorem exec_vimin (f) (s) : exec (.vimin f) s = execVimin f s := rfl
theorem exec_vimax (f) (s) : exec (.vimax f) s = execVimax f s := rfl
theorem exec_vicmp (f) (s) : exec (.vicmp f) s = execVicmp f s := rfl
theorem exec_vsadd (f) (s) : exec (.vsadd f) s = execVsadd f s := rfl
theorem exec_vssub (f) (s) : exec (.vssub f) s = execVssub f s := rfl
theorem exec_vshl (f) (s) : exec (.vshl f) s = execVshl f s := rfl
theorem exec_vshr (f) (s) : exec (.vshr f) s = execVshr f s := rfl
theorem exec_vsar (f) (s) : exec (.vsar f) s = execVsar f s := rfl
theorem exec_vand (f) (s) : exec (.vand f) s = execVand f s := rfl
theorem exec_vor (f) (s) : exec (.vor f) s = execVor f s := rfl
theorem exec_vxor (f) (s) : exec (.vxor f) s = execVxor f s := rfl
theorem exec_vnot (f) (s) : exec (.vnot f) s = execVnot f s := rfl
theorem exec_vpopc (f) (s) : exec (.vpopc f) s = execVpopc f s := rfl
theorem exec_vclz (f) (s) : exec (.vclz f) s = execVclz f s := rfl
theorem exec_vbrev (f) (s) : exec (.vbrev f) s = execVbrev f s := rfl
theorem exec_vbfx (f) (s) : exec (.vbfx f) s = execVbfx f s := rfl
theorem exec_vbfi (f) (s) : exec (.vbfi f) s = execVbfi f s := rfl
theorem exec_vsel (f) (s) : exec (.vsel f) s = execVsel f s := rfl
theorem exec_vmov (f) (s) : exec (.vmov f) s = execVmov f s := rfl
theorem exec_vmovi (f) (s) : exec (.vmovi f) s = execVmovi f s := rfl
theorem exec_vs2v (f) (s) : exec (.vs2v f) s = execVs2v f s := rfl
theorem exec_vext (f) (s) : exec (.vext f) s = execVext f s := rfl
theorem exec_vlane (f) (s) : exec (.vlane f) s = execVlane f s := rfl
theorem exec_vgid (f) (s) : exec (.vgid f) s = execVgid f s := rfl
theorem exec_vwid (f) (s) : exec (.vwid f) s = execVwid f s := rfl
theorem exec_vnar (f) (s) : exec (.vnar f) s = execVnar f s := rfl
theorem exec_vpack (f) (s) : exec (.vpack f) s = execVpack f s := rfl
theorem exec_vunpk (f) (s) : exec (.vunpk f) s = execVunpk f s := rfl
theorem exec_vqz (f) (s) : exec (.vqz f) s = execVqz f s := rfl
theorem exec_vdq (f) (s) : exec (.vdq f) s = execVdq f s := rfl
theorem exec_frcp (f) (s) : exec (.frcp f) s = execFrcp f s := rfl
theorem exec_frsq (f) (s) : exec (.frsq f) s = execFrsq f s := rfl
theorem exec_fsqrt (f) (s) : exec (.fsqrt f) s = execFsqrt f s := rfl
theorem exec_fexp2 (f) (s) : exec (.fexp2 f) s = execFexp2 f s := rfl
theorem exec_flog2 (f) (s) : exec (.flog2 f) s = execFlog2 f s := rfl
theorem exec_fsin (f) (s) : exec (.fsin f) s = execFsin f s := rfl
theorem exec_fcos (f) (s) : exec (.fcos f) s = execFcos f s := rfl
theorem exec_ftanh (f) (s) : exec (.ftanh f) s = execFtanh f s := rfl
theorem exec_fsig (f) (s) : exec (.fsig f) s = execFsig f s := rfl
theorem exec_ferf (f) (s) : exec (.ferf f) s = execFerf f s := rfl
theorem exec_xperm (f) (s) : exec (.xperm f) s = execXperm f s := rfl
theorem exec_xpush (f) (s) : exec (.xpush f) s = execXpush f s := rfl
theorem exec_xpushd (f) (s) : exec (.xpushd f) s = execXpushd f s := rfl
theorem exec_xpushdHi (f) (s) : exec (.xpushdHi f) s = execXpushdHi f s := rfl
theorem exec_xpull (f) (s) : exec (.xpull f) s = execXpull f s := rfl
theorem exec_xrot (f) (s) : exec (.xrot f) s = execXrot f s := rfl
theorem exec_xbc (f) (s) : exec (.xbc f) s = execXbc f s := rfl
theorem exec_xup (f) (s) : exec (.xup f) s = execXup f s := rfl
theorem exec_xdn (f) (s) : exec (.xdn f) s = execXdn f s := rfl
theorem exec_xbfly (f) (s) : exec (.xbfly f) s = execXbfly f s := rfl
theorem exec_xtr (f) (s) : exec (.xtr f) s = execXtr f s := rfl
theorem exec_xred (f) (s) : exec (.xred f) s = execXred f s := rfl
theorem exec_xscan (f) (s) : exec (.xscan f) s = execXscan f s := rfl
theorem exec_xbal (f) (s) : exec (.xbal f) s = execXbal f s := rfl
theorem exec_ldG (f) (s) : exec (.ldG f) s = execLdG f s := rfl
theorem exec_stG (f) (s) : exec (.stG f) s = execStG f s := rfl
theorem exec_ldSc (f) (s) : exec (.ldSc f) s = execLdSc f s := rfl
theorem exec_stSc (f) (s) : exec (.stSc f) s = execStSc f s := rfl
theorem exec_ldSp (f) (s) : exec (.ldSp f) s = execLdSp f s := rfl
theorem exec_stSp (f) (s) : exec (.stSp f) s = execStSp f s := rfl
theorem exec_satom (f) (s) : exec (.satom f) s = execSatom f s := rfl
theorem exec_ldPv (f) (s) : exec (.ldPv f) s = execLdPv f s := rfl
theorem exec_stPv (f) (s) : exec (.stPv f) s = execStPv f s := rfl
theorem exec_ldMd (f) (s) : exec (.ldMd f) s = execLdMd f s := rfl
theorem exec_ldGs (f) (s) : exec (.ldGs f) s = execLdGs f s := rfl
theorem exec_atom (f) (s) : exec (.atom f) s = execAtom f s := rfl
theorem exec_atomCas (f) (s) : exec (.atomCas f) s = execAtomCas f s := rfl
theorem exec_atomFadd (f) (s) : exec (.atomFadd f) s = execAtomFadd f s := rfl
theorem exec_atomOfa (f) (s) : exec (.atomOfa f) s = execAtomOfa f s := rfl
theorem exec_atomOclose (f) (s) : exec (.atomOclose f) s = execAtomOclose f s := rfl
theorem exec_pf (f) (s) : exec (.pf f) s = execPf f s := rfl
theorem exec_bind (f) (s) : exec (.bind f) s = execBind f s := rfl
theorem exec_unbind (f) (s) : exec (.unbind f) s = execUnbind f s := rfl
theorem exec_acq (f) (s) : exec (.acq f) s = execAcq f s := rfl
theorem exec_rel (f) (s) : exec (.rel f) s = execRel f s := rfl
theorem exec_fence (f) (s) : exec (.fence f) s = execFence f s := rfl
theorem exec_cpGs (f) (s) : exec (.cpGs f) s = execCpGs f s := rfl
theorem exec_cpSg (f) (s) : exec (.cpSg f) s = execCpSg f s := rfl
theorem exec_cpGg (f) (s) : exec (.cpGg f) s = execCpGg f s := rfl
theorem exec_cpMs (f) (s) : exec (.cpMs f) s = execCpMs f s := rfl
theorem exec_gth (f) (s) : exec (.gth f) s = execGth f s := rfl
theorem exec_sct (f) (s) : exec (.sct f) s = execSct f s := rfl
theorem exec_collBc (f) (s) : exec (.collBc f) s = execCollBc f s := rfl
theorem exec_collRed (f) (s) : exec (.collRed f) s = execCollRed f s := rfl
theorem exec_collAg (f) (s) : exec (.collAg f) s = execCollAg f s := rfl
theorem exec_collA2a (f) (s) : exec (.collA2a f) s = execCollA2a f s := rfl
theorem exec_tnWr (f) (s) : exec (.tnWr f) s = execTnWr f s := rfl
theorem exec_tnRd (f) (s) : exec (.tnRd f) s = execTnRd f s := rfl
theorem exec_tnLd (f) (s) : exec (.tnLd f) s = execTnLd f s := rfl
theorem exec_sqLd (f) (s) : exec (.sqLd f) s = execSqLd f s := rfl
theorem exec_sqDrp (f) (s) : exec (.sqDrp f) s = execSqDrp f s := rfl
theorem exec_qInit (f) (s) : exec (.qInit f) s = execQInit f s := rfl
theorem exec_qAdvp (f) (s) : exec (.qAdvp f) s = execQAdvp f s := rfl
theorem exec_qAdvc (f) (s) : exec (.qAdvc f) s = execQAdvc f s := rfl
theorem exec_qWt (f) (s) : exec (.qWt f) s = execQWt f s := rfl
theorem exec_tagTst (f) (s) : exec (.tagTst f) s = execTagTst f s := rfl
theorem exec_mma (f) (s) : exec (.mma f) s = execMma f s := rfl
theorem exec_mmaQ (f) (s) : exec (.mmaQ f) s = execMmaQ f s := rfl
theorem exec_mmaSp (f) (s) : exec (.mmaSp f) s = execMmaSp f s := rfl
theorem exec_mmaSt (f) (s) : exec (.mmaSt f) s = execMmaSt f s := rfl
theorem exec_accZ (f) (s) : exec (.accZ f) s = execAccZ f s := rfl
theorem exec_accLd (f) (s) : exec (.accLd f) s = execAccLd f s := rfl
theorem exec_accSt (f) (s) : exec (.accSt f) s = execAccSt f s := rfl
theorem exec_accCvt (f) (s) : exec (.accCvt f) s = execAccCvt f s := rfl
theorem exec_accMv (f) (s) : exec (.accMv f) s = execAccMv f s := rfl
theorem exec_accAdd (f) (s) : exec (.accAdd f) s = execAccAdd f s := rfl
theorem exec_kat (f) (s) : exec (.kat f) s = execKat f s := rfl
theorem exec_computeError (h slot unit covered) (s) : exec (.computeError h slot unit covered) s = execComputeError h slot unit covered s := rfl
theorem exec_rerunCompare (h slot runs) (s) : exec (.rerunCompare h slot runs) s = execRerunCompare h slot runs s := rfl
theorem exec_macCheckFail (read) (s) : exec (.macCheckFail read) s = execMacCheckFail read s := rfl
theorem exec_macRefetchDone (line image) (s) : exec (.macRefetchDone line image) s = execMacRefetchDone line image s := rfl
theorem exec_uncorrectableData (line dirty unit) (s) : exec (.uncorrectableData line dirty unit) s = execUncorrectableData line dirty unit s := rfl
theorem exec_correctedError (e) (s) : exec (.correctedError e) s = execCorrectedError e s := rfl
theorem exec_rowSpareSwitch (die region bank row) (s) : exec (.rowSpareSwitch die region bank row) s = execRowSpareSwitch die region bank row s := rfl
theorem exec_fqAnswer (func value) (s) : exec (.fqAnswer func value) s = execFqAnswer func value s := rfl
theorem exec_droopCut (die) (s) : exec (.droopCut die) s = execDroopCut die s := rfl
theorem exec_launchDoorbell (func queue value) (s) : exec (.launchDoorbell func queue value) s = execLaunchDoorbell func queue value s := rfl
theorem exec_leaseRevoke (die) (s) : exec (.leaseRevoke die) s = execLeaseRevoke die s := rfl
theorem exec_channelDoorbell (func ch value) (s) : exec (.channelDoorbell func ch value) s = execChannelDoorbell func ch value s := rfl
theorem exec_channelCopyComplete (func ch hostAbort) (s) : exec (.channelCopyComplete func ch hostAbort) s = execChannelCopyComplete func ch hostAbort s := rfl
theorem exec_bar2WindowAccess (func write off len data) (s) : exec (.bar2WindowAccess func write off len data) s = execBar2WindowAccess func write off len data s := rfl
theorem exec_lostClr (addr) (s) : exec (.lostClr addr) s = execLostClr addr s := rfl
theorem exec_sweepStart (stove) (s) : exec (.sweepStart stove) s = execSweepStart stove s := rfl
theorem exec_sweepScanEnd (failed) (s) : exec (.sweepScanEnd failed) s = execSweepScanEnd failed s := rfl
theorem exec_sweepArrayEnd (failed) (s) : exec (.sweepArrayEnd failed) s = execSweepArrayEnd failed s := rfl
theorem exec_updateGo (img) (s) : exec (.updateGo img) s = execUpdateGo img s := rfl
theorem exec_registerWrite (func off half value) (s) : exec (.registerWrite func off half value) s = execRegisterWrite func off half value s := rfl
theorem exec_functionLevelReset (func) (s) : exec (.functionLevelReset func) s = execFunctionLevelReset func s := rfl
theorem exec_moduleReset (b) (s) : exec (.moduleReset b) s = execModuleReset b s := rfl
theorem exec_thermalThreshold (die celsius) (s) : exec (.thermalThreshold die celsius) s = execThermalThreshold die celsius s := rfl
theorem exec_rackCapMessage (endpoint watts seqn expiry) (s) : exec (.rackCapMessage endpoint watts seqn expiry) s = execRackCapMessage endpoint watts seqn expiry s := rfl
theorem exec_rackTimeMessage (endpoint seqn time) (s) : exec (.rackTimeMessage endpoint seqn time) s = execRackTimeMessage endpoint seqn time s := rfl
theorem exec_linkDead (port) (s) : exec (.linkDead port) s = execLinkDead port s := rfl
theorem exec_flitLinkState (f) (s) : exec (.flitLinkState f) s = execFlitLinkState f s := rfl
theorem exec_flitRead (f) (s) : exec (.flitRead f) s = execFlitRead f s := rfl
theorem exec_flitWrite (f) (s) : exec (.flitWrite f) s = execFlitWrite f s := rfl
theorem exec_flitAtomic (f) (s) : exec (.flitAtomic f) s = execFlitAtomic f s := rfl
theorem exec_flitReadResponse (f) (s) : exec (.flitReadResponse f) s = execFlitReadResponse f s := rfl
theorem exec_flitWriteAck (f) (s) : exec (.flitWriteAck f) s = execFlitWriteAck f s := rfl
theorem exec_flitAtomicResponse (f) (s) : exec (.flitAtomicResponse f) s = execFlitAtomicResponse f s := rfl
theorem exec_flitAbortResponse (f) (s) : exec (.flitAbortResponse f) s = execFlitAbortResponse f s := rfl
theorem exec_flitCollectiveData (f) (s) : exec (.flitCollectiveData f) s = execFlitCollectiveData f s := rfl
theorem exec_flitMonitorArm (f) (s) : exec (.flitMonitorArm f) s = execFlitMonitorArm f s := rfl
theorem exec_flitMonitorWake (f) (s) : exec (.flitMonitorWake f) s = execFlitMonitorWake f s := rfl
theorem exec_laneSpareRetrain (port lane) (s) : exec (.laneSpareRetrain port lane) s = execLaneSpareRetrain port lane s := rfl
theorem exec_portRetrain (port ok) (s) : exec (.portRetrain port ok) s = execPortRetrain port ok s := rfl
theorem exec_temperatureFall (die celsius) (s) : exec (.temperatureFall die celsius) s = execTemperatureFall die celsius s := rfl
theorem exec_reservedOpcode (slot word) (s) : exec (.reservedOpcode slot word) s = execReservedOpcode slot word s := rfl
theorem exec_flitReservedType (f) (s) : exec (.flitReservedType f) s = execFlitReservedType f s := rfl
theorem exec_tretReplay (s) : exec .tretReplay s = execTretReplay s := rfl
theorem exec_tretSkip (s) : exec .tretSkip s = execTretSkip s := rfl
theorem exec_tretGoto (s) : exec .tretGoto s = execTretGoto s := rfl
theorem exec_tretExit (s) : exec .tretExit s = execTretExit s := rfl
theorem exec_tretPark (s) : exec .tretPark s = execTretPark s := rfl
theorem exec_tretEnd (s) : exec .tretEnd s = execTretEnd s := rfl
theorem exec_resultWriteback (s) : exec .resultWriteback s = execResultWriteback s := rfl
theorem exec_variableLatencyResult (s) : exec .variableLatencyResult s = execVariableLatencyResult s := rfl
theorem exec_ldGsArrival (s) : exec .ldGsArrival s = execLdGsArrival s := rfl
theorem exec_stokerRefill (s) : exec .stokerRefill s = execStokerRefill s := rfl
theorem exec_partitionPreload (s) : exec .partitionPreload s = execPartitionPreload s := rfl
theorem exec_decodeTableRebuild (s) : exec .decodeTableRebuild s = execDecodeTableRebuild s := rfl
theorem exec_sequencerIssue (s) : exec .sequencerIssue s = execSequencerIssue s := rfl
theorem exec_splitMerge (s) : exec .splitMerge s = execSplitMerge s := rfl
theorem exec_aOpStart (s) : exec .aOpStart s = execAOpStart s := rfl
theorem exec_aOpComplete (s) : exec .aOpComplete s = execAOpComplete s := rfl
theorem exec_matrixStep (s) : exec .matrixStep s = execMatrixStep s := rfl
theorem exec_mmaStInstanceStart (s) : exec .mmaStInstanceStart s = execMmaStInstanceStart s := rfl
theorem exec_tileShadowDone (s) : exec .tileShadowDone s = execTileShadowDone s := rfl
theorem exec_checkpointClose (s) : exec .checkpointClose s = execCheckpointClose s := rfl
theorem exec_counterWindowSlide (s) : exec .counterWindowSlide s = execCounterWindowSlide s := rfl
theorem exec_translationFault (s) : exec .translationFault s = execTranslationFault s := rfl
theorem exec_loggedReplay (s) : exec .loggedReplay s = execLoggedReplay s := rfl
theorem exec_fetchRetry (s) : exec .fetchRetry s = execFetchRetry s := rfl
theorem exec_handlerStart (s) : exec .handlerStart s = execHandlerStart s := rfl
theorem exec_debugStop (s) : exec .debugStop s = execDebugStop s := rfl
theorem exec_claimPlace (s) : exec .claimPlace s = execClaimPlace s := rfl
theorem exec_revolutionBoundary (s) : exec .revolutionBoundary s = execRevolutionBoundary s := rfl
theorem exec_limiterRelease (s) : exec .limiterRelease s = execLimiterRelease s := rfl
theorem exec_meadowRefreshWindow (s) : exec .meadowRefreshWindow s = execMeadowRefreshWindow s := rfl
theorem exec_monitorWake (s) : exec .monitorWake s = execMonitorWake s := rfl
theorem exec_monitorTimeout (s) : exec .monitorTimeout s = execMonitorTimeout s := rfl
theorem exec_swapOut (s) : exec .swapOut s = execSwapOut s := rfl
theorem exec_teamReadyToReturn (s) : exec .teamReadyToReturn s = execTeamReadyToReturn s := rfl
theorem exec_swapIn (s) : exec .swapIn s = execSwapIn s := rfl
theorem exec_groupRetirement (s) : exec .groupRetirement s = execGroupRetirement s := rfl
theorem exec_launchAccept (s) : exec .launchAccept s = execLaunchAccept s := rfl
theorem exec_dependenceWake (s) : exec .dependenceWake s = execDependenceWake s := rfl
theorem exec_teamPlacement (s) : exec .teamPlacement s = execTeamPlacement s := rfl
theorem exec_ageingExpiry (s) : exec .ageingExpiry s = execAgeingExpiry s := rfl
theorem exec_meadowLoad (s) : exec .meadowLoad s = execMeadowLoad s := rfl
theorem exec_priorityPreemptTrigger (s) : exec .priorityPreemptTrigger s = execPriorityPreemptTrigger s := rfl
theorem exec_timeSliceExpiry (s) : exec .timeSliceExpiry s = execTimeSliceExpiry s := rfl
theorem exec_preemption (s) : exec .preemption s = execPreemption s := rfl
theorem exec_contextRestore (s) : exec .contextRestore s = execContextRestore s := rfl
theorem exec_launchCompletion (s) : exec .launchCompletion s = execLaunchCompletion s := rfl
theorem exec_freshBufferRewrap (s) : exec .freshBufferRewrap s = execFreshBufferRewrap s := rfl
theorem exec_haltDrainDone (s) : exec .haltDrainDone s = execHaltDrainDone s := rfl
theorem exec_dumpWrite (s) : exec .dumpWrite s = execDumpWrite s := rfl
theorem exec_identify (s) : exec .identify s = execIdentify s := rfl
theorem exec_summary (s) : exec .summary s = execSummary s := rfl
theorem exec_lqCreate (s) : exec .lqCreate s = execLqCreate s := rfl
theorem exec_lqDelete (s) : exec .lqDelete s = execLqDelete s := rfl
theorem exec_worldAssign (s) : exec .worldAssign s = execWorldAssign s := rfl
theorem exec_worldRoot (s) : exec .worldRoot s = execWorldRoot s := rfl
theorem exec_invalidate (s) : exec .invalidate s = execInvalidate s := rfl
theorem exec_bufReg (s) : exec .bufReg s = execBufReg s := rfl
theorem exec_bufUnreg (s) : exec .bufUnreg s = execBufUnreg s := rfl
theorem exec_meadowAssign (s) : exec .meadowAssign s = execMeadowAssign s := rfl
theorem exec_preempt (s) : exec .preempt s = execPreempt s := rfl
theorem exec_abort (s) : exec .abort s = execAbort s := rfl
theorem exec_powerCeiling (s) : exec .powerCeiling s = execPowerCeiling s := rfl
theorem exec_boost (s) : exec .boost s = execBoost s := rfl
theorem exec_funcConfig (s) : exec .funcConfig s = execFuncConfig s := rfl
theorem exec_chCreate (s) : exec .chCreate s = execChCreate s := rfl
theorem exec_chResync (s) : exec .chResync s = execChResync s := rfl
theorem exec_chDelete (s) : exec .chDelete s = execChDelete s := rfl
theorem exec_aperture (s) : exec .aperture s = execAperture s := rfl
theorem exec_domainConfig (s) : exec .domainConfig s = execDomainConfig s := rfl
theorem exec_dbgRead (s) : exec .dbgRead s = execDbgRead s := rfl
theorem exec_dbgResume (s) : exec .dbgResume s = execDbgResume s := rfl
theorem exec_leaseEnd (s) : exec .leaseEnd s = execLeaseEnd s := rfl
theorem exec_sweepAutoStart (s) : exec .sweepAutoStart s = execSweepAutoStart s := rfl
theorem exec_sweepDrainEnd (s) : exec .sweepDrainEnd s = execSweepDrainEnd s := rfl
theorem exec_sweepFilingDone (s) : exec .sweepFilingDone s = execSweepFilingDone s := rfl
theorem exec_updateActivate (s) : exec .updateActivate s = execUpdateActivate s := rfl
theorem exec_heartbeatTimeout (s) : exec .heartbeatTimeout s = execHeartbeatTimeout s := rfl
theorem exec_thermalStepDown (s) : exec .thermalStepDown s = execThermalStepDown s := rfl
theorem exec_capExpiry (s) : exec .capExpiry s = execCapExpiry s := rfl
theorem exec_drainRoundEnd (s) : exec .drainRoundEnd s = execDrainRoundEnd s := rfl
theorem exec_remoteRequestTimeout (s) : exec .remoteRequestTimeout s = execRemoteRequestTimeout s := rfl
theorem exec_emberRingTake (s) : exec .emberRingTake s = execEmberRingTake s := rfl
theorem exec_releasePushComplete (s) : exec .releasePushComplete s = execReleasePushComplete s := rfl
theorem exec_walkComplete (s) : exec .walkComplete s = execWalkComplete s := rfl
theorem exec_interruptHoldoffExpiry (s) : exec .interruptHoldoffExpiry s = execInterruptHoldoffExpiry s := rfl
theorem exec_limiterHoldEnd (s) : exec .limiterHoldEnd s = execLimiterHoldEnd s := rfl
theorem exec_damperRestart (s) : exec .damperRestart s = execDamperRestart s := rfl
theorem exec_powerLoss (s) : exec .powerLoss s = execPowerLoss s := rfl
theorem exec_refusedEntryIssue (s) : exec .refusedEntryIssue s = execRefusedEntryIssue s := rfl
theorem exec_streamFetchFault (s) : exec .streamFetchFault s = execStreamFetchFault s := rfl

end Sys2Proof.Machine
end

