-- ==== Sys2Proof/Laws/Slot.lean ====
section
/-! SUPPORT. What a slot op can do at issue: nothing, a trap for a reserved value, or its own effect (R28, R29, R286). -/

namespace Sys2Proof.Machine

/-- A view shows the state it was taken of. -/
theorem view_st {s : State} {v : View} (h : view s = some v) : v.st = s := by
  unfold view at h
  split at h
  · cases h
  · split at h
    · cases h
    · cases h; rfl

theorem view_x {s : State} {v : View} (h : view s = some v) : v.x = s.core.ctx := by
  unfold view at h
  split at h
  · cases h
  · split at h
    · cases h
    · cases h; rfl

theorem view_group {s : State} {v : View} (h : view s = some v) :
    s.core.group? s.core.ctx.h s.core.ctx.slot = some v.g := by
  unfold view at h
  split at h
  · cases h
  · rename_i hg
    split at h
    · cases h
    · cases h; exact hg

theorem view_part {s : State} {v : View} (h : view s = some v) : s.core.part? v.g.part = some v.p := by
  unfold view at h
  split at h
  · cases h
  · split at h
    · cases h
    · rename_i hp
      cases h; exact hp

/-- With no lane an op does nothing (R28). -/
theorem slotOp_idle {s : State} {v : View} {sl : Slot} {hd : Hdr} {bad : View → Option Nat}
    {eff : View → LaneMask → OpResult} (hv : view s = some v) (h0 : v.lanesOf sl hd = 0) :
    slotOp s sl hd bad eff = s.core := by
  simp only [slotOp, hv]
  exact if_pos h0

/-- A reserved value traps: after the bundle in the T slot, at issue in the others (R29, R207). -/
theorem slotOp_reserved {s : State} {v : View} {sl : Slot} {hd : Hdr} {bad : View → Option Nat}
    {eff : View → LaneMask → OpResult} {bit : Nat} (hv : view s = some v) (h0 : v.lanesOf sl hd ≠ 0)
    (hb : bad v = some bit) :
    slotOp s sl hd bad eff =
      takeTrap s (v.reserved (placeOf sl) (v.lanesOf sl hd) bit) (if sl = .t then 1 else 0) := by
  simp only [slotOp, hv, hb]
  exact if_neg h0

/-- Else the op has its effect. -/
theorem slotOp_ok {s : State} {v : View} {sl : Slot} {hd : Hdr} {bad : View → Option Nat}
    {eff : View → LaneMask → OpResult} {c : Core} (hv : view s = some v) (h0 : v.lanesOf sl hd ≠ 0)
    (hb : bad v = none) (he : eff v (v.lanesOf sl hd) = .ok c) : slotOp s sl hd bad eff = c := by
  simp only [slotOp, hv, hb]
  refine (if_neg h0).trans ?_
  change (match eff v (v.lanesOf sl hd) with | .ok c => c | .trap t o => takeTrap s t o) = _
  rw [he]

/-- Or takes its own trap. -/
theorem slotOp_trap {s : State} {v : View} {sl : Slot} {hd : Hdr} {bad : View → Option Nat}
    {eff : View → LaneMask → OpResult} {t : TrapInfo} {o : Nat} (hv : view s = some v) (h0 : v.lanesOf sl hd ≠ 0)
    (hb : bad v = none) (he : eff v (v.lanesOf sl hd) = .trap t o) : slotOp s sl hd bad eff = takeTrap s t o := by
  simp only [slotOp, hv, hb]
  refine (if_neg h0).trans ?_
  change (match eff v (v.lanesOf sl hd) with | .ok c => c | .trap t o => takeTrap s t o) = _
  rw [he]

/-- No check of a list holds. -/
theorem firstBad_none {l : List (Bool × Nat)} : firstBad l = none ↔ ∀ c ∈ l, c.1 = false := by
  unfold firstBad
  rw [List.min?_eq_none_iff, List.map_eq_nil_iff, List.filter_eq_nil_iff]
  simp

/-- Some check of a list holds. -/
theorem firstBad_some {l : List (Bool × Nat)} (h : ∃ c ∈ l, c.1 = true) : ∃ bit, firstBad l = some bit := by
  cases hb : firstBad l with
  | some bit => exact ⟨bit, rfl⟩
  | none =>
    obtain ⟨c, hc, ht⟩ := h
    simp [firstBad_none.1 hb c hc] at ht

end Sys2Proof.Machine
end

