-- ==== Sys2Proof/Certificates/Slice0/Obligations.lean ====
section
/-! DEFINITION. The statements for the provers, and the words they are written in. -/

section Statements

open Sys2Proof Sys2Proof.Machine

namespace Sys2Proof.Claims

/-! ### The words of the statements -/

/-- What a step of the part answers. -/
abbrev Answer := Host.Outcome State Fault Refusal

/-- An op stands at issue (R10, R28): `v` is the bundle's group, part and context, and `act` are the op's lanes, not none. -/
structure AtIssue (s : State) (v : View) (sl : Slot) (hd : Hdr) (act : LaneMask) : Prop where
  view : view s = some v
  lanes : act = v.lanesOf sl hd
  some : act ≠ 0

/-- The hearths with one more result on its way, due at the end of cycle c + `lat` (R20). -/
def sent (s : State) (lat : Nat) (sq : Bool) (bus : Option Nat) (m : LaneMask) (ws : List RegWrite) (fl : List (BitVec 5))
    (sat : LaneMask) : Core :=
  { s.core with land := s.core.land ++
      [({ h := s.core.ctx.h, slot := s.core.ctx.slot, split := s.core.ctx.split, due := s.cycle + lat,
          seq := s.core.ctx.seq, sq := sq, bus := bus, lanes := m, writes := ws, fflags := fl, isat := sat } : Landing)] }

/-- The machine goes on with these hearths, and nothing else of it has changed. -/
def carriesOn (s : State) (c : Core) : Answer := .next { s with core := c }

/-- The issuing split takes RESERVED_FIELD at issue, of a field in the slot at `place` or in the shared field (R29, R287). -/
def ReservedTrap (s : State) (v : View) (place : Nat) (act : LaneMask) (a : Answer) : Prop :=
  ∃ bit, a = carriesOn s (takeTrap s (v.reserved place act bit) 0)

/-! ### The S slot (R124 to R134) -/

/-- A scalar result: one register, at the end of the issue cycle (R124). -/
def scalarSent (s : State) (sq : Bool) (code : Nat) (x : W64) : Core := sent s 0 sq none 0 [.scalar (codeReg code) x] [] 0
/-- A predicate result in the active lanes (R134). -/
def predSent (s : State) (sq : Bool) (code : Nat) (act k : LaneMask) : Core :=
  sent s 0 sq none 0 [.pred (code - 0x30) act k] [] 0

/-- SB is a register, or BSEL = 01 and a literal is routed in its place (R124). -/
def SecondOk (v : View) (f : SFields) : Prop :=
  (f.bsel = 0 ∧ isSA f.sb.toNat = true) ∨ (f.bsel = 1 ∧ f.sb = 0 ∧ v.routed .s = true)
/-- The second source (R124). -/
def second (v : View) (f : SFields) : W64 := if f.bsel = 1 then v.literal .s else v.scalar f.sb.toNat
/-- SB and BSEL are not used. -/
def NoSecond (f : SFields) : Prop := f.sb = 0 ∧ f.bsel = 0
/-- SD and SA are of the s or a class. -/
def DestFirst (f : SFields) : Prop := isSA f.sd.toNat = true ∧ isSA f.sa.toNat = true
/-- WIDTH is 00 or 01. -/
def WidthOk (f : SFields) : Prop := f.width.toNat ≤ 1
/-- A value computed at 64 bits, or at 32 bits and sign-extended (R124). -/
def byWidth (f : SFields) (x : W64) (y : W32) : W64 := if f.width = 1 then y.signExtend 64 else x

/-- A two-operand op of R125: it completes in its legal forms, and a reserved form traps. -/
def TwoSource (mk : SFields → Instr) (top : Nat) (op64 : SFields → W64 → W64 → W64) (op32 : SFields → W32 → W32 → W32) : Prop :=
  ∀ (s : State) (v : View) (f : SFields) (act : LaneMask), AtIssue s v .s f.hdr act →
    (DestFirst f → SecondOk v f → WidthOk f → f.func.toNat ≤ top → f.aux = 0 →
      exec (mk f) s = carriesOn s (scalarSent s f.hdr.sq f.sd.toNat
        (byWidth f (op64 f (v.scalar f.sa.toNat) (second v f))
          (op32 f ((v.scalar f.sa.toNat).setWidth 32) ((second v f).setWidth 32))))) ∧
    (¬(DestFirst f ∧ SecondOk v f ∧ WidthOk f ∧ f.func.toNat ≤ top ∧ f.aux = 0) → ReservedTrap s v 5 act (exec (mk f) s))

/-- A one-operand op of R128 or R129. -/
def OneSource (mk : SFields → Instr) (op64 : W64 → W64) (op32 : W32 → W32) : Prop :=
  ∀ (s : State) (v : View) (f : SFields) (act : LaneMask), AtIssue s v .s f.hdr act →
    (DestFirst f → NoSecond f → WidthOk f → f.func = 0 → f.aux = 0 →
      exec (mk f) s = carriesOn s (scalarSent s f.hdr.sq f.sd.toNat
        (byWidth f (op64 (v.scalar f.sa.toNat)) (op32 ((v.scalar f.sa.toNat).setWidth 32))))) ∧
    (¬(DestFirst f ∧ NoSecond f ∧ WidthOk f ∧ f.func = 0 ∧ f.aux = 0) → ReservedTrap s v 5 act (exec (mk f) s))

/-- The conditions of cmp (R126). -/
def cmpTrue {n : Nat} (func : Nat) (a b : BitVec n) : Bool :=
  match func with
  | 0 => decide (a = b)
  | 1 => decide (a ≠ b)
  | 2 => decide (a.toInt < b.toInt)
  | 3 => decide (b.toInt ≤ a.toInt)
  | 4 => decide (b.toInt < a.toInt)
  | 5 => decide (a.toInt ≤ b.toInt)
  | 6 => decide (a.toNat < b.toNat)
  | 7 => decide (b.toNat ≤ a.toNat)
  | 8 => decide (b.toNat < a.toNat)
  | _ => decide (a.toNat ≤ b.toNat)

/-- The condition operand of sel (R127). -/
def selTrue (v : View) (code : Nat) (act : LaneMask) : Prop :=
  (isK code = true ∧ v.g.pred (code - 0x30) &&& act ≠ 0) ∨ (isK code = false ∧ v.scalar code ≠ 0)

/-- Bits [len - 1:0] set. -/
def lowMask (len : Nat) : W64 := BitVec.ofNat 64 (2 ^ len - 1)

/-- The S ops whose SB, BSEL and FUNC are 0. -/
def Plain (f : SFields) : Prop := DestFirst f ∧ f.func = 0 ∧ f.bsel = 0 ∧ f.width = 0

end Sys2Proof.Claims

open Sys2Proof.Claims

/-- R124, R125: every two-operand scalar op, at both widths, with a register or a literal. -/
def Obligations.ScalarTwoOperandResults : Prop :=
  TwoSource .add 0 (fun _ a b => a + b) (fun _ a b => a + b) ∧
  TwoSource .sub 0 (fun _ a b => a - b) (fun _ a b => a - b) ∧
  TwoSource .mul 0 (fun _ a b => a * b) (fun _ a b => a * b) ∧
  TwoSource .mulh 1
    (fun f a b => if f.func = 1 then BitVec.ofNat 64 (a.toNat * b.toNat / 2 ^ 64) else BitVec.ofInt 64 (a.toInt * b.toInt / 2 ^ 64))
    (fun f a b => if f.func = 1 then BitVec.ofNat 32 (a.toNat * b.toNat / 2 ^ 32) else BitVec.ofInt 32 (a.toInt * b.toInt / 2 ^ 32)) ∧
  TwoSource .and 0 (fun _ a b => a &&& b) (fun _ a b => a &&& b) ∧
  TwoSource .or 0 (fun _ a b => a ||| b) (fun _ a b => a ||| b) ∧
  TwoSource .xor 0 (fun _ a b => a ^^^ b) (fun _ a b => a ^^^ b) ∧
  TwoSource .shl 0 (fun _ a b => a <<< (b.toNat % 64)) (fun _ a b => a <<< (b.toNat % 32)) ∧
  TwoSource .shr 0 (fun _ a b => a >>> (b.toNat % 64)) (fun _ a b => a >>> (b.toNat % 32)) ∧
  TwoSource .sar 0 (fun _ a b => a.sshiftRight (b.toNat % 64)) (fun _ a b => a.sshiftRight (b.toNat % 32)) ∧
  TwoSource .rot 0 (fun _ a b => a.rotateRight (b.toNat % 64)) (fun _ a b => a.rotateRight (b.toNat % 32)) ∧
  TwoSource .min 0 (fun _ a b => if a.toInt ≤ b.toInt then a else b) (fun _ a b => if a.toInt ≤ b.toInt then a else b) ∧
  TwoSource .max 0 (fun _ a b => if a.toInt ≤ b.toInt then b else a) (fun _ a b => if a.toInt ≤ b.toInt then b else a) ∧
  TwoSource .minn 0 (fun _ a b => if a.toNat ≤ b.toNat then a else b) (fun _ a b => if a.toNat ≤ b.toNat then a else b) ∧
  TwoSource .maxn 0 (fun _ a b => if a.toNat ≤ b.toNat then b else a) (fun _ a b => if a.toNat ≤ b.toNat then b else a)

/-- R126 to R128: compares, selects, moves, literals and address forms. -/
def Sys2Proof.Claims.ScalarCompareSelectMove : Prop :=
  ∀ (s : State) (v : View) (f : SFields) (act : LaneMask), AtIssue s v .s f.hdr act →
    (isSA f.sa.toNat = true → SecondOk v f → WidthOk f → f.func.toNat ≤ 9 → f.aux = 0 →
      let r := if f.width = 1 then cmpTrue f.func.toNat ((v.scalar f.sa.toNat).setWidth 32) ((second v f).setWidth 32)
        else cmpTrue f.func.toNat (v.scalar f.sa.toNat) (second v f)
      exec (.cmp f) s = carriesOn s (if isK f.sd.toNat then predSent s f.hdr.sq f.sd.toNat act (if r then LaneMask.all else 0)
        else scalarSent s f.hdr.sq f.sd.toNat (if r then 1 else 0))) ∧
    (DestFirst f → isSA f.sb.toNat = true → f.bsel = 0 → WidthOk f → f.func = 0 → f.aux.toNat < 64 →
      (selTrue v f.aux.toNat act → exec (.sel f) s = carriesOn s (scalarSent s f.hdr.sq f.sd.toNat
        (byWidth f (v.scalar f.sa.toNat) ((v.scalar f.sa.toNat).setWidth 32)))) ∧
      (¬selTrue v f.aux.toNat act → exec (.sel f) s = carriesOn s (scalarSent s f.hdr.sq f.sd.toNat
        (byWidth f (v.scalar f.sb.toNat) ((v.scalar f.sb.toNat).setWidth 32))))) ∧
    (DestFirst f → NoSecond f → WidthOk f → f.func = 0 → f.aux = 0 →
      exec (.mov f) s = carriesOn s (scalarSent s f.hdr.sq f.sd.toNat
        (byWidth f (v.scalar f.sa.toNat) ((v.scalar f.sa.toNat).setWidth 32)))) ∧
    (isSA f.sd.toNat = true → f.sa = 0 → f.sb = 0 → f.bsel = 1 → v.routed .s = true → WidthOk f → f.func = 0 → f.aux = 0 →
      exec (.li f) s = carriesOn s (scalarSent s f.hdr.sq f.sd.toNat (byWidth f (v.literal .s) ((v.literal .s).setWidth 32)))) ∧
    (DestFirst f → SecondOk v f → f.width = 0 → f.func = 0 → f.aux.toNat < 8 →
      exec (.lea f) s = carriesOn s (scalarSent s f.hdr.sq f.sd.toNat (v.scalar f.sa.toNat + (second v f) <<< f.aux.toNat)))

/-- R129 to R131: counts, bit reversal, fields and extensions. -/
def Sys2Proof.Claims.ScalarBitFields : Prop :=
  OneSource .clz (fun a => BitVec.ofNat 64 (if a = 0 then 64 else 63 - a.toNat.log2))
    (fun a => BitVec.ofNat 32 (if a = 0 then 32 else 31 - a.toNat.log2)) ∧
  OneSource .ctz (fun a => BitVec.ofNat 64 (((List.range 64).find? fun i => a.getLsbD i).getD 64))
    (fun a => BitVec.ofNat 32 (((List.range 32).find? fun i => a.getLsbD i).getD 32)) ∧
  OneSource .popc (fun a => BitVec.ofNat 64 ((List.range 64).countP fun i => a.getLsbD i))
    (fun a => BitVec.ofNat 32 ((List.range 32).countP fun i => a.getLsbD i)) ∧
  OneSource .brev (fun a => BitVec.ofNat 64 (((List.range 64).map fun i => if a.getLsbD i then 2 ^ (63 - i) else 0).sum))
    (fun a => BitVec.ofNat 32 (((List.range 32).map fun i => if a.getLsbD i then 2 ^ (31 - i) else 0).sum)) ∧
  (∀ (s : State) (v : View) (f : SFields) (act : LaneMask), AtIssue s v .s f.hdr act → Plain f →
    (f.aux.toNat + (f.sb.toNat + 1) ≤ 64 →
      let m := lowMask (f.sb.toNat + 1)
      exec (.bfx f) s = carriesOn s (scalarSent s f.hdr.sq f.sd.toNat ((v.scalar f.sa.toNat >>> f.aux.toNat) &&& m)) ∧
      exec (.bfi f) s = carriesOn s (scalarSent s f.hdr.sq f.sd.toNat
        ((v.scalar f.sd.toNat &&& ~~~(m <<< f.aux.toNat)) ||| ((v.scalar f.sa.toNat <<< f.aux.toNat) &&& (m <<< f.aux.toNat))))) ∧
    (f.sb = 0 → f.aux.toNat < 64 →
      exec (.sext f) s = carriesOn s (scalarSent s f.hdr.sq f.sd.toNat
        (BitVec.ofInt 64 ((v.scalar f.sa.toNat).setWidth (f.aux.toNat + 1)).toInt)) ∧
      exec (.zext f) s = carriesOn s (scalarSent s f.hdr.sq f.sd.toNat
        (BitVec.ofNat 64 ((v.scalar f.sa.toNat).setWidth (f.aux.toNat + 1)).toNat))))

/-- R126 to R131: Compares, selects, moves, literals and address forms. Counts, bit reversal, fields and extensions. -/
def Obligations.ScalarOpResults : Prop := Claims.ScalarCompareSelectMove ∧ Claims.ScalarBitFields

/-- R134: the predicate ops write their predicate in the active lanes, or count them. -/
def Obligations.PredicateOpResults : Prop :=
  ∀ (s : State) (v : View) (f : SFields) (act : LaneMask), AtIssue s v .s f.hdr act → f.func = 0 → f.width = 0 → f.aux = 0 →
    let k := fun (c : BitVec 6) => v.g.pred (c.toNat - 0x30)
    (isK f.sd.toNat = true → f.bsel = 0 → isSA f.sa.toNat = true → isSA f.sb.toNat = true →
      exec (.kset f) s = carriesOn s (predSent s f.hdr.sq f.sd.toNat act (v.scalar f.sa.toNat ++ v.scalar f.sb.toNat))) ∧
    (isK f.sd.toNat = true → f.bsel = 1 → f.sa = 0 → f.sb = 0 → v.routed .s = true →
      exec (.kset f) s = carriesOn s (predSent s f.hdr.sq f.sd.toNat act ((0 : W64) ++ v.literal .s))) ∧
    (isK f.sd.toNat = true → isK f.sa.toNat = true → isK f.sb.toNat = true → f.bsel = 0 →
      exec (.kand f) s = carriesOn s (predSent s f.hdr.sq f.sd.toNat act (k f.sa &&& k f.sb)) ∧
      exec (.kor f) s = carriesOn s (predSent s f.hdr.sq f.sd.toNat act (k f.sa ||| k f.sb)) ∧
      exec (.kxor f) s = carriesOn s (predSent s f.hdr.sq f.sd.toNat act (k f.sa ^^^ k f.sb))) ∧
    (isK f.sd.toNat = true → isK f.sa.toNat = true → f.sb = 0 → f.bsel = 0 →
      exec (.knot f) s = carriesOn s (predSent s f.hdr.sq f.sd.toNat act (~~~k f.sa))) ∧
    (isSA f.sd.toNat = true → isK f.sa.toNat = true → f.sb = 0 → f.bsel = 0 →
      exec (.kpop f) s = carriesOn s (scalarSent s f.hdr.sq f.sd.toNat
        (BitVec.ofNat 64 ((List.range 128).countP fun n => (k f.sa &&& act).getLsbD n))) ∧
      exec (.kfirst f) s = carriesOn s (scalarSent s f.hdr.sq f.sd.toNat
        (BitVec.ofNat 64 (((List.range 128).find? fun n => (k f.sa &&& act).getLsbD n).getD 128))))

namespace Sys2Proof.Claims

/-- A special register that any code of the group may write, with its reserved bits (R46, R43, R47, R133). -/
def plainCsr (n : Nat) : Option W64 :=
  match n with
  | 0x10 => some 0x1F
  | 0x11 => some 0x7
  | 0x12 => some 0x1
  | 0x23 => some 0x1FFFFF
  | 0x2A => some 0xF
  | _ => none

/-- The team handler's registers (R133, R289, R290). -/
def handlerCsr (n : Nat) : Prop := (0x30 ≤ n ∧ n ≤ 0x32) ∨ (0x34 ≤ n ∧ n ≤ 0x37)

/-- A special register that can be read (R133). -/
def Readable (v : View) (n : Nat) : Prop :=
  n ≤ 0x09 ∨ (0x10 ≤ n ∧ n ≤ 0x12) ∨ n = 0x18 ∨ n = 0x19 ∨ (0x20 ≤ n ∧ n ≤ 0x23) ∨ (0x28 ≤ n ∧ n ≤ 0x2B) ∨
  (v.x.split = 4 ∧ handlerCsr n)

/-- The value of a write form: SA, or the literal (R132). -/
def csrOperand (v : View) (f : SFields) : W64 := if f.bsel = 1 then v.literal .s else v.scalar f.sa.toNat

/-- The form of the csr write ops (R132). -/
def CsrForm (v : View) (f : SFields) : Prop :=
  f.sd = 0 ∧ f.sb = 0 ∧ f.func = 0 ∧ f.width = 0 ∧
  ((f.bsel = 0 ∧ isSA f.sa.toNat = true) ∨ (f.bsel = 1 ∧ f.sa = 0 ∧ v.routed .s = true))

/-- The new value of a writable register lies in its range (R133). -/
def CsrRange (n : Nat) (x : W64) : Prop := n = 0x23 → 1024 ≤ x.toNat ∧ x.toNat ≤ 1048576

end Sys2Proof.Claims

/-- R132, R133: reads and writes of the special registers, and the reserved values of the write forms. -/
def Obligations.SpecialRegisterAccess : Prop :=
  ∀ (s : State) (v : View) (f : SFields) (act : LaneMask), AtIssue s v .s f.hdr act →
    (isSA f.sd.toNat = true → f.sa = 0 → f.sb = 0 → f.func = 0 → f.bsel = 0 → f.width = 0 →
      (Readable v f.aux.toNat →
        exec (.csrRd f) s = carriesOn s (scalarSent s f.hdr.sq f.sd.toNat (v.csr f.aux.toNat act))) ∧
      (¬Readable v f.aux.toNat → ReservedTrap s v 5 act (exec (.csrRd f) s))) ∧
    (CsrForm v f → ∀ m, plainCsr f.aux.toNat = some m →
      let x := csrOperand v f
      let old := v.csr f.aux.toNat act
      let write := fun y => carriesOn s (sent s 0 f.hdr.sq none 0 [.csr f.aux.toNat y] [] 0)
      (x &&& ~~~m = 0 → CsrRange f.aux.toNat x → exec (.csrWr f) s = write x) ∧
      (x &&& ~~~m = 0 → CsrRange f.aux.toNat (old ||| x) → exec (.csrSet f) s = write (old ||| x)) ∧
      (CsrRange f.aux.toNat (old &&& ~~~x) → exec (.csrClr f) s = write (old &&& ~~~x)) ∧
      (x &&& ~~~m ≠ 0 → ReservedTrap s v 5 act (exec (.csrWr f) s) ∧ ReservedTrap s v 5 act (exec (.csrSet f) s))) ∧
    (CsrForm v f → plainCsr f.aux.toNat = none → ¬(v.x.split = 4 ∧ handlerCsr f.aux.toNat) →
      ReservedTrap s v 5 act (exec (.csrWr f) s) ∧ ReservedTrap s v 5 act (exec (.csrSet f) s) ∧
      ReservedTrap s v 5 act (exec (.csrClr f) s))

namespace Sys2Proof.Claims

/-! ### The V slots (R135 to R152) -/

/-- The named vector registers are allocated and aligned to their number (R18, R36). -/
def VecOk (v : View) (n span : Nat) : Prop := n + span ≤ v.vregs ∧ n % span = 0

/-- The second source of a V op is a register, one 32-bit literal or a scalar (R136). -/
def VSecond (v : View) (f : VFields) : Prop :=
  (f.bsel = 0 ∧ VecOk v f.vb.toNat 1) ∨ (f.bsel = 1 ∧ f.vb = 0 ∧ v.route32 (vSlot f) = true) ∨
  (f.bsel = 2 ∧ f.vb.toNat < 32)

/-- The fields every V op shares: registers VD and VA of so many registers each, a second and a third source or not,
and RM or SAT where the op takes them (R136, R137). -/
structure VLegal (v : View) (f : VFields) (srcs : Nat) (rm sat : Bool) (dspan aspan : Nat) : Prop where
  vd : VecOk v f.vd.toNat dspan
  va : if srcs = 0 then f.va = 0 else VecOk v f.va.toNat aspan
  vb : if 2 ≤ srcs then VSecond v f else f.vb = 0 ∧ f.bsel = 0
  vc : if srcs = 3 then VecOk v f.vc.toNat 1 else f.vc = 0
  rm : rm = false → f.rm = 0
  sat : sat = false → f.sat = false
  rsv : f.rsv = 0

/-- A V result on its way to `k` registers from VD, through the unit's own bus, at the end of c + 3 (R135); each active
lane writes its words and raises its flags, and no other lane does (R26, R46). -/
def vSent (s : State) (v : View) (f : VFields) (act : LaneMask) (k : Nat) (out : Nat → LaneOut) : Core :=
  sent s 3 f.hdr.sq (some (if f.unit1 then 1 else 0)) act
    ((List.range k).map fun j => .lanes (rotated v.x.rho (f.vd.toNat + j)) act
      ((List.range 128).map fun n => if act.has n then (out n).1.getD j 0 else 0))
    ((List.range 128).map fun n => if act.has n then (out n).2.1 else 0)
    (LaneMask.build fun n => act.has n && (out n).2.2)

/-- A V predicate result on its way: no bus, the end of c + 3 (R135, R139). -/
def vPredSent (s : State) (f : VFields) (act : LaneMask) (out : Nat → Bool × FlagSet) : Core :=
  sent s 3 f.hdr.sq none act [.pred f.vd.toNat act (LaneMask.build fun n => act.has n && (out n).1)]
    ((List.range 128).map fun n => if act.has n then (out n).2 else 0) 0

/-- The place of a V op's own fields in INFO0 (R287). -/
def vPlace (f : VFields) : Nat := if f.unit1 then 3 else 4

/-- A V op of one register: in its legal forms it sends the value of each lane, computed of that lane's a, b, c and the
old d; a reserved form traps (R18, R29, R136). -/
def VComputes (mk : VFields → Instr) (srcs : Nat) (rm sat : Bool) (ok : VFields → Prop)
    (out : View → VFields → Nat → W32 → W32 → W32 → W32 → LaneOut) : Prop :=
  ∀ (s : State) (v : View) (f : VFields) (act : LaneMask), AtIssue s v (vSlot f) f.hdr act →
    (VLegal v f srcs rm sat 1 1 → ok f →
      exec (mk f) s = carriesOn s (vSent s v f act 1 fun n => out v f n ((v.vec f.va.toNat).lane n) (v.vb f n)
        ((v.vec f.vc.toNat).lane n) ((v.vec f.vd.toNat).lane n))) ∧
    (¬(VLegal v f srcs rm sat 1 1 ∧ ok f) → ReservedTrap s v (vPlace f) act (exec (mk f) s))

/-- FMT is f32, f16 or bf16, and FMT2 and FUNC are 0 (R138). -/
def FloatForm (f : VFields) : Prop := f.fmt.toNat ≤ 2 ∧ f.fmt2 = 0 ∧ f.func = 0
/-- FMT is an integer of 8, 16 or 32 bits, and FMT2 and FUNC are 0 (R143). -/
def IntForm (f : VFields) : Prop := f.fmt.toNat ∈ [8, 9, 10, 12, 13, 14] ∧ f.fmt2 = 0 ∧ f.func = 0
/-- FMT is one of a list, and FMT2 and FUNC are 0. -/
def FmtForm (l : List Nat) (f : VFields) : Prop := f.fmt.toNat ∈ l ∧ f.fmt2 = 0 ∧ f.func = 0

/-- Element by element, an exact value rounded once in the op's mode (R42, R138). -/
def roundedOnce (v : View) (f : VFields) (op : RMode → (W32 → FVal) → FVal × FlagSet) : LaneOut :=
  perElem (fmtWidth f.fmt.toNat) fun i => flagElem (deliverWith (fmtOf f) (v.rmode f.rm) v.ftz false
    (op (v.rmode f.rm) fun x => v.fval (fmtOf f) (elemOf x (fmtWidth f.fmt.toNat) i)))

/-- Element by element on encodings after the flush of FTZ (R44). -/
def onEncodings (v : View) (f : VFields) (op : FloatFmt → (W32 → Nat) → Nat × FlagSet) : LaneOut :=
  perElem (fmtWidth f.fmt.toNat) fun i =>
    flagElem (op (fmtOf f) fun x => flushIn (fmtOf f) v.ftz (elemOf x (fmtWidth f.fmt.toNat) i))

/-- Element by element on integers, a result modulo 2^w (R143). -/
def onInts (f : VFields) (op : (W32 → Int) → Int) : LaneOut :=
  perElem (fmtWidth f.fmt.toNat) fun i =>
    ((op (fun x => intVal f.fmt.toNat (elemOf x (fmtWidth f.fmt.toNat) i)) % ((2 ^ fmtWidth f.fmt.toNat : Nat) : Int)).toNat, 0, false)

/-- Element by element on integers, a result modulo 2^w or clamped to the format's bounds (R53). -/
def onIntsClamped (f : VFields) (sat : Bool) (op : (W32 → Int) → Int) : LaneOut :=
  perElem (fmtWidth f.fmt.toNat) fun i =>
    let x := op fun y => intVal f.fmt.toNat (elemOf y (fmtWidth f.fmt.toNat) i)
    let lo := (intBounds f.fmt.toNat).1
    let hi := (intBounds f.fmt.toNat).2
    let y := if sat then max lo (min hi x) else x
    ((y % ((2 ^ fmtWidth f.fmt.toNat : Nat) : Int)).toNat, 0, sat && (decide (x < lo) || decide (hi < x)))

/-- Element by element on raw bits of the width (R145, R147). -/
def onRaw (f : VFields) (op : Nat → (W32 → Nat) → Nat) : LaneOut :=
  perElem (fmtWidth f.fmt.toNat) fun i =>
    (op (fmtWidth f.fmt.toNat) (fun x => elemOf x (fmtWidth f.fmt.toNat) i), 0, false)

/-- One whole word of a lane. -/
def word (x : W32) : LaneOut := ([x], 0, false)

end Sys2Proof.Claims

/-- R42, R44, R138: the rounding floating-point ops compute exactly and round once. -/
def Obligations.VectorFloatArithmetic : Prop :=
  VComputes .vadd 2 true false FloatForm (fun v f _ a b _ _ => roundedOnce v f fun rm e => sumExact rm [e a, e b]) ∧
  VComputes .vsub 2 true false FloatForm (fun v f _ a b _ _ => roundedOnce v f fun rm e => sumExact rm [e a, (e b).neg]) ∧
  VComputes .vmul 2 true false FloatForm (fun v f _ a b _ _ => roundedOnce v f fun _ e => mulExact (e a) (e b)) ∧
  VComputes .vfma 3 true false FloatForm (fun v f _ a b c _ => roundedOnce v f fun rm e =>
    ((sumExact rm [(mulExact (e a) (e b)).1, e c]).1, (sumExact rm [(mulExact (e a) (e b)).1, e c]).2 ||| (mulExact (e a) (e b)).2)) ∧
  VComputes .vfms 3 true false FloatForm (fun v f _ a b c _ => roundedOnce v f fun rm e =>
    ((sumExact rm [(mulExact (e a) (e b)).1, (e c).neg]).1,
     (sumExact rm [(mulExact (e a) (e b)).1, (e c).neg]).2 ||| (mulExact (e a) (e b)).2)) ∧
  VComputes .vfnma 3 true false FloatForm (fun v f _ a b c _ => roundedOnce v f fun rm e =>
    ((sumExact rm [(mulExact (e a) (e b)).1.neg, e c]).1,
     (sumExact rm [(mulExact (e a) (e b)).1.neg, e c]).2 ||| (mulExact (e a) (e b)).2)) ∧
  VComputes .vrnd 1 true false FloatForm (fun v f _ a _ _ _ => onEncodings v f fun F e => roundIntegral F (v.rmode f.rm) (e a)) ∧
  VComputes .vldexp 2 true false FloatForm (fun v f _ a b _ _ =>
    perElem (fmtWidth f.fmt.toNat) fun i => flagElem (deliverWith (fmtOf f) (v.rmode f.rm) v.ftz false
      (let x := v.fval (fmtOf f) (elemOf a (fmtWidth f.fmt.toNat) i)
       (scaleVal x (toSigned (fmtWidth f.fmt.toNat) (elemOf b (fmtWidth f.fmt.toNat) i)), if x.isSig then flagIV else 0))))

/-- R138 to R140: the ops that do not round, the compare and the classes. -/
def Obligations.VectorFloatSelections : Prop :=
  VComputes .vmin 2 false false FloatForm (fun v f _ a b _ _ => onEncodings v f fun F e => minMax F false (e a) (e b)) ∧
  VComputes .vmax 2 false false FloatForm (fun v f _ a b _ _ => onEncodings v f fun F e => minMax F true (e a) (e b)) ∧
  VComputes .vabs 1 false false FloatForm (fun v f _ a _ _ _ => onEncodings v f fun F e => withSign F (e a) false) ∧
  VComputes .vneg 1 false false FloatForm (fun v f _ a _ _ _ => onEncodings v f fun F e =>
    withSign F (e a) (!((e a).testBit (F.mbits + F.ebits)))) ∧
  VComputes .vcpys 2 false false FloatForm (fun v f _ a b _ _ => perElem (fmtWidth f.fmt.toNat) fun i =>
    flagElem (withSign (fmtOf f) (flushIn (fmtOf f) v.ftz (elemOf a (fmtWidth f.fmt.toNat) i))
      ((elemOf b (fmtWidth f.fmt.toNat) i).testBit ((fmtOf f).mbits + (fmtOf f).ebits)))) ∧
  VComputes .vclass 1 false false FloatForm (fun _ f _ a _ _ _ => perElem (fmtWidth f.fmt.toNat) fun i =>
    (classOf (fmtOf f) (elemOf a (fmtWidth f.fmt.toNat) i), 0, false)) ∧
  (∀ (s : State) (v : View) (f : VFields) (act : LaneMask), AtIssue s v (vSlot f) f.hdr act →
    f.vd.toNat < 16 → VecOk v f.va.toNat 1 → VSecond v f → f.vc = 0 → f.rm = 0 → f.sat = false → f.rsv = 0 → f.fmt2 = 0 →
    (f.fmt.toNat ≤ 2 → f.func.toNat ≤ 7 →
      exec (.vcmp f) s = carriesOn s (vPredSent s f act fun n => allElems (fmtWidth f.fmt.toNat) fun i =>
        fcmpHolds f.func.toNat (v.fval (fmtOf f) (elemOf ((v.vec f.va.toNat).lane n) (fmtWidth f.fmt.toNat) i))
          (v.fval (fmtOf f) (elemOf (v.vb f n) (fmtWidth f.fmt.toNat) i)))) ∧
    (f.fmt.toNat ∈ [8, 9, 10, 12, 13, 14] → f.func.toNat ≤ 5 →
      exec (.vicmp f) s = carriesOn s (vPredSent s f act fun n =>
        ((List.range (32 / fmtWidth f.fmt.toNat)).all fun i =>
          icmpHolds f.func.toNat (intVal f.fmt.toNat (elemOf ((v.vec f.va.toNat).lane n) (fmtWidth f.fmt.toNat) i))
            (intVal f.fmt.toNat (elemOf (v.vb f n) (fmtWidth f.fmt.toNat) i)), 0))))

/-- R53, R143: the integer ops, modulo 2^w or clamped. -/
def Obligations.VectorIntegers : Prop :=
  VComputes .viadd 2 false false IntForm (fun _ f _ a b _ _ => onInts f fun e => e a + e b) ∧
  VComputes .visub 2 false false IntForm (fun _ f _ a b _ _ => onInts f fun e => e a - e b) ∧
  VComputes .vimul 2 false true IntForm (fun _ f _ a b _ _ => onIntsClamped f f.sat fun e => e a * e b) ∧
  VComputes .vimulh 2 false false IntForm (fun _ f _ a b _ _ => onInts f fun e => e a * e b / ((2 ^ fmtWidth f.fmt.toNat : Nat) : Int)) ∧
  VComputes .vimad 3 false true IntForm (fun _ f _ a b c _ => onIntsClamped f f.sat fun e => e a * e b + e c) ∧
  VComputes .vabsd 2 false false IntForm (fun _ f _ a b _ _ => onInts f fun e => ((e a - e b).natAbs : Int)) ∧
  VComputes .vimin 2 false false IntForm (fun _ f _ a b _ _ => onInts f fun e => min (e a) (e b)) ∧
  VComputes .vimax 2 false false IntForm (fun _ f _ a b _ _ => onInts f fun e => max (e a) (e b)) ∧
  VComputes .vsadd 2 false false IntForm (fun _ f _ a b _ _ =>
    onIntsClamped f true fun e => e a + e b) ∧
  VComputes .vssub 2 false false IntForm (fun _ f _ a b _ _ => onIntsClamped f true fun e => e a - e b)

/-- R145 to R147: shifts, logic and bit ops. -/
def Sys2Proof.Claims.VectorShiftsAndBits : Prop :=
  VComputes .vshl 2 false false IntForm (fun _ f _ a b _ _ => onRaw f fun w e => e a <<< (e b % w)) ∧
  VComputes .vshr 2 false false IntForm (fun _ f _ a b _ _ => onRaw f fun w e => e a >>> (e b % w)) ∧
  VComputes .vsar 2 false false IntForm (fun _ f _ a b _ _ => onRaw f fun w e =>
    (toSigned w (e a) / ((2 ^ (e b % w) : Nat) : Int) % ((2 ^ w : Nat) : Int)).toNat) ∧
  VComputes .vand 2 false false (FmtForm [0]) (fun _ _ _ a b _ _ => word (a &&& b)) ∧
  VComputes .vor 2 false false (FmtForm [0]) (fun _ _ _ a b _ _ => word (a ||| b)) ∧
  VComputes .vxor 2 false false (FmtForm [0]) (fun _ _ _ a b _ _ => word (a ^^^ b)) ∧
  VComputes .vnot 1 false false (FmtForm [0]) (fun _ _ _ a _ _ _ => word (~~~a)) ∧
  VComputes .vpopc 1 false false IntForm (fun _ f _ a _ _ _ => onRaw f fun w e => (List.range w).countP fun i => (e a).testBit i) ∧
  VComputes .vclz 1 false false IntForm (fun _ f _ a _ _ _ => onRaw f fun w e => if e a = 0 then w else w - 1 - (e a).log2) ∧
  VComputes .vbrev 1 false false IntForm (fun _ f _ a _ _ _ => onRaw f fun w e =>
    ((List.range w).map fun i => if (e a).testBit i then 2 ^ (w - 1 - i) else 0).sum) ∧
  VComputes .vbfx 2 false false (FmtForm [8, 12]) (fun _ f _ a b _ _ =>
    let p := b.toNat % 32
    let l := min (b.toNat / 256 % 32 + 1) (32 - p)
    let x := a.toNat / 2 ^ p % 2 ^ l
    word (if f.fmt = 8 then BitVec.ofInt 32 (toSigned l x) else BitVec.ofNat 32 x)) ∧
  VComputes .vbfi 2 false false (FmtForm [8]) (fun _ _ _ a b _ d =>
    let p := b.toNat % 32
    let m := BitVec.ofNat 32 ((2 ^ (b.toNat / 256 % 32 + 1) - 1) * 2 ^ p)
    word ((d &&& ~~~m) ||| ((a <<< p) &&& m)))

/-- R148: selections, moves and identities. -/
def Sys2Proof.Claims.VectorMoves : Prop :=
  VComputes .vsel 2 false false (fun f => f.fmt = 0 ∧ f.fmt2 = 0) (fun v f n a b _ _ =>
    word (if (v.g.pred f.func.toNat).has n then a else b)) ∧
  VComputes .vmov 1 false false (FmtForm [0]) (fun _ _ _ a _ _ _ => word a) ∧
  VComputes .vext 1 false false (fun f => f.fmt.toNat ∈ [9, 10, 11, 13, 14, 15] ∧ f.fmt2 = 0 ∧
      f.func.toNat < 32 / fmtWidth f.fmt.toNat) (fun _ f _ a _ _ _ =>
    word (BitVec.ofInt 32 (intVal f.fmt.toNat (elemOf a (fmtWidth f.fmt.toNat) f.func.toNat)))) ∧
  VComputes .vlane 0 false false (FmtForm [8, 9]) (fun _ f n _ _ _ _ =>
    word (if f.fmt = 8 then BitVec.ofNat 32 n else BitVec.ofNat 32 (2 * n + (2 * n + 1) * 65536))) ∧
  VComputes .vgid 0 false false (FmtForm [8]) (fun v _ n _ _ _ _ => word (BitVec.ofNat 32 (groupIndex v.p v.g * 128 + n))) ∧
  (∀ (s : State) (v : View) (f : VFields) (act : LaneMask), AtIssue s v (vSlot f) f.hdr act →
    VecOk v f.vd.toNat 1 → f.vb = 0 → f.vc = 0 → f.rm = 0 → f.sat = false → f.rsv = 0 → f.fmt2 = 0 → f.func = 0 →
    (f.va = 0 → f.fmt.toNat ∈ [0, 9, 10, 11] → f.bsel = 1 → v.route32 (vSlot f) = true →
      exec (.vmovi f) s = carriesOn s (vSent s v f act 1 fun _ =>
        word (laneOf (fmtWidth f.fmt.toNat) fun _ => (v.literal (vSlot f)).toNat % 2 ^ fmtWidth f.fmt.toNat))) ∧
    (isSA f.va.toNat = true → f.fmt = 0 → f.bsel = 0 →
      exec (.vs2v f) s = carriesOn s (vSent s v f act 1 fun n =>
        word (if n % 2 = 0 then (v.scalar f.va.toNat).setWidth 32 else (v.scalar f.va.toNat >>> 32).setWidth 32))))

/-- R145 to R148: Shifts, logic and bit ops. Selections, moves and identities. -/
def Obligations.VectorRawOps : Prop := Claims.VectorShiftsAndBits ∧ Claims.VectorMoves

namespace Sys2Proof.Claims

/-- A format vcvt, vnar and vpack take: not quantized, not reserved (R141, R150). -/
def convertible : List Nat := [0, 1, 2, 3, 4, 8, 9, 10, 11, 12, 13, 14, 15]

/-- The scale entries of the active lanes have no reserved bit set (R55, R152). -/
def ScalesOk (v : View) (f : VFields) (act : LaneMask) (q4 : Bool) : Prop :=
  ∀ n, n < 128 → act.has n = true → (v.vb f n).toNat % 256 = 0 ∧ (q4 = true → (v.vb f n).toNat / 4096 % 16 = 0)

end Sys2Proof.Claims

/-- R51 to R53, R141, R149 to R151: conversions at one width, widening, narrowing and packing. -/
def Obligations.VectorConversions : Prop :=
  (∀ (s : State) (v : View) (f : VFields) (act : LaneMask), AtIssue s v (vSlot f) f.hdr act →
    let d := f.fmt.toNat
    let c := f.fmt2.toNat
    d ∈ convertible → c ∈ convertible → f.vb = 0 → f.bsel = 0 → f.vc = 0 → f.rsv = 0 → f.func = 0 →
    (VecOk v f.vd.toNat 1 → VecOk v f.va.toNat 1 → fmtWidth c = fmtWidth d → c ≠ d →
      (8 ≤ d ∧ 8 ≤ c → f.rm = 0) → (f.sat = true → (8 ≤ d ∧ 8 ≤ c) ∨ (c ≤ 4 ∧ d ∈ [1, 2, 4])) →
      exec (.vcvt f) s = carriesOn s (vSent s v f act 1 fun n => perElem (fmtWidth d) fun i =>
        convertElem d c (v.rmode f.rm) v.ftz f.sat (elemOf ((v.vec f.va.toNat).lane n) (fmtWidth d) i))) ∧
    (∀ k, k = 2 ∨ k = 4 → fmtWidth c = k * fmtWidth d → VecOk v f.vd.toNat 1 → VecOk v f.va.toNat k →
      exec (.vnar f) s = carriesOn s (vSent s v f act 1 fun n => perElem (fmtWidth d) fun i =>
        convertElem d c (v.rmode f.rm) v.ftz f.sat
          (elemOf ((v.vec (f.va.toNat + i % k)).lane n) (fmtWidth c) (i / k))))) ∧
  VComputes .vpack 2 true true (fun f => f.fmt.toNat ∈ convertible ∧ f.fmt2.toNat ∈ convertible ∧
      fmtWidth f.fmt2.toNat = 2 * fmtWidth f.fmt.toNat ∧ f.func = 0) (fun v f _ a b _ _ =>
    perElem (fmtWidth f.fmt.toNat) fun i => convertElem f.fmt.toNat f.fmt2.toNat (v.rmode f.rm) v.ftz f.sat
      (elemOf (if i % 2 = 0 then a else b) (fmtWidth f.fmt2.toNat) (i / 2))) ∧
  VComputes .vunpk 1 false false (fun f => widePair f.fmt.toNat f.fmt2.toNat = true ∧
      fmtWidth f.fmt.toNat = 2 * fmtWidth f.fmt2.toNat ∧ f.func.toNat ≤ 1) (fun v f _ a _ _ _ =>
    perElem (fmtWidth f.fmt.toNat) fun i =>
      widenElem v f.fmt.toNat f.fmt2.toNat (elemOf a (fmtWidth f.fmt2.toNat) (2 * i + f.func.toNat))) ∧
  (∀ (s : State) (v : View) (f : VFields) (act : LaneMask) (k : Nat), AtIssue s v (vSlot f) f.hdr act →
    let d := f.fmt.toNat
    let c := f.fmt2.toNat
    widePair d c = true → fmtWidth d = k * fmtWidth c → VLegal v f 1 false false k 1 → f.func = 0 →
    exec (.vwid f) s = carriesOn s (vSent s v f act k fun n =>
      let r := fun j => perElem (fmtWidth d) fun i => widenElem v d c (elemOf ((v.vec f.va.toNat).lane n) (fmtWidth c) (i * k + j))
      ((List.range k).map fun j => (r j).1.getD 0 0, ((List.range k).map r).foldl (fun m x => m ||| x.2.1) 0, false)))

/-- R61, R142: dot products rounded once, or exact modulo 2^32 or clamped. -/
def Obligations.VectorDotProducts : Prop :=
  VComputes .vdot2 2 true false (fun f => f.fmt = 0 ∧ f.fmt2.toNat ∈ [1, 2] ∧ f.func = 0) (fun v f _ a b _ d =>
    let S := (floatFmt f.fmt2.toNat).getD f16
    let p := fun i => mulExact (v.fval S (elemOf a 16 i)) (v.fval S (elemOf b 16 i))
    let r := sumExact (v.rmode f.rm) [v.fval f32 d.toNat, (p 0).1, (p 1).1]
    let o := deliverWith f32 (v.rmode f.rm) v.ftz false (r.1, r.2 ||| (p 0).2 ||| (p 1).2)
    ([BitVec.ofNat 32 o.1], o.2, false)) ∧
  VComputes .vdot4 2 false true (fun f => f.fmt = 8 ∧ f.fmt2.toNat ∈ [10, 14] ∧ f.func = 0) (fun _ f _ a b _ d =>
    let p := fun i => intVal f.fmt2.toNat (elemOf a 8 i) * intVal f.fmt2.toNat (elemOf b 8 i)
    let x := d.toInt + (p 0 + p 1 + p 2 + p 3)
    ([BitVec.ofInt 32 (if f.sat then max (-2147483648) (min 2147483647 x) else x)], 0,
     f.sat && (decide (x < -2147483648) || decide (2147483647 < x)))) ∧
  VComputes .vdot8 2 false true (fun f => f.fmt = 8 ∧ f.fmt2.toNat ∈ [11, 15] ∧ f.func = 0) (fun _ f _ a b _ d =>
    let p := fun i => intVal f.fmt2.toNat (elemOf a 4 i) * intVal f.fmt2.toNat (elemOf b 4 i)
    let x := d.toInt + (p 0 + p 1 + p 2 + p 3 + p 4 + p 5 + p 6 + p 7)
    ([BitVec.ofInt 32 (if f.sat then max (-2147483648) (min 2147483647 x) else x)], 0,
     f.sat && (decide (x < -2147483648) || decide (2147483647 < x))))

/-- R55, R56, R152: quantizing and dequantizing against the lane's scale entry, and the trap of a bad entry. -/
def Obligations.VectorQuantizing : Prop :=
  ∀ (s : State) (v : View) (f : VFields) (act : LaneMask), AtIssue s v (vSlot f) f.hdr act →
    VLegal v f 2 true false 1 1 → f.func = 0 →
    let sc := fun n => v.fval f16 ((v.vb f n).toNat / 65536 % 65536)
    let zp := fun n => (v.vb f n).toNat / 256 % 256
    (f.fmt.toNat ∈ [16, 17] → f.fmt2 = 0 →
      (ScalesOk v f act (f.fmt == 17) →
        exec (.vqz f) s = carriesOn s (vSent s v f act 1 fun n =>
          let r := quantize (fmtWidth f.fmt.toNat) (v.rmode f.rm) (v.fval f32 ((v.vec f.va.toNat).lane n).toNat) (sc n) (zp n)
          ([BitVec.ofNat 32 r.1], r.2.1, r.2.2))) ∧
      (¬ScalesOk v f act (f.fmt == 17) → ReservedTrap s v 11 act (exec (.vqz f) s))) ∧
    (f.fmt.toNat ≤ 2 → f.fmt2.toNat ∈ [16, 17] →
      (ScalesOk v f act (f.fmt2 == 17) →
        exec (.vdq f) s = carriesOn s (vSent s v f act 1 fun n =>
          let r := dequantize (fmtOf f) (v.rmode f.rm) v.ftz (sc n)
            (((v.vec f.va.toNat).lane n).toNat % 2 ^ fmtWidth f.fmt2.toNat) (zp n)
          ([BitVec.ofNat 32 r.1], r.2, false))) ∧
      (¬ScalesOk v f act (f.fmt2 == 17) → ReservedTrap s v 11 act (exec (.vdq f) s)))

namespace Sys2Proof.Claims

/-! ### The F and X slots (R153 to R159) -/

/-- An F op completes in every legal form: each element of each active lane gets the function's result and flags, the
register lands at the end of c + 11 on WB1; a reserved form traps (R29, R153). -/
def FComputes (mk : FFields → Instr) (fn : Nat) : Prop :=
  ∀ (s : State) (v : View) (f : FFields) (act : LaneMask), AtIssue s v .f f.hdr act →
    (VecOk v f.vd.toNat 1 ∧ VecOk v f.va.toNat 1 ∧ f.fmt.toNat ≤ 2 ∧ f.rsv = false →
      exec (mk f) s = carriesOn s
        (let out := fun n => perElem (fmtWidth f.fmt.toNat) fun i =>
          flagElem (sfuElem fn f.fmt.toNat (v.g.fctl.toNat % 4) v.ftz (elemOf ((v.vec f.va.toNat).lane n) (fmtWidth f.fmt.toNat) i))
        sent s 11 f.hdr.sq (some 1) act
          [.lanes (rotated v.x.rho f.vd.toNat) act ((List.range 128).map fun n => if act.has n then (out n).1.getD 0 0 else 0)]
          ((List.range 128).map fun n => if act.has n then (out n).2.1 else 0) 0)) ∧
    (¬(VecOk v f.vd.toNat 1 ∧ VecOk v f.va.toNat 1 ∧ f.fmt.toNat ≤ 2 ∧ f.rsv = false) →
      ReservedTrap s v 7 act (exec (mk f) s))

/-- A crossbar result on its way: WB2, the end of c + 2, in the lanes of `m` (R155). -/
def xSent (s : State) (v : View) (sq : Bool) (vd : Nat) (act m : LaneMask) (val : Nat → W32) (fl : List (BitVec 5)) : Core :=
  sent s 2 sq (some 2) act [.lanes (rotated v.x.rho vd) m ((List.range 128).map val)] fl 0

/-- The form of a static op (R156). -/
def XStatic (v : View) (f : XsFields) : Prop :=
  VecOk v f.vd.toNat 1 ∧ VecOk v f.va.toNat 1 ∧ f.pat.toNat < v.p.image.patCount ∧ v.route64 .x = false
/-- The form of a general op, with AUX as it asks (R156). -/
def XGeneral (v : View) (f : XFields) (aux : Prop) : Prop :=
  VecOk v f.vd.toNat 1 ∧ VecOk v f.va.toNat 1 ∧ aux ∧ v.route64 .x = false

/-- The highest active source lane that names destination `n` (R156). -/
def pusher (act : LaneMask) (dest : Nat → Nat) (n : Nat) : Option Nat :=
  (List.range 128).reverse.find? fun k => act.has k && dest k == n

/-- A push on its way: the active destinations that a source names take its value (R156). -/
def xPushed (s : State) (v : View) (sq : Bool) (vd va : Nat) (act : LaneMask) (dest : Nat → Nat) : Core :=
  xSent s v sq vd act (LaneMask.build fun n => act.has n && (pusher act dest n).isSome)
    (fun n => match pusher act dest n with | some k => (v.vec va).lane k | none => 0) []

/-- Lane `n` names a destination that another active lane names too (R157). -/
def collides (act : LaneMask) (dest : Nat → Nat) (n : Nat) : Bool :=
  act.has n && (List.range 128).any fun k => k != n && act.has k && dest k == dest n

/-- The distance of a general op: AUX, or literal bits [6:0] (R156). -/
def distance (v : View) (f : XFields) : Nat := if v.route32 .x then (v.literal .x).toNat % 128 else f.aux.toNat

/-- A general op with a distance. -/
def XMoves (mk : XFields → Instr) (val : Vec → Nat → Nat → W32) : Prop :=
  ∀ (s : State) (v : View) (f : XFields) (act : LaneMask), AtIssue s v .x f.hdr act →
    (XGeneral v f (v.route32 .x = true → f.aux = 0) →
      exec (mk f) s = carriesOn s (xSent s v f.hdr.sq f.vd.toNat act act (fun l => val (v.vec f.va.toNat) l (distance v f)) [])) ∧
    (¬XGeneral v f (v.route32 .x = true → f.aux = 0) → ReservedTrap s v 8 act (exec (mk f) s))

end Sys2Proof.Claims

/-- R153: the ten functions complete on every format, in every lane, whatever the operand. The bits within the bound are free (log entry 10). -/
def Sys2Proof.Claims.SpecialFunctionsComplete : Prop :=
  FComputes .frcp 1 ∧ FComputes .frsq 2 ∧ FComputes .fsqrt 3 ∧ FComputes .fexp2 4 ∧ FComputes .flog2 5 ∧
  FComputes .fsin 6 ∧ FComputes .fcos 7 ∧ FComputes .ftanh 8 ∧ FComputes .fsig 9 ∧ FComputes .ferf 10

/-- R154: what the F ops give for NaNs, infinities, zeros and negative operands, in every format and rounding mode. -/
def Sys2Proof.Claims.SpecialFunctionSpecialValues : Prop :=
  ∀ (code : Nat) (F : FloatFmt) (rm : RMode) (ftz : Bool) (x : Nat), code ≤ 2 → floatFmt code = some F →
    let at_ := fun fn => sfuElem fn code rm ftz x
    (∀ sig fn, 1 ≤ fn → fn ≤ 10 → unpack F (flushIn F ftz x) = .nan sig →
      at_ fn = (canonNaN F, if sig then flagIV else 0)) ∧
    (∀ neg, unpack F (flushIn F ftz x) = .inf neg →
      at_ 1 = (signBit F neg, 0) ∧
      at_ 2 = (if neg then (canonNaN F, flagIV) else (0, 0)) ∧
      at_ 3 = (if neg then (canonNaN F, flagIV) else (infEnc F false, 0)) ∧
      at_ 4 = (if neg then 0 else infEnc F false, 0) ∧
      at_ 5 = (if neg then (canonNaN F, flagIV) else (infEnc F false, 0)) ∧
      at_ 6 = (canonNaN F, flagIV) ∧ at_ 7 = (canonNaN F, flagIV) ∧
      at_ 8 = (signBit F neg + F.bias * 2 ^ F.mbits, 0) ∧
      at_ 9 = (if neg then 0 else F.bias * 2 ^ F.mbits, 0) ∧
      at_ 10 = (signBit F neg + F.bias * 2 ^ F.mbits, 0)) ∧
    (∀ neg e, unpack F (flushIn F ftz x) = .fin neg 0 e →
      at_ 1 = (infEnc F neg, flagDZ) ∧ at_ 2 = (infEnc F neg, flagDZ) ∧ at_ 3 = (signBit F neg, 0) ∧
      at_ 4 = (F.bias * 2 ^ F.mbits, 0) ∧ at_ 5 = (infEnc F true, flagDZ) ∧ at_ 6 = (signBit F neg, 0) ∧
      at_ 7 = (F.bias * 2 ^ F.mbits, 0) ∧ at_ 8 = (signBit F neg, 0) ∧
      at_ 9 = ((F.bias - 1) * 2 ^ F.mbits, 0) ∧ at_ 10 = (signBit F neg, 0)) ∧
    (∀ m e, m ≠ 0 → unpack F (flushIn F ftz x) = .fin true m e →
      at_ 2 = (canonNaN F, flagIV) ∧ at_ 3 = (canonNaN F, flagIV) ∧ at_ 5 = (canonNaN F, flagIV))

/-- R153, R154: The ten functions complete on every format, in every lane, whatever the operand. The bits within the bound
are free (log entry 10). What the F ops give for NaNs, infinities, zeros and negative operands, in every format and
rounding mode. -/
def Obligations.SpecialFunctions : Prop := Claims.SpecialFunctionsComplete ∧ Claims.SpecialFunctionSpecialValues

/-- R155 to R157, R159: what each lane of a crossbar op receives, and the collision of a push. -/
def Obligations.CrossbarMoves : Prop :=
  XMoves .xrot (fun a l n => a.lane ((l + 128 - n) % 128)) ∧
  XMoves .xbc (fun a _ n => a.lane n) ∧
  XMoves .xup (fun a l n => if n ≤ l then a.lane (l - n) else 0) ∧
  XMoves .xdn (fun a l n => if l + n ≤ 127 then a.lane (l + n) else 0) ∧
  XMoves .xbfly (fun a l n => a.lane (l ^^^ n)) ∧
  (∀ (s : State) (v : View) (f : XsFields) (act : LaneMask), AtIssue s v .x f.hdr act → XStatic v f →
    let p := fun n => ((v.p.pats.getD f.pat.toNat []).getD n 0) % 128
    exec (.xperm f) s = carriesOn s (xSent s v f.hdr.sq f.vd.toNat act act (fun n => (v.vec f.va.toNat).lane (p n)) []) ∧
    exec (.xpush f) s = carriesOn s (xPushed s v f.hdr.sq f.vd.toNat f.va.toNat act p)) ∧
  (∀ (s : State) (v : View) (f : XFields) (act : LaneMask), AtIssue s v .x f.hdr act →
    let vi := fun n => ((v.vec f.aux.toNat).lane n).toNat % 128
    (XGeneral v f (VecOk v f.aux.toNat 1) →
      exec (.xpull f) s = carriesOn s (xSent s v f.hdr.sq f.vd.toNat act act (fun n => (v.vec f.va.toNat).lane (vi n)) []) ∧
      exec (.xpushdHi f) s = carriesOn s (xPushed s v f.hdr.sq f.vd.toNat f.va.toNat act vi) ∧
      ((∀ n, n < 128 → collides act vi n = false) →
        exec (.xpushd f) s = carriesOn s (xPushed s v f.hdr.sq f.vd.toNat f.va.toNat act vi)) ∧
      (∀ n, n < 128 → collides act vi n = true → (∀ k, k < 128 → collides act vi k = true → vi n ≤ vi k) →
        exec (.xpushd f) s = carriesOn s (takeTrap s (trapOf trapIllegalSchedule (LaneMask.build (collides act vi)) (vi n) 0) 0))) ∧
    (XGeneral v f (f.aux.toNat ≤ 2) →
      exec (.xtr f) s = carriesOn s (xSent s v f.hdr.sq f.vd.toNat act act (fun l =>
        let b := if f.aux = 0 then 4 else if f.aux = 1 then 2 else 8
        laneOf (32 / b) fun i => elemOf ((v.vec f.va.toNat).lane (l - l % b + i)) (32 / b) (l % b)) [])) ∧
    (f.vd.toNat < 16 → VecOk v f.va.toNat 1 → f.aux = 0 → v.route64 .x = false →
      exec (.xbal f) s = carriesOn s (sent s 2 f.hdr.sq none act
        [.pred f.vd.toNat act (LaneMask.build fun n => act.has n && (v.vec f.va.toNat).lane n != 0)] [] 0)))

namespace Sys2Proof.Claims

/-- The words of the active lanes below lane `n`, in lane order. -/
def activeWords (act : LaneMask) (a : Vec) (n : Nat) : List W32 :=
  ((List.range n).filter fun k => act.has k).map fun k => a.lane k

/-- Their sum modulo 2^32. -/
def activeSum (act : LaneMask) (a : Vec) (n : Nat) : W32 := BitVec.ofNat 32 ((activeWords act a n).map fun x => x.toNat).sum

/-- The order of i32 (type 0) or n32 (type 1). -/
def wordLe (typ : Nat) (x y : W32) : Prop := if typ = 0 then x.toInt ≤ y.toInt else x.toNat ≤ y.toNat

end Sys2Proof.Claims

/-- R158: every legal reduction and scan completes; an integer reduction is the sum modulo 2^32, the minimum or the
maximum of the active lanes, a float one the pairwise tree; an integer scan sum is that of the active lanes up to its
own, and the lowest active lane of a scan passes through. -/
def Obligations.CrossbarReductions : Prop :=
  ∀ (s : State) (v : View) (f : XFields) (act : LaneMask), AtIssue s v .x f.hdr act →
    let op := f.aux.toNat / 16
    let typ := f.aux.toNat % 16
    let a := v.vec f.va.toNat
    XGeneral v f (op ≤ 2 ∧ typ ≤ 4) →
      (∃ val fl, exec (.xred f) s = carriesOn s (xSent s v f.hdr.sq f.vd.toNat act act val fl) ∧
        (typ ≤ 1 → fl = [] ∧ ∀ n, n < 128 → act.has n = true →
          (op = 0 → val n = activeSum act a 128) ∧
          (op = 1 → val n ∈ activeWords act a 128 ∧ ∀ x ∈ activeWords act a 128, wordLe typ (val n) x) ∧
          (op = 2 → val n ∈ activeWords act a 128 ∧ ∀ x ∈ activeWords act a 128, wordLe typ x (val n))) ∧
        (2 ≤ typ → ∀ n, n < 128 → act.has n = true →
          val n = laneOf (widthX typ) fun i => ((redTree op typ 7 (streamX typ act a i)).1).getD 0)) ∧
      (∃ val fl, exec (.xscan f) s = carriesOn s (xSent s v f.hdr.sq f.vd.toNat act act val fl) ∧
        (typ ≤ 1 → fl = [] ∧
          (op = 0 → ∀ n, n < 128 → act.has n = true → val n = activeSum act a (n + 1))) ∧
        (∀ n, n < 128 → act.has n = true → (∀ k, k < n → act.has k = false) → val n = a.lane n))

namespace Sys2Proof.Claims

/-! ### The M slot (R161 to R187) -/

/-- The literal or displacement of an address (R162). -/
def offsetOf (v : View) (f : MFields) : W64 :=
  if f.offsel = 1 then f.disp.signExtend 64 else if f.offsel = 2 then v.literal .m else 0

/-- The address that base, scalar index and offset make (R162). -/
def scalarAddr (v : View) (f : MFields) : W64 :=
  v.scalar f.base.toNat + (if f.idxen && !f.vidx then v.scalar f.index.toNat else 0) + offsetOf v f

/-- The address of a lane: a vector index sign-extended, else `step` times the lane number (R162). -/
def laneAddr (v : View) (f : MFields) (step n : Nat) : W64 :=
  scalarAddr v f + (if f.vidx then ((v.vec f.index.toNat).lane n).signExtend 64 else BitVec.ofNat 64 (n * step))

/-- What the read log keeps of the op's run in a discarded interval: atomics, spawns, acquisitions and releases are answered
from it (R301, R304; log entry 105). -/
def rerunOf (v : View) (kind : AccKind) : Option Access :=
  if kind ∈ [.atom, .atomCas, .atomFadd, .atomOfa, .atomOclose, .spawn, .acq, .rel] then
    v.g.answers.find? fun b => b.orphan && b.kind == kind && b.split == v.x.split && b.off == v.x.off
  else none

/-- An op of the bundle at issue puts an access in flight: it is the last of the list, under the next op number, its
lanes still to be carried out are `todo`, and its destinations are pending (R2, R24, R296). A rerun goes on with the access
of the discarded run. -/
def inFlight (s : State) (v : View) (f : MFields) (kind : AccKind) (act todo : LaneMask) (addrs : List W64) (vals : List Nat)
    (arg : Nat) (dst : List Reg) : Core :=
  let a : Access := {
    id := s.core.seq, kind := kind, h := v.x.h, slot := v.x.slot, split := v.x.split, off := v.x.off, seq := v.x.seq,
    cycle := s.cycle, sq := f.hdr.sq, mask := act, ord := f.ord.toNat, scope := f.scope.toNat, func := f.func.toNat,
    width := f.width.toNat, sx := f.sx, todo := todo, faulted := 0, replay := [], addrs := addrs, vals := vals, got := [],
    dst := dst, done := 0, arg := arg, stage := 0, remote := 0, ready := s.cycle + Config.freeNat s.core.free, due := none,
    iter := v.x.iter }
  let joins := fun (a : Access) => ({ s.core with accs := s.core.accs ++ [a], seq := s.core.seq + 1, free := s.core.free + 1 } : Core)
  let c := match rerunOf v kind with
    | none => joins a
    | some b => (joins { a with id := b.id, done := b.done, got := b.got, remote := b.remote, lost := b.lost }).modGroup v.x.h v.x.slot
        fun g => { g with answers := g.answers.filter fun x => x.id != b.id }
  c.modGroup v.x.h v.x.slot fun g => { g with pend := g.pend ++ dst.map fun r => (r, v.x.split, s.core.seq) }

/-- Bytes per lane (R163). -/
def laneBytes (f : MFields) : Nat := 2 ^ f.width.toNat
/-- The vector registers that DATA names, `k` times the span of WIDTH, under the rotation (R111, R163). -/
def dataRegs (v : View) (f : MFields) (k : Nat) : List Reg :=
  (List.range (k * (if f.width.toNat ≤ 2 then 1 else 2 ^ (f.width.toNat - 2)))).map fun i => .v (rotated v.x.rho (f.data.toNat + i))

/-- Every active lane's address is a multiple of the width and canonical (R165). -/
def GlobalLanesOk (v : View) (f : MFields) (act : LaneMask) : Prop :=
  ∀ n, n < 128 → act.has n = true → (laneAddr v f (laneBytes f) n).toNat % laneBytes f = 0 ∧ canonical (laneAddr v f (laneBytes f) n) = true

/-- The addresses of all lanes. -/
def laneAddrs (v : View) (f : MFields) : List W64 := (List.range 128).map (laneAddr v f (laneBytes f))

end Sys2Proof.Claims

/-- R162, R167, R168, R175 to R180, R182: a global access with no reserved value, whose addresses pass R165, goes in
flight with each lane's own address and data; its destinations become pending. -/
def Obligations.GlobalAccessesStart : Prop :=
  ∀ (s : State) (v : View) (f : MFields) (act : LaneMask), AtIssue s v .m f.hdr act →
    (GlobalLanesOk v f act →
      (mBad (specV true true) f v = none →
        exec (.ldG f) s = carriesOn s (inFlight s v f .ldG act act (laneAddrs v f) [] 0 (dataRegs v f 1))) ∧
      (mBad (specV false false) f v = none →
        exec (.stG f) s = carriesOn s (inFlight s v f .stG act act (laneAddrs v f) (v.storeVals f 1) 0 [])) ∧
      (mBad { data := .vec 1, wlo := 2, whi := 3, index := .addr true, ords := [0, 1, 2, 3], fmax := 8, sx := true } f v = none →
        exec (.atom f) s = carriesOn s (inFlight s v f .atom act act (laneAddrs v f) (v.storeVals f 1) 0
          (if f.sx then [] else dataRegs v f 1))) ∧
      (mBad { data := .vec 2, wlo := 2, whi := 3, index := .addr true, ords := [0, 1, 2, 3], fmax := 0 } f v = none →
        exec (.atomCas f) s = carriesOn s (inFlight s v f .atomCas act act (laneAddrs v f) (v.storeVals f 2) 0 (dataRegs v f 1))) ∧
      (mBad { data := .vec 1, wlo := 2, whi := 2, index := .addr true, ords := [0, 1, 2, 3], fmax := 2, sx := true } f v = none →
        exec (.atomFadd f) s = carriesOn s (inFlight s v f .atomFadd act act (laneAddrs v f) (v.storeVals f 1) 0
          (if f.sx then [] else dataRegs v f 1))) ∧
      (mBad specO f v = none →
        exec (.atomOfa f) s = carriesOn s (inFlight s v f .atomOfa act act (laneAddrs v f) (v.storeVals f 1) 0 []) ∧
        exec (.atomOclose f) s = carriesOn s (inFlight s v f .atomOclose act act (laneAddrs v f) [] 0 (dataRegs v f 1))) ∧
      (mBad { data := .none, wlo := 0, whi := 4, index := .addr true, ords := [0], fmax := 1 } f v = none →
        exec (.pf f) s = carriesOn s (inFlight s v f .pf act act (laneAddrs v f) [] 0 []))) ∧
    ((scalarAddr v f).toNat % laneBytes f = 0 → canonical (scalarAddr v f) = true →
      (mBad (specS 1 true) f v = none →
        exec (.ldSc f) s = carriesOn s (inFlight s v f .ldSc act 1 [scalarAddr v f] [] 0 [codeReg f.data.toNat])) ∧
      (mBad (specS 2 false) f v = none →
        exec (.stSc f) s = carriesOn s (inFlight s v f .stSc act 1 [scalarAddr v f]
          [(v.scalar f.data.toNat).toNat % 2 ^ (8 * laneBytes f)] 0 [])))

namespace Sys2Proof.Claims

/-- The M ops that access global memory lane by lane, with their rows of R164. -/
def laneGlobal : List ((MFields → Instr) × MSpec) :=
  [(.ldG, specV true true), (.stG, specV false false),
   (.atom, { data := .vec 1, wlo := 2, whi := 3, index := .addr true, ords := [0, 1, 2, 3], fmax := 8, sx := true }),
   (.atomCas, { data := .vec 2, wlo := 2, whi := 3, index := .addr true, ords := [0, 1, 2, 3], fmax := 0 }),
   (.atomFadd, { data := .vec 1, wlo := 2, whi := 2, index := .addr true, ords := [0, 1, 2, 3], fmax := 2, sx := true }),
   (.atomOfa, specO), (.atomOclose, specO)]

/-- The active lanes whose address is no multiple of the width. -/
def misaligned (v : View) (f : MFields) (act : LaneMask) : LaneMask :=
  LaneMask.build fun n => act.has n && (laneAddr v f (laneBytes f) n).toNat % laneBytes f != 0

/-- A trap that a split which is not yet trapped takes after its bundle: the split stops with the trap's code, and the
event with these details is the last of the part's (R286 to R288). -/
def Trapped (s : State) (v : View) (code : Nat) (m : LaneMask) (info0 info1 : Nat) (a : Answer) : Prop :=
  ∃ s' : State, a = .next s' ∧
    (∃ g', s'.core.group? v.x.h v.x.slot = some g' ∧ (g'.split v.x.split).state = .trapped ∧
      (g'.split v.x.split).waitarg = BitVec.ofNat 32 code) ∧
    ∃ p', s'.core.part? v.p.id = some p' ∧ p'.events = v.p.events ++ [
      { slot := v.x.slot, split := v.x.split, code := code, origin := 1, pc := v.x.off, mask := m,
        info0 := BitVec.ofNat 64 info0, info1 := BitVec.ofNat 64 info1, info2 := 0, info3 := 0, cycle := s.cycle,
        iter := v.x.iter }]

/-- The issuing split is one of the group's four, is not trapped, and its team is not halted. -/
def CanTrap (v : View) : Prop :=
  v.x.split < 4 ∧ v.g.splits.length = 4 ∧ (v.g.split v.x.split).state ≠ .trapped ∧ v.p.halt = 0

end Sys2Proof.Claims

/-- R165, R286, R287: the misaligned lanes of a global op trap MISALIGN after the bundle, with the address of the lowest
of them in INFO0, whatever else fails. -/
def Obligations.MisalignedLanesTrap : Prop :=
  ∀ (s : State) (v : View) (f : MFields) (act : LaneMask), AtIssue s v .m f.hdr act → CanTrap v →
    ∀ op ∈ laneGlobal, mBad op.2 f v = none → ∀ n, n < 128 → (misaligned v f act).has n = true →
      (∀ k, k < n → (misaligned v f act).has k = false) →
      Trapped s v trapMisalign (misaligned v f act) (laneAddr v f (laneBytes f) n).toNat 0 (exec (op.1 f) s)

namespace Sys2Proof.Claims

/-- Every active lane's bytes lie in the part's scratchpad, aligned (R165). -/
def PadLanesOk (v : View) (f : MFields) (act : LaneMask) : Prop :=
  ∀ n, n < 128 → act.has n = true →
    (laneAddr v f (laneBytes f) n).toNat % laneBytes f = 0 ∧
    (laneAddr v f (laneBytes f) n).toNat + laneBytes f ≤ v.p.image.scratch

/-- A byte of a part's scratchpad under a rotation code (R268, R269). -/
def padByte (c : Core) (part rot x : Nat) : Byte := match c.part? part with | some p => cellRead p.scratch (padPlace rot x) | none => 0

/-- Byte `x` of the scratchpad is one that an active lane of the op names. -/
def PadNamed (v : View) (f : MFields) (act : LaneMask) (x : Nat) : Prop :=
  ∃ n, n < 128 ∧ act.has n = true ∧ (laneAddr v f (laneBytes f) n).toNat ≤ x ∧ x < (laneAddr v f (laneBytes f) n).toNat + laneBytes f

/-- The highest active lane that names byte `x`. -/
def PadLast (v : View) (f : MFields) (act : LaneMask) (x n : Nat) : Prop :=
  n < 128 ∧ act.has n = true ∧ (laneAddr v f (laneBytes f) n).toNat ≤ x ∧ x < (laneAddr v f (laneBytes f) n).toNat + laneBytes f ∧
  ∀ k, k < 128 → n < k → act.has k = true →
    ¬((laneAddr v f (laneBytes f) k).toNat ≤ x ∧ x < (laneAddr v f (laneBytes f) k).toNat + laneBytes f)

end Sys2Proof.Claims

/-- R169, R268, R269: a scratchpad load sends each active lane the bytes at its address, extended, at the end of
c + 6 + p on WB2, and changes no byte. -/
def Sys2Proof.Claims.ScratchpadLoad : Prop :=
  ∀ (s : State) (v : View) (f : MFields) (act : LaneMask), AtIssue s v .m f.hdr act → mBad (specP 0 4 0 true) f v = none →
    PadLanesOk v f act →
    ∃ (c : Core) (l : Landing) (vals : Nat → Vec), exec (.ldSp f) s = carriesOn s c ∧ c.land = s.core.land ++ [l] ∧
      (∀ id rot x, padByte c id rot x = padByte s.core id rot x) ∧
      l.due = s.cycle + 6 + v.padPassCount f act false ∧ l.bus = some 2 ∧ l.lanes = act ∧ l.sq = f.hdr.sq ∧
      l.writes = (List.range (dataRegs v f 1).length).map (fun i => RegWrite.lanes (rotated v.x.rho (f.data.toNat + i)) act (vals i)) ∧
      ∀ n i, n < 128 → act.has n = true → i < (dataRegs v f 1).length →
        (vals i).lane n = BitVec.ofNat 32 (extendLoad f.width.toNat f.sx (32 * (dataRegs v f 1).length)
          (leNat ((List.range (laneBytes f)).map fun j =>
            padByte s.core v.p.id f.rot.toNat ((laneAddr v f (laneBytes f) n).toNat + j))) >>> (32 * i))

/-- R170, R268, R269: a scratchpad store puts the bytes of each active lane at its address, the highest lane winning
where lanes name one byte, and leaves every other byte of every scratchpad as it was. -/
def Sys2Proof.Claims.ScratchpadStore : Prop :=
  ∀ (s : State) (v : View) (f : MFields) (act : LaneMask), AtIssue s v .m f.hdr act → mBad (specP 0 4 0 false) f v = none →
    PadLanesOk v f act → cellsWf v.p.scratch = true →
    ∃ c, exec (.stSp f) s = carriesOn s c ∧ c.land = s.core.land ∧
      (∀ x n, PadLast v f act x n →
        padByte c v.p.id f.rot.toNat x =
          (natLe (laneBytes f) (v.spanVal f.data.toNat (dataRegs v f 1).length n)).getD
            (x - (laneAddr v f (laneBytes f) n).toNat) 0) ∧
      (∀ x, ¬PadNamed v f act x → padByte c v.p.id f.rot.toNat x = padByte s.core v.p.id f.rot.toNat x) ∧
      (∀ id rot x, id ≠ v.p.id → padByte c id rot x = padByte s.core id rot x)

namespace Sys2Proof.Claims

/-- The word an active lane of satom names. -/
def padWord (c : Core) (v : View) (f : MFields) (a : Nat) : Nat :=
  leNat ((List.range (laneBytes f)).map fun j => padByte c v.p.id f.rot.toNat (a + j))

/-- The word at `a` once the active lanes below `k` that name it have applied the function, in lane order (R171). -/
def appliedUpTo (s : State) (v : View) (f : MFields) (act : LaneMask) (a k : Nat) : Nat :=
  ((List.range k).filter fun n => act.has n && (laneAddr v f (laneBytes f) n).toNat == a).foldl
    (fun old n => atomicFn f.func.toNat (8 * laneBytes f) old (v.spanVal f.data.toNat (dataRegs v f 1).length n))
    (padWord s.core v f a)

end Sys2Proof.Claims

/-- R171: satom applies its function lane by lane in ascending order; each word ends with every application on it, and
each lane receives what the word held just before its own. -/
def Sys2Proof.Claims.ScratchpadAtomic : Prop :=
  ∀ (s : State) (v : View) (f : MFields) (act : LaneMask), AtIssue s v .m f.hdr act → mBad (specP 2 3 8 false) f v = none →
    PadLanesOk v f act → cellsWf v.p.scratch = true →
    ∃ (c : Core) (l : Landing) (vals : Nat → Vec), exec (.satom f) s = carriesOn s c ∧ c.land = s.core.land ++ [l] ∧
      l.due = s.cycle + 6 + v.padPassCount f act true ∧ l.bus = some 2 ∧ l.lanes = act ∧
      l.writes = (List.range (dataRegs v f 1).length).map (fun i => RegWrite.lanes (rotated v.x.rho (f.data.toNat + i)) act (vals i)) ∧
      (∀ n i, n < 128 → act.has n = true → i < (dataRegs v f 1).length →
        (vals i).lane n = BitVec.ofNat 32 (appliedUpTo s v f act (laneAddr v f (laneBytes f) n).toNat n >>> (32 * i))) ∧
      (∀ n, n < 128 → act.has n = true →
        padWord c v f (laneAddr v f (laneBytes f) n).toNat = appliedUpTo s v f act (laneAddr v f (laneBytes f) n).toNat 128) ∧
      (∀ x, ¬PadNamed v f act x → padByte c v.p.id f.rot.toNat x = padByte s.core v.p.id f.rot.toNat x)

/-- R169 to R171, R268, R269: A scratchpad load sends each active lane the bytes at its address, extended, at the end of c
+ 6 + p on WB2, and changes no byte. A scratchpad store puts the bytes of each active lane at its address, the highest
lane winning where lanes name one byte, and leaves every other byte of every scratchpad as it was. Satom applies its
function lane by lane in ascending order; each word ends with every application on it, and each lane receives what the
word held just before its own. -/
def Obligations.ScratchpadAccesses : Prop := Claims.ScratchpadLoad ∧ Claims.ScratchpadStore ∧ Claims.ScratchpadAtomic

/-- R172 to R174: private, meadow and direct loads go in flight with the addresses that R162 gives their lanes; a direct
load steps EXPECT of its barrier at issue. -/
def Obligations.PrivateMeadowDirectStart : Prop :=
  ∀ (s : State) (v : View) (f : MFields) (act : LaneMask), AtIssue s v .m f.hdr act →
    ((∀ n, n < 128 → act.has n = true → (laneAddr v f 0 n).toNat + (dataRegs v f 1).length ≤ v.p.image.priv) →
      (mBad (specPv true) f v = none →
        exec (.ldPv f) s = carriesOn s (inFlight s v f .ldPv act act ((List.range 128).map (laneAddr v f 0)) [] 0 (dataRegs v f 1))) ∧
      (mBad (specPv false) f v = none →
        exec (.stPv f) s = carriesOn s (inFlight s v f .stPv act act ((List.range 128).map (laneAddr v f 0)) (v.storeVals f 1) 0 []))) ∧
    (mBad (specV true true) f v = none →
      (∀ n, n < 128 → act.has n = true →
        let a := (laneAddr v f (laneBytes f) n).toNat
        a % laneBytes f = 0 ∧ a + laneBytes f ≤ 2 ^ 31 ∧ (dieOf v.x.h, a / 2 ^ 24, v.p.world) ∈ s.hst.units) →
      exec (.ldMd f) s = carriesOn s (inFlight s v f .ldMd act act (laneAddrs v f) [] 0 (dataRegs v f 1))) ∧
    (mBad { data := .scalar, wlo := 0, whi := 4, index := .addr true, ords := [0], fmax := 15, sx := true } f v = none →
      GlobalLanesOk v f act →
      (∀ n, n < 128 → act.has n = true →
        (v.scalar f.data.toNat + BitVec.ofNat 64 (n * laneBytes f)).toNat + laneBytes f ≤ v.p.image.scratch) →
      exec (.ldGs f) s = carriesOn s
        ((inFlight s v f .ldGs act act (laneAddrs v f)
            ((List.range 128).map fun n => (v.scalar f.data.toNat + BitVec.ofNat 64 (n * laneBytes f)).toNat) f.func.toNat []).modPart
          (s.core.barHome v.p f.func.toNat) fun p => { p with bars := p.bars.modify f.func.toNat fun b => { b with expect := b.expect + 1 } }))

namespace Sys2Proof.Claims

/-- The object of a sync op (R164). -/
def syncObject (v : View) (f : MFields) : W64 := v.scalar f.base.toNat + offsetOf v f

/-- An object is aligned and canonical (R183). -/
def ObjectOk (obj : W64) : Prop := obj.toNat % 8 = 0 ∧ canonical obj = true

/-- A split's own bundle makes it wait, from the end of this cycle, with a state and WAITARG (R238). -/
def waitsIn (s : State) (v : View) (c : Core) (st : SplitState) (arg : W32) : Core :=
  c.modSplit v.x.h v.x.slot v.x.split fun e =>
    if e.state = .trapped then { e with waitOff := v.x.off }
    else { e with state := st, waitarg := arg, waitstart := s.cycle + 1, waitOff := v.x.off }

/-- The regions that the issuing team has bound, on all its hearths (R184). -/
def teamBindings (s : State) (v : View) : List (W64 × Nat × Nat) :=
  (s.core.parts.filter fun p => p.launch == v.p.launch && p.team == v.p.team).flatMap fun p => p.bindings

/-- A binding fits: an aligned region of a legal length that overlaps no region of another object (R184). -/
def BindingFits (s : State) (v : View) (obj : W64) (base len : Nat) : Prop :=
  base % 256 = 0 ∧ len % 256 = 0 ∧ 256 ≤ len ∧ len ≤ 2 ^ 40 ∧
  ∀ b ∈ teamBindings s v, b.1 = obj ∨ b.2.1 + b.2.2 ≤ base ∨ base + len ≤ b.2.1

end Sys2Proof.Claims

/-- R183 to R187: bind adds its binding once and unbind takes it away from the whole team, or traps MISALIGN; acq goes in flight
and waits; rel and fence go in flight, and wait for the tags they name that are open at issue. -/
def Obligations.SyncOpsComplete : Prop :=
  ∀ (s : State) (v : View) (f : MFields) (act : LaneMask), AtIssue s v .m f.hdr act → v.x.split < 4 →
    let obj := syncObject v f
    let base := (v.scalar f.index.toNat).toNat
    let len := (v.scalar f.data.toNat).toNat
    (mBad (specSync .scalar (.scalar true) 0) f v = none → ObjectOk obj → BindingFits s v obj base len →
      ((obj, base, len) ∈ teamBindings s v → (∀ n, v.objectScope obj = some n → n ≠ 0 ∧ n ≠ 7) → exec (.bind f) s = .next s) ∧
      (∀ n, (obj, base, len) ∉ teamBindings s v → (teamBindings s v).length < 4096 → v.objectScope obj = some n → n ≠ 0 → n ≠ 7 →
        exec (.bind f) s = carriesOn s (s.core.modPart v.p.id fun p => { p with bindings := p.bindings ++ [(obj, base, len)] })) ∧
      ((obj, base, len) ∉ teamBindings s v → (teamBindings s v).length < 4096 → v.objectScope obj = none →
        ∃ s', exec (.bind f) s = .next s' ∧ ∃ p', s'.core.part? v.p.id = some p' ∧ p'.bindings = v.p.bindings ++ [(obj, base, len)])) ∧
    (mBad (specSync .none (.scalar true) 0) f v = none → ObjectOk obj →
      (base % 256 = 0 → exec (.unbind f) s = carriesOn s { s.core with parts := s.core.parts.map fun p =>
        if p.launch = v.p.launch ∧ p.team = v.p.team then
          { p with bindings := p.bindings.filter fun b => !(b.1 == obj && b.2.1 == base) }
        else p }) ∧
      (base % 256 ≠ 0 → exec (.unbind f) s = carriesOn s (takeTrap s (trapOf trapMisalign act obj.toNat 0) 0))) ∧
    (mBad (specSync .none .none 1) f v = none → ObjectOk obj →
      exec (.acq f) s = carriesOn s (waitsIn s v (inFlight s v f .acq act 1 [obj] [] 0 []) .longwait 4)) ∧
    (let m := if f.idxen then (v.scalar f.index.toNat).toNat else 0
     m < 2 ^ 16 → (∀ n, n < 16 → m.testBit n = true → (v.g.tag n).failed = none) →
      let held := ∃ n, n < 16 ∧ m.testBit n = true ∧ (v.g.tag n).count ≠ 0
      (mBad (specSync .none (.scalar false) 0) f v = none → ObjectOk obj →
        (¬held → exec (.rel f) s = carriesOn s (inFlight s v f .rel act 1 [obj] [] 0 [])) ∧
        (held → exec (.rel f) s = carriesOn s
          (waitsIn s v (inFlight s v f .rel act 1 [obj] [] m []) .longwait (BitVec.ofNat 32 (5 + 65536 * m))))) ∧
      (mBad { data := .none, wlo := 0, whi := 0, index := .scalar false, ords := [1, 2, 3], fmax := 0, base := false } f v = none →
        (¬held → exec (.fence f) s = carriesOn s (inFlight s v f .fence act 1 [0] [] 0 [])) ∧
        (held → exec (.fence f) s = carriesOn s
          (waitsIn s v (inFlight s v f .fence act 1 [0] [] m []) .longwait (BitVec.ofNat 32 (5 + 65536 * m))))))

namespace Sys2Proof.Claims

/-! ### The A slot (R188 to R202) -/

/-- The tags an op consumes (R189). -/
def consumedTags (f : AFields) : List Nat := [f.ctag0.toNat, f.ctag1.toNat, f.ctag2.toNat].take f.ntag.toNat

/-- A queued op (R188, R189): it is the last of the list, waits for the earlier producers of its group's tags it
consumes, fails with the first of them that has failed, and its own tag counts one more. -/
def queued (s : State) (v : View) (f : AFields) (kind : EngKind) (o : List W64) (ranges : List (Nat × Nat)) : Core :=
  let bad := (consumedTags f).findSome? fun n => (v.g.tag n).failed
  let e : EngOp := {
    id := s.core.seq, kind := kind, h := v.x.h, slot := v.x.slot, split := v.x.split,
    off := (bad.map fun b => b.2.1).getD v.x.off, seq := v.x.seq, cycle := s.cycle, func := f.func.toNat,
    o0 := o.getD 0 0, o1 := o.getD 1 0, o2 := o.getD 2 0, otag := f.otag.toNat, ctags := consumedTags f,
    waits := (s.core.engs.filter fun q => q.h == v.x.h && q.slot == v.x.slot && (consumedTags f).contains q.otag).map fun q => q.id,
    ranges := ranges, started := false, done := 0, due := 0, wait := 0, failed := bad.map fun b => (b.1, b.2.2) }
  ({ s.core with engs := s.core.engs ++ [e], seq := s.core.seq + 1 } : Core).modGroup v.x.h v.x.slot fun g =>
    { g with tags := g.tags.modify f.otag.toNat fun t => { t with count := t.count + 1 } }

/-- The three operands of a copy-shaped op. -/
def aOps (v : View) (f : AFields) : List W64 := [v.aVal copySpec f 0, v.aVal copySpec f 1, v.aVal copySpec f 2]

/-- A copy's operands are multiples of 16 bytes and its length is not 0 and within the limit (R193). -/
def CopyOk (v : View) (f : AFields) (limit : Nat) : Prop :=
  (v.aVal copySpec f 0).toNat % 16 = 0 ∧ (v.aVal copySpec f 1).toNat % 16 = 0 ∧ (v.aVal copySpec f 2).toNat % 16 = 0 ∧
  (v.aVal copySpec f 2).toNat ≠ 0 ∧ (v.aVal copySpec f 2).toNat ≤ limit

/-- A range of scratchpad lies within SCRATCH. -/
def Within (v : View) (a n : Nat) : Prop := a + n ≤ v.p.image.scratch

end Sys2Proof.Claims

/-- R189, R192, R193, R195, R196: copies and collectives queue with their operands and hold their scratchpad ranges. -/
def Sys2Proof.Claims.CopiesAndCollectivesQueue : Prop :=
  ∀ (s : State) (v : View) (f : AFields) (act : LaneMask), AtIssue s v .a f.hdr act →
    let a := (v.aVal copySpec f 0).toNat
    let b := (v.aVal copySpec f 1).toNat
    let n := (v.aVal copySpec f 2).toNat
    (aBad copySpec f v = none →
      (CopyOk v f 1048576 → Within v a n → exec (.cpGs f) s = carriesOn s (queued s v f .cpGs (aOps v f) [(a, n)])) ∧
      (CopyOk v f 1048576 → Within v b n → exec (.cpSg f) s = carriesOn s (queued s v f .cpSg (aOps v f) [(b, n)])) ∧
      (CopyOk v f (2 ^ 32 - 16) → exec (.cpGg f) s = carriesOn s (queued s v f .cpGg (aOps v f) [])) ∧
      (CopyOk v f 1048576 → Within v a n → b + n ≤ 2 ^ 31 →
        (∀ u, b / 2 ^ 24 ≤ u → u * 2 ^ 24 < b + n → (dieOf v.x.h, u, v.p.world) ∈ s.hst.units) →
        exec (.cpMs f) s = carriesOn s (queued s v f .cpMs (aOps v f) [(a, n)])) ∧
      (a % 16 = 0 → b % 16 = 0 → n = 0 →
        exec (.cpGs f) s = .next s ∧ exec (.cpSg f) s = .next s ∧ exec (.cpGg f) s = .next s ∧ exec (.cpMs f) s = .next s) ∧
      exec (.collBc f) s = carriesOn s (queued s v f .collBc (aOps v f) []) ∧
      exec (.collAg f) s = carriesOn s (queued s v f .collAg (aOps v f) []) ∧
      exec (.collA2a f) s = carriesOn s (queued s v f .collA2a (aOps v f) [])) ∧
    (aBad { copySpec with funcs := fun n => decide (n ≤ 2) } f v = none →
      exec (.collRed f) s = carriesOn s (queued s v f .collRed (aOps v f) []))

/-- R192, R194: a gather or scatter with an aligned list inside the scratchpad queues, and holds its rows and list. -/
def Sys2Proof.Claims.GatherScatterQueue : Prop :=
  ∀ (s : State) (v : View) (f : AFields) (act : LaneMask), AtIssue s v .a f.hdr act →
    let d := (v.aVal copySpec f 2).toNat
    let rows := d / 2 ^ 20 % 2 ^ 16 + 1
    let list := d % 2 ^ 20
    let size := 16 * 2 ^ f.func.toNat
    aBad gatherSpec f v = none → d < 2 ^ 36 → list % 4 = 0 → Within v list (4 * rows) →
      (Within v (v.aVal copySpec f 0).toNat (rows * size) →
        exec (.gth f) s = carriesOn s (queued s v f .gth (aOps v f) [((v.aVal copySpec f 0).toNat, rows * size), (list, 4 * rows)])) ∧
      (Within v (v.aVal copySpec f 1).toNat (rows * size) →
        exec (.sct f) s = carriesOn s (queued s v f .sct (aOps v f) [((v.aVal copySpec f 1).toNat, rows * size), (list, 4 * rows)]))

/-- R189, R192 to R196: Copies and collectives queue with their operands and hold their scratchpad ranges. A gather or
scatter with an aligned list inside the scratchpad queues, and holds its rows and list. -/
def Obligations.TransfersQueue : Prop := Claims.CopiesAndCollectivesQueue ∧ Claims.GatherScatterQueue

namespace Sys2Proof.Claims

/-- Bytes of a flue between two counts (R199). -/
def between (hi lo : Nat) : Nat := (hi + 2 ^ 32 - lo) % 2 ^ 32
/-- Entries or bytes that producers may still claim. -/
def flueRoom (q : Flue) : Nat := q.size - between q.pq q.c
/-- Bytes produced that consumers may still claim. -/
def flueHeld (q : Flue) : Nat := between q.p q.cq
/-- Entries of q7 that consumers may still claim: those of queued loads count (R201, R221). -/
def scaleHeld (q : Flue) : Nat := between q.pq q.cq

/-- The issuing group's flue `n` changes, in the group and in what it keeps of itself at boundaries after the op (R203). -/
def flueStep (v : View) (n : Nat) (f : Flue → Flue) (c : Core) : Core :=
  let kept := fun (b : GroupSave) => if v.x.seq ≤ b.seq then { b with flues := b.flues.modify n (Option.map f) } else b
  c.modGroup v.x.h v.x.slot fun g =>
    { g with flues := g.flues.modify n (Option.map f), ckpt := g.ckpt.map kept, next := g.next.map kept }

end Sys2Proof.Claims

/-- R198 to R201: tensor loads and flue ops queue; the flue's claimed counts step at issue, a claim past what is there
traps QUEUE_IMBALANCE with the count and what is there, and a misaligned load traps MISALIGN with its address. -/
def Sys2Proof.Claims.FlueOpsQueue : Prop :=
  ∀ (s : State) (v : View) (f : AFields) (act : LaneMask), AtIssue s v .a f.hdr act →
    (∀ q, aBad qAdvSpec f v = none → v.g.flues.getD (f.func.toNat % 8) none = some q →
      let n := (v.aVal qAdvSpec f 0).toNat
      (between q.pq q.c + n ≤ q.size →
        exec (.qAdvp f) s = carriesOn s (flueStep v (f.func.toNat % 8) (fun q => { q with pq := (q.pq + n) % 2 ^ 32 })
          (queued s v f .qAdvp [v.aVal qAdvSpec f 0] []))) ∧
      (q.size < between q.pq q.c + n →
        exec (.qAdvp f) s = carriesOn s (takeTrap s (trapOf trapQueueImbalance act n (flueRoom q)) 0)) ∧
      (n ≤ flueHeld q →
        exec (.qAdvc f) s = carriesOn s (flueStep v (f.func.toNat % 8) (fun q => { q with cq := (q.cq + n) % 2 ^ 32 })
          (queued s v f .qAdvc [v.aVal qAdvSpec f 0] []))) ∧
      (flueHeld q < n →
        exec (.qAdvc f) s = carriesOn s (takeTrap s (trapOf trapQueueImbalance act n (flueHeld q)) 0))) ∧
    (∀ q, v.g.flues.getD 7 none = some q →
      (aBad sqDrpSpec f v = none →
        let n := (v.aVal sqDrpSpec f 0).toNat
        (n ≤ scaleHeld q →
          exec (.sqDrp f) s = carriesOn s (flueStep v 7 (fun q => { q with cq := (q.cq + n) % 2 ^ 32 })
            (queued s v f .sqDrp [v.aVal sqDrpSpec f 0] []))) ∧
        (scaleHeld q < n →
          exec (.sqDrp f) s = carriesOn s (takeTrap s (trapOf trapQueueImbalance act n (scaleHeld q)) 0))) ∧
      (let a := (v.aVal sqLdSpec f 0).toNat
       let n := (v.aVal sqLdSpec f 1).toNat
       aBad sqLdSpec f v = none → a % 4 = 0 → 1 ≤ n →
        (between q.pq q.c + n ≤ 4096 → (f.func = 1 → Within v a (4 * n)) →
          exec (.sqLd f) s = carriesOn s (flueStep v 7 (fun q => { q with pq := (q.pq + n) % 2 ^ 32 })
            (queued s v f .sqLd [v.aVal sqLdSpec f 0, v.aVal sqLdSpec f 1] (if f.func = 1 then [(a, 4 * n)] else [])))) ∧
        (n ≤ 4096 → 4096 < between q.pq q.c + n →
          exec (.sqLd f) s = carriesOn s (takeTrap s (trapOf trapQueueImbalance act n (4096 - between q.pq q.c)) 0)))) ∧
    (aBad tnLdSpec f v = none →
      ((v.aVal tnLdSpec f 0).toNat % 64 = 0 →
        exec (.tnLd f) s = carriesOn s ((queued s v f .tnLd [v.aVal tnLdSpec f 0, f.opc1.setWidth 64] []).modPart v.p.id fun p =>
          { p with tnPend := p.tnPend ++ [f.opc1.toNat] })) ∧
      ((v.aVal tnLdSpec f 0).toNat % 64 ≠ 0 →
        exec (.tnLd f) s = carriesOn s (takeTrap s (trapOf trapMisalign act (v.aVal tnLdSpec f 0).toNat 0) 0)))

/-- R198 to R200, R202: the A ops that complete at once, and the wait on a flue. -/
def Sys2Proof.Claims.ImmediateEngineOps : Prop :=
  ∀ (s : State) (v : View) (f : AFields) (act : LaneMask), AtIssue s v .a f.hdr act →
    (aBad tnWrSpec f v = none →
      exec (.tnWr f) s = carriesOn s (sent s 0 false none 0 [.tensor f.opc1.toNat f.func.toNat (v.aVal tnWrSpec f 0)] [] 0)) ∧
    (aBad tnRdSpec f v = none →
      exec (.tnRd f) s = carriesOn s (sent s 0 false none 0
        [.scalar (codeReg f.opc0.toNat) ((v.p.tn.getD f.opc1.toNat []).getD f.func.toNat 0)] [] 0)) ∧
    (aBad tagTstSpec f v = none →
      ∃ x : W64, exec (.tagTst f) s = carriesOn s (sent s 0 false none 0 [.scalar (codeReg f.opc0.toNat) x] [] 0) ∧
        ∀ n, n < 16 →
          x.getLsbD n = ((v.aVal tagTstSpec f 1).getLsbD n && decide ((v.g.tag n).count = 0)) ∧
          x.getLsbD (16 + n) = ((v.aVal tagTstSpec f 1).getLsbD n && (v.g.tag n).failed.isSome) ∧
          x.getLsbD (32 + n) = false ∧ x.getLsbD (48 + n) = false) ∧
    (let base := (v.aVal qInitSpec f 0).toNat
     let size := (v.aVal qInitSpec f 1).toNat
     let n := f.func.toNat % 8
     aBad qInitSpec f v = none → base % 256 = 0 → (if n = 7 then size = 16384 else ∃ i, i < 12 ∧ size = 256 * 2 ^ i) →
      Within v base size →
      let put := fun (l : List (Option Flue)) =>
        l.modify n fun _ => some { base := base, size := size, p := 0, c := 0, pq := 0, cq := 0, bad := [] }
      let kept := fun (b : GroupSave) => if v.x.seq ≤ b.seq then { b with flues := put b.flues } else b
      exec (.qInit f) s = carriesOn s (s.core.modGroup v.x.h v.x.slot fun g =>
        { g with flues := put g.flues, ckpt := g.ckpt.map kept, next := g.next.map kept })) ∧
    (∀ q, aBad qWtSpec f v = none → v.g.flues.getD (f.func.toNat % 8) none = some q → (v.aVal qWtSpec f 0).toNat ≤ q.size →
      let n := (v.aVal qWtSpec f 0).toNat
      let r := codeReg f.opc1.toNat
      let a : Access := { v.x.access .flueWait s.cycle act with id := s.core.seq, vals := [n], dst := [r], arg := f.func.toNat, todo := 1 }
      let c := ({ s.core with accs := s.core.accs ++ [a], seq := s.core.seq + 1 } : Core).modGroup v.x.h v.x.slot fun g =>
        { g with pend := g.pend ++ [(r, v.x.split, s.core.seq)] }
      let ready := n ≤ (if f.func.getLsbD 3 then flueRoom q else flueHeld q)
      (ready → exec (.qWt f) s = carriesOn s c) ∧
      (¬ready → v.x.split < 4 →
        exec (.qWt f) s = carriesOn s (waitsIn s v c .longwait (BitVec.ofNat 32 (3 + 65536 * (f.func.toNat % 8))))))

/-- R198 to R202: Tensor loads and flue ops queue; the flue's claimed counts step at issue, a claim past what is there
traps QUEUE_IMBALANCE with the count and what is there, and a misaligned load traps MISALIGN with its address. The A
ops that complete at once, and the wait on a flue. -/
def Obligations.FlueAndTensorOps : Prop := Claims.FlueOpsQueue ∧ Claims.ImmediateEngineOps

namespace Sys2Proof.Claims

/-! ### The T slot (R203 to R230) -/

/-- A scratchpad descriptor names rows that all lie within SCRATCH, 16-byte aligned, under a legal rotation (R215). -/
def DescriptorOk (v : View) (code rows passes bytes : Nat) (tpZero : Bool) : Prop :=
  let x := (v.scalar code).toNat
  let y := (v.scalar (code + 1)).toNat
  let base := x % 2 ^ 20
  let rp := x / 2 ^ 20 % 2 ^ 16
  let tp := y % 2 ^ 20
  x < 2 ^ 36 ∧ y < 2 ^ 23 ∧ y / 2 ^ 20 ≠ 7 ∧ (tpZero = true → tp = 0) ∧ base % 16 = 0 ∧ rp % 16 = 0 ∧ tp % 16 = 0 ∧
  ∀ p, p < passes → ∀ r, r < rows → base + p * tp + r * rp + bytes ≤ v.p.image.scratch

/-- One operand of a multiply is there: a descriptor of its rows, or a register block (R214, R215). -/
def MatOperandOk (v : View) (f : TFields) (right : Bool) (fmt rows kext kp : Nat) (sparse : Option Nat) : Prop :=
  let w := fmtWidth fmt
  let code := if right then f.opb.toNat else f.opa.toNat
  if (if right then f.bsrc else f.asrc) then
    DescriptorOk v code rows (ceilDiv kext kp) (rowBytes kp w (if right then none else sparse)) false
  else code % (kp * w / 32) = 0 ∧ code + (f.rep.toNat + 1) * (kp * w / 32) ≤ v.vregs

/-- The tensor entry a T op names. -/
def tensorEntry (v : View) (n : Nat) : List W64 := v.p.tn.getD n (List.replicate 8 0)

/-- Scale entries that consumers may still claim from q7 (R221). -/
def scalesHeld (v : View) : Nat := match v.g.flues.getD 7 none with | some q => scaleHeld q | none => 0

/-- K extent of a multiply of one hearth (R217). -/
def kExtentOf (v : View) (f : TFields) (kind : MatKind) : Nat :=
  min (min ((f.rep.toNat + 1) * passK f.rate.toNat (kind == .mmaSp)) (entryKlen (tensorEntry v f.tna.toNat)))
    (entryKlen (tensorEntry v f.tnb.toNat))

/-- Scale entries an mma.q takes: one for every group of every row (R221). -/
def scalesNeeded (v : View) (f : TFields) : Nat :=
  ceilDiv (kExtentOf v f .mmaQ) (quantGroup f.qg.toNat) * entryRows (tensorEntry v f.tnb.toNat)

/-- q7 holds the scale entries an mma.q takes (R221). -/
def ScalesThere (v : View) (f : TFields) : Prop :=
  v.g.flues.getD 7 none ≠ none ∧ scalesNeeded v f ≤ 4096 ∧ scalesNeeded v f ≤ scalesHeld v

/-- A multiply of one hearth has legal entries, formats of one pair at the op's rate, and both operands (R210, R212 to
R215, R222). -/
def MultiplyOk (v : View) (f : TFields) (kind : MatKind) : Prop :=
  let ea := tensorEntry v f.tna.toNat
  let eb := tensorEntry v f.tnb.toNat
  let sp := kind == .mmaSp
  let kp := passK f.rate.toNat sp
  let sparse := if sp then some (sparseN f.spn.toNat) else none
  let kext := kExtentOf v f kind
  mmaBad kind f v = none ∧ operandBad ea = none ∧ operandBad eb = none ∧
  pairRate (kind == .mmaQ) (entryFmt ea) (entryFmt eb) = some f.rate.toNat ∧
  rateHas f.rate.toNat (entryFmt ea) false = true ∧ rateHas f.rate.toNat (entryFmt eb) true = true ∧
  (f.sat = true → matInt (entryFmt ea) = true ∧ matQuant (entryFmt eb) = false) ∧
  MatOperandOk v f false (entryFmt ea) (entryRows ea) kext kp sparse ∧
  MatOperandOk v f true (entryFmt eb) (entryRows eb) kext kp sparse

/-- A T op is queued last, under the next op number, may start two cycles after issue, and is nothing but its kind,
accumulator and steps to what comes before it (R204, R205). -/
def MatQueued (s : State) (v : View) (f : TFields) (act : LaneMask) (kind : MatKind) (steps : Nat) (c : Core) (m : MatOp) : Prop :=
  c.mats = s.core.mats ++ [m] ∧ m.id = s.core.seq ∧ c.seq = s.core.seq + 1 ∧ m.kind = kind ∧ m.acc = f.acc.toNat ∧
  m.steps = steps ∧ m.left = steps ∧ m.ready = s.cycle + 2 ∧ m.h = v.x.h ∧ m.slot = v.x.slot ∧ m.split = v.x.split ∧
  m.mask = act ∧ m.failed = none ∧ m.running = false

/-- What the auto-increment sends (R216). -/
def incremented (s : State) (v : View) (f : TFields) : List Landing :=
  if f.incen then (sent s 0 false none 0
    [.scalar (.a f.incr.toNat) (v.g.a.getD f.incr.toNat 0 + BitVec.ofNat 64 (f.rep.toNat + 1) * v.literal .t)] [] 0).land
  else s.core.land

end Sys2Proof.Claims

/-- R204, R205, R216, R217, R221, R222: a legal multiply joins the engine's queue with its steps, its auto-increment
lands at the end of the cycle, and mma.q takes its scale entries from q7, or traps QUEUE_IMBALANCE where q7 has too few. -/
def Sys2Proof.Claims.MultipliesQueue : Prop :=
  ∀ (s : State) (v : View) (f : TFields) (act : LaneMask), AtIssue s v .t f.hdr act →
    (MultiplyOk v f .mma → ∃ c m, exec (.mma f) s = carriesOn s c ∧
      MatQueued s v f act .mma (32 * (f.rep.toNat + 1)) c m ∧ m.scales = 0 ∧ c.land = incremented s v f) ∧
    (MultiplyOk v f .mmaSp → ∃ c m, exec (.mmaSp f) s = carriesOn s c ∧
      MatQueued s v f act .mmaSp ((f.rep.toNat + 1) * (16 * sparseN f.spn.toNat) / 2 ^ f.rate.toNat) c m ∧ m.scales = 0 ∧
      c.land = incremented s v f) ∧
    (∀ q, MultiplyOk v f .mmaQ → ScalesThere v f → v.g.flues.getD 7 none = some q → ∃ c m, exec (.mmaQ f) s = carriesOn s c ∧
      MatQueued s v f act .mmaQ (32 * (f.rep.toNat + 1)) c m ∧ m.spos = q.cq ∧ m.scales = scalesNeeded v f ∧
      c.land = incremented s v f ∧
      ∃ g', c.group? v.x.h v.x.slot = some g' ∧ g'.flues.getD 7 none = some { q with cq := (q.cq + m.scales) % 2 ^ 32 }) ∧
    (MultiplyOk v f .mmaQ → ¬ScalesThere v f →
      exec (.mmaQ f) s = carriesOn s (takeTrap s (trapOf trapQueueImbalance act (scalesNeeded v f) (scalesHeld v)) 1))

namespace Sys2Proof.Claims

/-- A hearth's part of an mma.st: the A operand of the first hearth of a row of four, the B operand of the first row,
with their entries, at the op's rate, and the scale entries of a quantized B (R221, R223). -/
def StoveMultiplyOk (v : View) (f : TFields) : Prop :=
  let hasA := v.p.p % 4 = 0
  let hasB := v.p.p < 4
  let ea := tensorEntry v f.tna.toNat
  let eb := tensorEntry v f.tnb.toNat
  let kp := passK f.rate.toNat false
  let ka := min ((f.rep.toNat + 1) * kp) (entryKlen ea)
  let kb := min ((f.rep.toNat + 1) * kp) (entryKlen eb)
  mmaBad .mmaSt f v = none ∧
  (hasA → operandBad ea = none ∧ rateHas f.rate.toNat (entryFmt ea) false = true ∧
    MatOperandOk v f false (entryFmt ea) (entryRows ea) ka kp none) ∧
  (hasB → operandBad eb = none ∧ rateHas f.rate.toNat (entryFmt eb) true = true ∧
    MatOperandOk v f true (entryFmt eb) (entryRows eb) kb kp none ∧ (matQuant (entryFmt eb) = false → f.qg = 0) ∧
    (matQuant (entryFmt eb) = true → v.g.flues.getD 7 none ≠ none ∧
      ceilDiv kb (quantGroup f.qg.toNat) * entryRows eb ≤ 4096 ∧ ceilDiv kb (quantGroup f.qg.toNat) * entryRows eb ≤ scalesHeld v)) ∧
  (f.sat = true → (hasA → matInt (entryFmt ea) = true) ∧ (hasB → matInt (entryFmt eb) = true))

end Sys2Proof.Claims

/-- R223, R224: a hearth's own mma.st joins its queue under the group's count of them, which steps. -/
def Sys2Proof.Claims.StoveMultiplyQueues : Prop :=
  ∀ (s : State) (v : View) (f : TFields) (act : LaneMask), AtIssue s v .t f.hdr act → StoveMultiplyOk v f →
    ∃ c m, exec (.mmaSt f) s = carriesOn s c ∧ MatQueued s v f act .mmaSt (32 * (f.rep.toNat + 1)) c m ∧
      m.inst = v.g.stCount ∧ c.land = incremented s v f ∧
      ∃ g', c.group? v.x.h v.x.slot = some g' ∧ g'.stCount = v.g.stCount + 1

/-- R204, R205, R216, R217, R221 to R224: A legal multiply joins the engine's queue with its steps, its auto-increment
lands at the end of the cycle, and mma.q takes its scale entries from q7, or traps QUEUE_IMBALANCE where q7 has too
few. A hearth's own mma.st joins its queue under the group's count of them, which steps. -/
def Obligations.MultipliesJoinQueue : Prop := Claims.MultipliesQueue ∧ Claims.StoveMultiplyQueues

/-- R225 to R230: the accumulator ops and kat join the queue with their steps; acc.mv makes its destinations pending. -/
def Obligations.AccumulatorOpsQueue : Prop :=
  ∀ (s : State) (v : View) (f : TFields) (act : LaneMask), AtIssue s v .t f.hdr act →
    (firstBad (accBad f v false false false false false false) = none →
      ∃ c m, exec (.accZ f) s = carriesOn s c ∧ MatQueued s v f act .accZ 1 c m) ∧
    (firstBad (accBad f v true false false false false false) = none → DescriptorOk v f.opa.toNat 128 1 512 true →
      (∃ c m, exec (.accLd f) s = carriesOn s c ∧ MatQueued s v f act .accLd 128 c m) ∧
      (∃ c m, exec (.accSt f) s = carriesOn s c ∧ MatQueued s v f act .accSt 128 c m)) ∧
    (let e := tensorEntry v f.tna.toNat
     let w := (e.getD 0 0).toNat
     let ofmt := w % 32
     let rows := w / 2 ^ 16 % 2 ^ 9
     let cols := w / 2 ^ 32 % 2 ^ 9
     let bias := (e.getD 1 0).toNat / 2 ^ 32 % 2 ^ 20
     firstBad (accBad f v true true true false false false) = none → epilogueBad e = none →
      (f.sat = true → ofmt ∈ [1, 2, 4]) → DescriptorOk v f.opa.toNat rows 1 (ceilDiv (cols * fmtWidth ofmt) 8) true →
      bias % 4 = 0 → (w / 2 ^ 10 % 4 = 1 → Within v bias (4 * cols)) → (w / 2 ^ 10 % 4 = 2 → Within v bias (4 * rows)) →
      ∃ c m, exec (.accCvt f) s = carriesOn s c ∧ MatQueued s v f act .accCvt 128 c m) ∧
    (let row := (v.scalar f.opa.toNat).toNat
     let n := f.rep.toNat + 1
     isSA f.opa.toNat = true → firstBad (accBad f v false false false true true true) = none → row + n ≤ 128 →
      f.opb.toNat + n ≤ v.vregs →
      ∃ c m, exec (.accMv f) s = carriesOn s c ∧ MatQueued s v f act .accMv n c m ∧ m.arg = row ∧
        m.dst = (List.range n).map (fun i => rotated v.x.rho (f.opb.toNat + i)) ∧
        ∃ g', c.group? v.x.h v.x.slot = some g' ∧ g'.pend = v.g.pend ++ m.dst.map fun r => (.v r, v.x.split, s.core.seq)) ∧
    (f.opa.toNat < 2 → f.opb.toNat < 4 → f.opb.toNat < v.g.acc.length → (f.sat = true → f.opa ≠ 0) →
      firstBad (accBad f v false false true false true true) = none →
      ∃ c m, exec (.accAdd f) s = carriesOn s c ∧ MatQueued s v f act .accAdd 16 c m ∧ m.arg = f.opb.toNat) ∧
    (f.hdr.sq = false → f.acc = 0 → f.rsv16 = false → f.rate ≠ 3 → f.tna = 0 → f.tnb = 0 → f.opb = 0 → f.asrc = false →
      f.bsrc = false → f.rep = 0 → f.incr = 0 → f.incen = false → f.sat = false → f.spn = 0 → f.qg = 0 → f.rsv = 0 →
      v.route32 .t = true →
      ∃ c m, exec (.kat f) s = carriesOn s c ∧ MatQueued s v f act .kat 32 c m ∧ m.arg = f.opa.toNat ∧
        m.arg2 = ((v.literal .t).setWidth 32).toNat)

namespace Sys2Proof.Claims

/-! ### The C slot (R93 to R123) -/

/-- The fields a C op does not name are 0, and TSEL is as its form gives it (R96). -/
structure CForm (f : CFields) (tsel : BitVec 2) (aux func sb sa : Bool) : Prop where
  sq : f.hdr.sq = false
  tsel : f.tsel = tsel
  aux : aux = false → f.aux = 0
  func : func = false → f.func = 0
  sb : sb = false → f.sb = 0
  sa : sa = false → f.sa = 0

/-- A transfer of the whole split (R26, R95): its offset is the target, and unless that is the next record its
squashable results that have not landed are killed. -/
def jumped (s : State) (v : View) (c : Core) (t : Nat) : Core :=
  let c := c.goTo v.x v.p.id t
  if t = v.x.nxt then c else c.squash v.x.h v.x.slot v.x.split s.cycle v.x.smask true

/-- The literal's low 32 bits, or a scalar's. -/
def litTarget (v : View) : Nat := (v.literal .c).toNat % 2 ^ 32
def scalarTarget (v : View) (code : Nat) : Nat := (v.scalar code).toNat % 2 ^ 32

/-- An op whose target is legal goes there; else the whole split takes BAD_TARGET at the op (R94). -/
def GoesTo (s : State) (v : View) (t : Nat) (c : Core) (a : Answer) : Prop :=
  (s.landing v.p t = true → a = carriesOn s (jumped s v c t)) ∧
  (s.landing v.p t = false → a = carriesOn s (takeTrap s (trapOf trapBadTarget v.x.smask t 0) 0))

/-- The hearths with s15 on its way to the offset of the next record (R99). -/
def linked (s : State) (v : View) : Core := sent s 0 false none 0 [.scalar (.s 15) (BitVec.ofNat 64 v.x.nxt)] [] 0

/-- The condition of brc over a scalar or a predicate (R97). -/
def branchTaken (v : View) (f : CFields) : Prop :=
  let x := v.scalar f.sa.toNat
  let k := v.g.pred (f.sa.toNat - 0x30) &&& v.x.smask
  match f.func.toNat with
  | 0 => x = 0
  | 1 => x ≠ 0
  | 2 => x.toInt < 0
  | 3 => 0 ≤ x.toInt
  | 4 => 0 < x.toInt
  | 5 => x.toInt ≤ 0
  | 8 => k ≠ 0
  | 9 => k = 0
  | _ => k = v.x.smask

/-- FUNC names a condition of SA's class (R97). -/
def ConditionOk (f : CFields) : Prop :=
  (isSA f.sa.toNat = true ∧ f.func.toNat ≤ 5) ∨ (isSA f.sa.toNat = false ∧ 8 ≤ f.func.toNat ∧ f.func.toNat ≤ 10)

end Sys2Proof.Claims

/-- R94 to R99: branches, calls and returns go to a legal target and take BAD_TARGET for any other; a call leaves the
offset of the next record in s15. -/
def Obligations.ControlTransfers : Prop :=
  ∀ (s : State) (v : View) (f : CFields) (act : LaneMask), AtIssue s v .c f.hdr act →
    (v.route32 .c = true →
      (CForm f 0 false false false false →
        GoesTo s v (litTarget v) s.core (exec (.br f) s) ∧ GoesTo s v (litTarget v) (linked s v) (exec (.call f) s)) ∧
      (CForm f 0 false true false true → ConditionOk f →
        (branchTaken v f → GoesTo s v (litTarget v) s.core (exec (.brc f) s)) ∧
        (¬branchTaken v f → s.landing v.p (litTarget v) = true → exec (.brc f) s = .next s) ∧
        (¬branchTaken v f → s.landing v.p (litTarget v) = false →
          exec (.brc f) s = carriesOn s (takeTrap s (trapOf trapBadTarget v.x.smask (litTarget v) 0) 0)))) ∧
    (isSA f.sa.toNat = true → CForm f 1 false false false true →
      GoesTo s v (scalarTarget v f.sa.toNat) s.core (exec (.bri f) s) ∧
      GoesTo s v (scalarTarget v f.sa.toNat) (linked s v) (exec (.callScalar f) s)) ∧
    (CForm f 2 false false false false → GoesTo s v (scalarTarget v 15) s.core (exec (.ret f) s))

namespace Sys2Proof.Claims

/-- The issuing split is one of the four of its group and holds lanes. -/
def Issuing (v : View) : Prop := v.x.split < 4 ∧ v.g.splits.length = 4 ∧ (v.g.split v.x.split).state ≠ .free

/-- The group after an op. -/
def After (v : View) (a : Answer) (P : Group → Prop) : Prop :=
  ∃ s' : State, a = .next s' ∧ ∃ g', s'.core.group? v.x.h v.x.slot = some g' ∧ P g'

/-- The lowest free split entry. -/
def LowestFree (g : Group) (n : Nat) : Prop := n < 4 ∧ (g.split n).state = .free ∧ ∀ m, m < n → (g.split m).state ≠ .free

end Sys2Proof.Claims

/-- R100, R101, R241: brd with lanes on both sides divides its split: the taken lanes go on at the target, the rest
start at the next record in the lowest free entry or wait on top of the deferred stack, and both carry the record of a
new identity that every lane owes. With all lanes or none it only transfers or goes on. -/
def Sys2Proof.Claims.DivergentBranch : Prop :=
  ∀ (s : State) (v : View) (f : CFields) (act : LaneMask), AtIssue s v .c f.hdr act → Issuing v →
    isK f.sa.toNat = true → v.route64 .c = true → CForm f 0 false false false true →
    s.landing v.p (litTarget v) = true → s.landing v.p ((v.literal .c).toNat / 2 ^ 32) = true →
    let taken := act &&& v.g.pred (f.sa.toNat - 0x30)
    let old := v.g.split v.x.split
    (taken = 0 → exec (.brd f) s = .next s) ∧
    (taken = v.x.smask → exec (.brd f) s = carriesOn s (jumped s v s.core (litTarget v))) ∧
    (∀ id, taken ≠ 0 → taken ≠ v.x.smask → old.ids.length < 8 → v.g.newIdent = some id →
      (∀ n, LowestFree v.g n → After v (exec (.brd f) s) fun g' =>
        (g'.split v.x.split).mask = taken ∧ (g'.split v.x.split).offset = litTarget v ∧ (g'.split v.x.split).ids = id :: old.ids ∧
        (g'.split n).mask = v.x.smask &&& ~~~taken ∧ (g'.split n).offset = v.x.nxt ∧ (g'.split n).ids = id :: old.ids ∧
        (g'.split n).state = .ready ∧ (g'.split n).bank = old.bank ∧
        ∃ i ∈ g'.idents, i.ident = id ∧ i.join = (v.literal .c).toNat / 2 ^ 32 ∧ i.owed = v.x.smask ∧ i.present = 0) ∧
      ((∀ m, m < 4 → (v.g.split m).state ≠ .free) → 3 ≤ areaRoom v.g.areaFree → After v (exec (.brd f) s) fun g' =>
        (g'.split v.x.split).mask = taken ∧ (g'.split v.x.split).offset = litTarget v ∧
        ∃ d, g'.sides = d :: v.g.sides ∧ d.mask = v.x.smask &&& ~~~taken ∧ d.offset = v.x.nxt ∧ d.ids = id :: old.ids ∧
          d.bank = old.bank) ∧
      ((∀ m, m < 4 → (v.g.split m).state ≠ .free) → areaRoom v.g.areaFree < 3 →
        exec (.brd f) s = carriesOn s (takeTrap s (trapOf trapStackOverflow v.x.smask 3 (areaRoom v.g.areaFree)) 0)))

namespace Sys2Proof.Claims

/-- Where an active lane of brx is to go: its own target; a lane outside the guard goes to the next record (R105). -/
def laneTarget (v : View) (vt : Vec) (act : LaneMask) (n : Nat) : Nat := if act.has n then (vt.lane n).toNat else v.x.nxt

/-- The lane's target is legal (R94, R105). -/
def goodLane (s : State) (v : View) (vt : Vec) (act : LaneMask) (n : Nat) : Bool :=
  !(act.has n) || s.landing v.p (vt.lane n).toNat

/-- The parts a brx makes. -/
def partsOf (s : State) (v : View) (vt : Vec) (act : LaneMask) : Nat :=
  ((((List.range 128).filter fun n => v.x.smask.has n && goodLane s v vt act n).map (laneTarget v vt act)).eraseDups).length + 1

/-- A lane stands in a split entry or a deferred side at an offset. -/
def StandsAt (g : Group) (n off : Nat) : Prop :=
  (∃ i, i < 4 ∧ (g.split i).state ≠ .free ∧ (g.split i).mask.has n = true ∧ (g.split i).offset = off) ∨
  (∃ d ∈ g.sides, d.mask.has n = true ∧ d.offset = off)

end Sys2Proof.Claims

/-- R105: after a brx every lane with a legal target stands at it, every lane outside the guard at the next record, and
every other lane is in an entry that is TRAPPED at the brx. -/
def Sys2Proof.Claims.IndexedBranch : Prop :=
  ∀ (s : State) (v : View) (f : CFields) (act : LaneMask), AtIssue s v .c f.hdr act → Issuing v → CanTrap v →
    VecOk v f.sa.toNat 1 → CForm f 2 false false false true →
    let vt := v.vec f.sa.toNat
    partsOf s v vt act * (spillCount (v.g.split v.x.split).ids + 3) ≤ areaRoom v.g.areaFree →
    After v (exec (.brx f) s) fun g' =>
      ∀ n, n < 128 → v.x.smask.has n = true →
        (goodLane s v vt act n = true → StandsAt g' n (laneTarget v vt act n)) ∧
        (goodLane s v vt act n = false →
          ∃ i, i < 4 ∧ (g'.split i).state = .trapped ∧ (g'.split i).mask.has n = true ∧ (g'.split i).offset = v.x.off)

/-- R100, R101, R105, R241: Brd with lanes on both sides divides its split: the taken lanes go on at the target, the rest
start at the next record in the lowest free entry or wait on top of the deferred stack, and both carry the record of a
new identity that every lane owes. With all lanes or none it only transfers or goes on. After a brx every lane with a
legal target stands at it, every lane outside the guard at the next record, and every other lane is in an entry that
is TRAPPED at the brx. -/
def Obligations.DivergentBranches : Prop := Claims.DivergentBranch ∧ Claims.IndexedBranch

/-- R102: a join away from its region's join offset does nothing; one that completes its region gives the split all the
lanes the region owes and pops its record; else the split waits, or its entry takes the top deferred side. -/
def Obligations.JoinRegion : Prop :=
  ∀ (s : State) (v : View) (f : CFields) (act : LaneMask), AtIssue s v .c f.hdr act → CForm f 2 false false false false →
    let e := v.g.split v.x.split
    (e.ids = [] → exec (.join f) s = .next s) ∧
    (∀ id ids r, Issuing v → e.ids = id :: ids → v.g.ident? id = some r →
      (r.join ≠ v.x.off → exec (.join f) s = .next s) ∧
      (r.join = v.x.off → e.state ≠ .trapped →
        let here := r.present ||| v.x.smask
        (here = r.owed → After v (exec (.join f) s) fun g' =>
          (g'.split v.x.split).mask = r.owed ∧ (g'.split v.x.split).ids = ids ∧
          ∀ m, m < 4 → m ≠ v.x.split → (v.g.split m).state = .join → (v.g.split m).ids.head? = some id →
            (g'.split m).state = .free) ∧
        (here ≠ r.owed → v.g.sides = [] → After v (exec (.join f) s) fun g' =>
          (g'.split v.x.split).state = .join ∧ (g'.split v.x.split).mask = e.mask ∧ (g'.split v.x.split).offset = v.x.off ∧
          (g'.ident? id).map (fun i => i.present) = some here) ∧
        (∀ d ds, here ≠ r.owed → v.g.sides = d :: ds → After v (exec (.join f) s) fun g' =>
          (g'.split v.x.split).mask = d.mask ∧ (g'.split v.x.split).offset = d.offset ∧ (g'.split v.x.split).ids = d.ids ∧
          (g'.split v.x.split).bank = d.bank ∧ (g'.split v.x.split).state = .ready ∧ g'.sides = ds)))

/-- R104, R106: brk leaves its regions and their owed masks and goes to its target; a partial guard or too few records
trap; exit takes its lanes out of the split and out of every owed mask, and in the team handler out of the handler's run
(the model's choice, log entry 93). -/
def Obligations.BreakAndExit : Prop :=
  ∀ (s : State) (v : View) (f : CFields) (act : LaneMask), AtIssue s v .c f.hdr act →
    (Issuing v → (v.g.split v.x.split).ids.Nodup → f.aux.toNat < 8 →
      let n := f.aux.toNat + 1
      let depth := (v.g.split v.x.split).ids.length
      let left := fun t (g' : Group) =>
        (g'.split v.x.split).ids = (v.g.split v.x.split).ids.drop n ∧ (g'.split v.x.split).offset = t ∧
        ∀ i ∈ g'.idents, i.ident ∈ (v.g.split v.x.split).ids.take n → i.owed &&& v.x.smask = 0
      (CForm f 0 true false false false → v.route32 .c = true →
        (act = v.x.smask → n ≤ depth → s.landing v.p (litTarget v) = true → After v (exec (.brk f) s) (left (litTarget v))) ∧
        (act ≠ v.x.smask ∨ depth < n →
          exec (.brk f) s = carriesOn s (takeTrap s (trapOf trapIllegalSchedule v.x.smask (n + depth * 256) 0) 0))) ∧
      (CForm f 1 true false false true → isSA f.sa.toNat = true →
        (act = v.x.smask → n ≤ depth → s.landing v.p (scalarTarget v f.sa.toNat) = true →
          After v (exec (.brkScalar f) s) (left (scalarTarget v f.sa.toNat))) ∧
        (act ≠ v.x.smask ∨ depth < n →
          exec (.brkScalar f) s = carriesOn s (takeTrap s (trapOf trapIllegalSchedule v.x.smask (n + depth * 256) 0) 0)))) ∧
    (Issuing v → CForm f 2 false false false false →
      After v (exec (.exit f) s) fun g' =>
        (∀ i ∈ g'.idents, i.owed &&& act = 0) ∧
        ((v.g.split v.x.split).mask &&& ~~~act ≠ 0 → (g'.split v.x.split).mask = (v.g.split v.x.split).mask &&& ~~~act) ∧
        ((v.g.split v.x.split).mask &&& ~~~act = 0 → (g'.split v.x.split).state = .free)) ∧
    (v.x.split = 4 → CForm f 2 false false false false →
      exec (.exit f) s = carriesOn s (s.core.modPart v.p.id fun p =>
        { p with handler := p.handler.map fun r => { r with lanes := r.lanes &&& ~~~act } }))

/-- R107, R108, R291, R293: trap takes TRAP_INSTR with its number; dbg is a stop when DBGEN enables it and nothing else;
tret is legal in the team handler alone, where it ends the run. -/
def Obligations.TrapDebugReturn : Prop :=
  ∀ (s : State) (v : View) (f : CFields) (act : LaneMask), AtIssue s v .c f.hdr act →
    (CForm f 2 true false false false →
      exec (.trap f) s = carriesOn s (takeTrap s (trapOf trapInstr act f.aux.toNat 0) 0) ∧
      (v.p.dbgen.getLsbD f.aux.toNat = false → exec (.dbg f) s = .next s) ∧
      (v.p.dbgen.getLsbD f.aux.toNat = true → v.x.split < 4 →
        exec (.dbg f) s = carriesOn s (s.core.modPart v.p.id fun p => { p with stop := p.stop ++ [
          { slot := v.x.slot, split := v.x.split, code := trapDebugStop, origin := 6, pc := v.x.off, mask := v.x.smask,
            info0 := f.aux.setWidth 64, info1 := 0, info2 := 0, info3 := 0, cycle := s.cycle, iter := v.x.iter }] }))) ∧
    (CForm f 2 false false false false →
      (∀ r, v.x.split = 4 → v.p.handler = some r → r.action ≤ 5 →
        exec (.tret f) s = carriesOn s (s.core.modPart v.p.id fun p =>
          { p with handler := p.handler.map fun r => { r with done := true } })) ∧
      (v.x.split < 4 → ReservedTrap s v 6 act (exec (.tret f) s)))

/-- R109 to R113: a sequencer op whose body passes every check starts a run at the body's first record, with its trip
count, stages and stop scalar; with a trip count of 0 it goes on behind the body; a failing check traps SEQ_ERROR. -/
def Obligations.SequencerStart : Prop :=
  ∀ (s : State) (v : View) (f : CFields) (act : LaneMask), AtIssue s v .c f.hdr act → Issuing v →
    isSA f.sa.toNat = true → f.aux.toNat < 128 → v.route64 .c = true →
    let first := litTarget v
    let last := (v.literal .c).toNat / 2 ^ 32
    let ii := f.aux.toNat % 16 + 1
    let stages := f.aux.toNat / 16 + 1
    let r := s.seqCheck v.p first last ii stages
    let trip := (v.scalar f.sa.toNat).toNat
    let run := fun stop => carriesOn s (s.core.modSplit v.x.h v.x.slot v.x.split fun e => { e with
      seqRun := some { first := first, last := last, ii := ii, stages := stages, trip := trip, t := 0, vrotStart := v.g.vrot,
                       stop := stop, body := r.2.map fun r => (r.off, r.nxt) }, offset := first })
    let starts := fun stop (a : Answer) =>
      (r.1 = 0 → trip ≠ 0 → a = run stop) ∧
      (r.1 = 0 → trip = 0 → After v a fun g' =>
        g'.seqIter = 0 ∧ (∀ l, r.2.getLast? = some l → (g'.split v.x.split).offset = l.nxt)) ∧
      (r.1 ≠ 0 → a = carriesOn s (takeTrap s (trapOf trapSeqError v.x.smask r.1 0) 0))
    (CForm f 0 true false false true → starts none (exec (.seq f) s)) ∧
    (CForm f 0 true false true true → isSA f.sb.toNat = true → starts (some f.sb.toNat) (exec (.seqx f) s))

/-- R69, R114, R115: swp goes to the variant of the die's power level, which must be a landing with SPF; chk goes on,
or in a stove team waits for the other hearths. -/
def Obligations.SwitchPointsAndCheckpoints : Prop :=
  ∀ (s : State) (v : View) (f : CFields) (act : LaneMask), AtIssue s v .c f.hdr act → CForm f 2 true false false false →
    (∀ hi mid lo, f.aux.toNat < v.p.image.swCount → s.switchEntry v.p f.aux.toNat = some (hi, mid, lo, 0) →
      let level := (s.die v.x.h).pwrLevel % 8
      let t := if level ≤ 2 then lo else if level ≤ 5 then mid else hi
      (s.landing v.p t = true → s.spfAt v.p t = true → exec (.swp f) s = carriesOn s (jumped s v s.core t)) ∧
      (s.landing v.p t = false ∨ s.spfAt v.p t = false →
        exec (.swp f) s = carriesOn s (takeTrap s (trapOf trapBadTarget v.x.smask t 0) 0))) ∧
    (f.aux.toNat < 16 → (∀ n, n < 4 → f.aux.getLsbD n = true → n < v.g.acc.length) → v.x.split < 4 →
      exec (.chk f) s = if v.p.image.stove then carriesOn s (waitsIn s v s.core .longwait 6) else .next s)

namespace Sys2Proof.Claims

/-- Barrier `b` of a part, and a group's share in it (R116, R117). -/
def barrierOf (s : State) (v : View) (b : Nat) : Barrier :=
  match s.core.part? (s.core.barHome v.p b) with
  | some p => p.bars.getD b { gen := 0, expect := 0, arrived := 0, arrivals := [] }
  | none => { gen := 0, expect := 0, arrived := 0, arrivals := [] }
def myShare (s : State) (v : View) (b : Nat) : Arrival :=
  ((barrierOf s v b).arrivals.find? fun a => a.group == barKey v.p v.g b).getD
    { group := barKey v.p v.g b, lanes := 0, counted := false, last := none, again := [] }

/-- The barrier once the lanes of the op have arrived (R117). -/
def arrived (s : State) (v : View) (b : Nat) (act : LaneMask) (thenWait : Bool) : Core :=
  s.core.modPart (s.core.barHome v.p b) fun p => { p with bars := p.bars.set b ((barrierOf s v b).arrive (barKey v.p v.g b) v.x.split act thenWait) }

end Sys2Proof.Claims

/-- R116 to R119: arriving records the op's lanes in the group's share; a wait with a share that has arrived, a sync, and a
second arrival of a lane put the split in BARRIER; a wait after the phase has ended goes on, with an acquire at the
barrier's scope where that is wider than a hearth (put in flight as a fence: the model's choice, log entry 94). Retiring groups: log entry 44. -/
def Obligations.BarrierOps : Prop :=
  ∀ (s : State) (v : View) (f : CFields) (act : LaneMask), AtIssue s v .c f.hdr act → v.x.split < 4 → f.aux.toNat < 16 →
    CForm f 2 true false false false →
    let b := f.aux.toNat
    let a := myShare s v b
    let waits := fun c => carriesOn s (waitsIn s v c .barrier (BitVec.ofNat 32 b))
    let scope := barScope v.p b
    let acquires := if scope < 3 then .next s else carriesOn s (s.core.startAccess
      { v.x.access .fence s.cycle (BitVec.twoPow 128 0) with ord := 1, scope := scope, func := 1, addrs := [0] })
    (act &&& a.lanes = 0 → exec (.barArr f) s = carriesOn s (arrived s v b act false)) ∧
    (act &&& a.lanes ≠ 0 → exec (.barArr f) s = waits (arrived s v b act false)) ∧
    exec (.barSyn f) s = waits (arrived s v b act true) ∧
    (a.lanes = 0 → a.last ≠ none → exec (.barWt f) s = acquires) ∧
    (a.lanes ≠ 0 ∨ a.last = none → exec (.barWt f) s = waits s.core)

namespace Sys2Proof.Claims

/-- The tags a wait.t names (R120). -/
def waitTags (f : CFields) : List Nat := [f.aux.toNat % 16, f.aux.toNat / 16, f.sb.toNat].take f.func.toNat

/-- The form of wait.t (R120). -/
def WaitForm (f : CFields) : Prop :=
  CForm f 2 true true true false ∧ 1 ≤ f.func.toNat ∧ f.func.toNat ≤ 3 ∧ (f.func.toNat < 2 → f.aux.toNat < 16) ∧
  (f.func.toNat < 3 → f.sb = 0) ∧ f.sb.toNat < 16

end Sys2Proof.Claims

/-- R120 to R123: a wait for complete tags goes on, for open tags it is a long wait, for a failed one it takes the
failure; wmon arms its line and waits; yld gives up its turn; spawn puts its record's read in flight, or traps where the
record shows at issue that its queue or its world does not fit (when that is checked is the model's choice, log entry 104). A wait that fails: log entry 46. -/
def Obligations.WaitOps : Prop :=
  ∀ (s : State) (v : View) (f : CFields) (act : LaneMask), AtIssue s v .c f.hdr act → v.x.split < 4 →
    (WaitForm f → (∀ n ∈ waitTags f, (v.g.tag n).failed = none) →
      ((∀ n ∈ waitTags f, (v.g.tag n).count = 0) → exec (.waitT f) s = .next s) ∧
      ((∃ n ∈ waitTags f, (v.g.tag n).count ≠ 0) → exec (.waitT f) s = carriesOn s (waitsIn s v s.core .longwait
        (BitVec.ofNat 32 (1 + 65536 * ((waitTags f).foldl (fun m n => m ||| 2 ^ n) 0)))))) ∧
    (∀ n code off va, WaitForm f → (waitTags f).head? = some n → (v.g.tag n).failed = some (code, off, va) →
      exec (.waitT f) s = carriesOn s (takeTrap
        { s with core := s.core.putGroup { v.g with tags := v.g.tags.modify n fun t => { t with failed := none } } }
        { code := code, mask := act, info0 := n, info1 := off, info2 := va.toNat, info3 := 0 } 4)) ∧
    (let a := v.scalar f.sa.toNat
     CForm f 2 false false true true → isSA f.sa.toNat = true → isSA f.sb.toNat = true → a.toNat < 2 ^ 57 →
     s.core.monitors v.x.h < 32 →
      exec (.wmon f) s = carriesOn s (waitsIn s v (s.core.startAccess { v.x.access .wmon s.cycle act with
        addrs := [a], vals := [(v.scalar f.sb.toNat).toNat % 2 ^ 32], todo := 1 }) .longwait 2)) ∧
    (CForm f 2 false false false false →
      exec (.yld f) s = carriesOn s (s.core.modSplit v.x.h v.x.slot v.x.split fun e =>
        { e with age := 0, noIssue := some (s.cycle + 1) })) ∧
    (let a := v.scalar f.sa.toNat
     CForm f 2 false false false true → isSA f.sa.toNat = true → a.toNat % 128 = 0 → a.toNat < 2 ^ 57 →
      (v.spawnTrap act a = none →
        exec (.spawn f) s = carriesOn s (s.core.startAccess { v.x.access .spawn s.cycle act with addrs := [a], todo := 1 })) ∧
      (∀ t, v.spawnTrap act a = some t → exec (.spawn f) s = carriesOn s (takeTrap s t 0)))

namespace Sys2Proof.Claims

/-! ### Traps and the team handler (R66, R80, R91, R286 to R295, R305) -/

/-- A group after a step. -/
def GroupThen (a : Answer) (h slot : Nat) (P : Group → Prop) : Prop :=
  ∃ s' : State, a = .next s' ∧ ∃ g', s'.core.group? h slot = some g' ∧ P g'

/-- A part after a step. -/
def PartThen (a : Answer) (id : Nat) (P : Part → Prop) : Prop :=
  ∃ s' : State, a = .next s' ∧ ∃ p', s'.core.part? id = some p' ∧ P p'

/-- The launch of a part has this status after a step (R317). -/
def LaunchThen (a : Answer) (id : Nat) (P : Launch → Prop) : Prop :=
  ∃ s' : State, a = .next s' ∧ ∃ l', s'.lch.launch? id = some l' ∧ P l'

/-- The part under its number. -/
def HasPart (s : State) (p : Part) : Prop := s.core.part? p.id = some p

/-- A group of a part, with its four split entries. -/
def HasGroup (s : State) (p : Part) (slot : Nat) (g : Group) : Prop :=
  s.core.group? p.h slot = some g ∧ g.part = p.id ∧ g.splits.length = 4

/-- The run of a part's handler ends with this action over a split that stands still, with no later trap held for it and
in no sequencer run; the selection shows no stop (R288, R293). -/
structure RunEnds (s : State) (action : Nat) (p : Part) (r : HandlerRun) (g : Group) : Prop where
  due : s.tretDue action = some (p, r)
  part : HasPart s p
  group : HasGroup s p r.slot g
  split : r.split < 4
  still : (g.split r.split).state = .parked ∨ (g.split r.split).state = .trapped
  held : (g.split r.split).held = []
  run : (g.split r.split).seqRun = none
  code : r.code ≠ trapDebugStop

/-- The bank of the selected split after the run (R289). -/
def bankAfter (r : HandlerRun) (g : Group) : List W64 := if r.sbank then r.bank else (g.split r.split).bank

/-- The selected split goes on at an offset. -/
def Resumes (s : State) (p : Part) (r : HandlerRun) (g : Group) (off : Nat) (g' : Group) : Prop :=
  (g'.split r.split).state = .ready ∧ (g'.split r.split).offset = off ∧ (g'.split r.split).bank = bankAfter r g ∧
  (g'.split r.split).waitstart = s.cycle + 1 ∧ p.id = g'.part

end Sys2Proof.Claims

/-- R286 to R288, TAKING AN EXCEPTION: a trap at issue leaves its split TRAPPED at the record, with the code in WAITARG,
and puts its event (code, origin, offset, lanes, details, cycle) at the end of the team's; the bundle stands no more. A
split that is TRAPPED already holds the event behind the one it has. Which of several traps is taken is the model's choice where the spec is silent (log entries 14 and 17). -/
def Sys2Proof.Claims.TrapTaken : Prop :=
  ∀ (s : State) (v : View) (t : TrapInfo) (origin : Nat), view s = some v → Issuing v → v.p.halt = 0 → origin ≤ 1 →
    let e := v.g.split v.x.split
    let ev := t.event v.x origin s.cycle
    (e.state ≠ .trapped →
      GroupThen (carriesOn s (takeTrap s t origin)) v.x.h v.x.slot (fun g' =>
        (g'.split v.x.split).state = .trapped ∧ (g'.split v.x.split).waitarg = BitVec.ofNat 32 t.code ∧
        (g'.split v.x.split).offset = (if origin = 0 then v.x.off else e.offset) ∧
        (g'.split v.x.split).mask = e.mask ∧ g'.v = v.g.v ∧ g'.k = v.g.k ∧ g'.a = v.g.a ∧ g'.sh = v.g.sh) ∧
      PartThen (carriesOn s (takeTrap s t origin)) v.p.id (fun p' => p'.events = v.p.events ++ [ev]) ∧
      (takeTrap s t origin).ctx.voided = (if origin = 0 then true else v.x.voided)) ∧
    (e.state = .trapped →
      GroupThen (carriesOn s (takeTrap s t origin)) v.x.h v.x.slot fun g' => (g'.split v.x.split).held = e.held ++ [ev])

/-- R91, R80, R66: an unlisted opcode traps RESERVED_FIELD with the op's mask, a refused entry ILLEGAL_ENTRY with its index
and reason, and a fetch that met a fault traps as it says, both with the whole split. -/
def Sys2Proof.Claims.RecordTraps : Prop :=
  ∀ (s : State),
    (∀ v sl w act, AtIssue s v sl (readHdr w) act →
      exec (.reservedOpcode sl w) s =
        carriesOn s (takeTrap s (v.reserved (placeOf sl) act 0) (if sl = .t then 1 else 0))) ∧
    (s.core.ctx.reason ≠ 0 → exec .refusedEntryIssue s = carriesOn s (takeTrap s
      (trapOf trapIllegalEntry s.core.ctx.smask (s.core.ctx.idx + s.core.ctx.reason * 2 ^ 20) 0) 0)) ∧
    (s.core.ctx.fetch.1 ≠ 0 → exec .streamFetchFault s = carriesOn s (takeTrap s
      (trapOf s.core.ctx.fetch.1 s.core.ctx.smask s.core.ctx.fetch.2.1 s.core.ctx.fetch.2.2) 0))

/-- R66, R80, R91, R286 to R288: A trap at issue leaves its split TRAPPED at the record, with the code in WAITARG, and
puts its event (code, origin, offset, lanes, details, cycle) at the end of the team's; the bundle stands no more. A
split that is TRAPPED already holds the event behind the one it has. Which of several traps is taken is the model's
choice where the spec is silent (log entries 14 and 17). An unlisted opcode traps RESERVED_FIELD with the op's mask, a
refused entry ILLEGAL_ENTRY with its index and reason, and a fetch that met a fault traps as it says, both with the
whole split. -/
def Obligations.TrapsTaken : Prop := Claims.TrapTaken ∧ Claims.RecordTraps

/-- R293, R294: what each action of %TRAP_CAUSE does to the selected split when the handler's run ends: REPLAY goes on at
%TRAP_PC under %TRAP_MASK, SKIP behind it, GOTO at it (BAD_TARGET when it is no landing), EXIT ends the lanes of %TRAP_MASK,
PARK leaves it PARKED, END ends the team with STATUS 6. The actions on corners that the spec leaves open are log entries 58 to 60. -/
def Obligations.HandlerActions : Prop :=
  ∀ (s : State) (p : Part) (r : HandlerRun) (g : Group),
    (RunEnds s 0 p r g →
      GroupThen (exec .tretReplay s) p.h r.slot (fun g' => Resumes s p r g r.offsetOf g' ∧ (g'.split r.split).rmask = r.mask) ∧
      PartThen (exec .tretReplay s) p.id fun p' => p'.handler = none) ∧
    (RunEnds s 1 p r g →
      GroupThen (exec .tretSkip s) p.h r.slot (Resumes s p r g (s.afterPc p r.offsetOf)) ∧
      PartThen (exec .tretSkip s) p.id fun p' => p'.handler = none) ∧
    (RunEnds s 2 p r g →
      (s.landing p r.offsetOf = true → GroupThen (exec .tretGoto s) p.h r.slot (Resumes s p r g r.offsetOf)) ∧
      (s.landing p r.offsetOf = false → GroupThen (exec .tretGoto s) p.h r.slot fun g' =>
        (g'.split r.split).state = .trapped ∧ (g'.split r.split).waitarg = BitVec.ofNat 32 trapBadTarget ∧
        (g'.split r.split).offset = r.offsetOf)) ∧
    (RunEnds s 3 p r g → (g.split r.split).mask &&& ~~~r.mask ≠ 0 →
      GroupThen (exec .tretExit s) p.h r.slot fun g' => Resumes s p r g (s.afterPc p r.offsetOf) g' ∧
        (g'.split r.split).mask = (g.split r.split).mask &&& ~~~r.mask) ∧
    (RunEnds s 4 p r g → GroupThen (exec .tretPark s) p.h r.slot fun g' =>
        (g'.split r.split).state = .parked ∧ (g'.split r.split).bank = bankAfter r g) ∧
    (∀ l, s.tretDue 5 = some (p, r) → s.lch.launch? p.launch = some l → l.status = none →
      LaunchThen (exec .tretEnd s) p.launch fun l' => l'.status = some (6, r.code, 0, p.team, r.offsetOf))

/-- R288, R291, R292, R295, R305: the handler starts with the oldest event in its trap registers; a team without a handler
ends with STATUS 7, and so does one whose handler traps; a debug stop parks the whole group, and its split takes the event, or
the debugger does. The event that a selection leaves unserved is log entries 19 and 78. -/
def Obligations.HandlerStarts : Prop :=
  ∀ (s : State) (p : Part) (e : TrapEv) (g : Group),
    (s.handlerDue = some (p, e) → HasPart s p → HasGroup s p e.slot g → e.split < 4 → p.handlerOff ≠ 0xFFFFFFFF →
      p.eventFor e.slot e.split [] = some e →
      PartThen (exec .handlerStart s) p.id fun p' => p'.events = p.events.filter (fun x => !(x == e)) ∧
        ∃ r, p'.handler = some r ∧ r.offset = p.handlerOff ∧ r.slot = e.slot ∧ r.split = e.split ∧ r.code = e.code ∧
          r.origin = e.origin ∧ r.pc = BitVec.ofNat 64 e.pc ∧ r.mask = e.mask ∧
          r.info = [e.info0, e.info1, e.info2, e.info3] ∧ r.bank = (g.split e.split).bank ∧ r.ready = s.cycle + 1) ∧
    (∀ l, s.handlerDue = some (p, e) → s.lch.launch? p.launch = some l → l.status = none →
      (e.split < 4 → p.handlerOff = 0xFFFFFFFF →
        LaunchThen (exec .handlerStart s) p.launch fun l' => l'.status = some (7, e.code, 0, p.team, e.pc)) ∧
      (∀ r, e.split = 4 → p.handler = some r →
        LaunchThen (exec .handlerStart s) p.launch fun l' => l'.status = some (7, r.code, e.code, p.team, r.offsetOf))) ∧
    (s.stopDue = some (p, e) → HasPart s p → HasGroup s p e.slot g → e.split < 4 → e.mask ≠ 0 →
      (g.split e.split).state ≠ .free → (g.split e.split).state ≠ .trapped →
      let parks := fun (g' : Group) => ∀ n, n < 4 →
        (g.split n).state = .ready ∨ (g.split n).state = .held ∨ (g.split n).state = .ember →
        (bitNat p.flags 3 = true ∨ n ≠ e.split) → (g'.split n).state = .parked ∧ (g'.split n).stopped = true
      GroupThen (exec .debugStop s) p.h e.slot parks ∧
      (bitNat p.flags 3 = true → PartThen (exec .debugStop s) p.id fun p' => p'.stopAt = some e) ∧
      (bitNat p.flags 3 = false →
        GroupThen (exec .debugStop s) p.h e.slot (fun g' => (g'.split e.split).state = .trapped) ∧
        PartThen (exec .debugStop s) p.id fun p' => p'.events = p.events ++ [e]))

namespace Sys2Proof.Claims

/-! ### Results on their way (R20 to R24, R115, R174, R200, R205 to R207, R272, R280, R296, R297) -/

/-- The group named by hearth and slot stands. -/
def Stands (s : State) (h slot : Nat) (g : Group) : Prop := s.core.group? h slot = some g

/-- What a register write leaves of a group: its one register is as the rule says, and every other register is unchanged
(R17, R20). `split` issued the op. -/
def Written (g g' : Group) (split : Nat) : RegWrite → Prop
  | .lanes n m x => g'.v.length = g.v.length ∧ (∀ k, k ≠ n → g'.v[k]? = g.v[k]?) ∧
      g'.v[n]? = (g.v[n]?).map (fun old => Vec.merge m old x) ∧ g'.k = g.k ∧ g'.sh = g.sh ∧ g'.a = g.a ∧ g'.splits = g.splits
  | .pred n m x => g'.v = g.v ∧ g'.sh = g.sh ∧ g'.a = g.a ∧ g'.splits = g.splits ∧ (∀ k, k ≠ n → g'.k[k]? = g.k[k]?) ∧
      g'.k[n]? = if n = 0 then g.k[n]? else (g.k[n]?).map fun old => (old &&& ~~~m) ||| (x &&& m)
  | .scalar (.s n) x => g'.v = g.v ∧ g'.k = g.k ∧ g'.a = g.a ∧
      (16 ≤ n → g'.sh = g.sh.set (n - 16) x ∧ g'.splits = g.splits) ∧
      (n < 16 → split < 4 → g'.sh = g.sh ∧ (g'.splits[split]?).map (fun e => e.bank) = (g.splits[split]?).map fun e => e.bank.set n x)
  | .scalar (.a n) x => g'.v = g.v ∧ g'.k = g.k ∧ g'.sh = g.sh ∧ g'.splits = g.splits ∧ g'.a = g.a.set n x
  | _ => True

/-- The pending bits of a group without those of a result's destinations; s0 to s15 are each split's own (R24). -/
def pendingBut (g : Group) (split : Nat) (dst : List Reg) : List (Reg × Nat × Nat) :=
  g.pend.filter fun e => !(dst.contains e.1 && match e.1 with | .s k => decide (16 ≤ k) || e.2.1 == split | _ => true)

/-- The flags of a landing result (R48). -/
def flagsOf (l : Landing) : BitVec 5 := l.fflags.foldl (· ||| ·) 0

/-- A member of the accesses in flight after a step. -/
def AccessThen (a : Answer) (id : Nat) (P : Access → Prop) : Prop :=
  ∃ s' : State, a = .next s' ∧ ∃ x ∈ s'.core.accs, x.id = id ∧ P x

/-- The one lane that an access still has to do, or to walk again (R296, R297): the L1 has accepted its request, no sample
follows it, and no discarded run has done it. -/
def LaneGoes (s : State) (g : Group) (p : Part) (a : Access) (n : Nat) (again : Bool) : Prop :=
  n < 128 ∧ a.ord = 0 ∧ a.remote = 0 ∧ Stands s a.h a.slot g ∧ HasPart s p ∧ g.part = p.id ∧
  (a.addrs.getD n 0).toNat / 128 ∈ a.accepted ∧ (∀ m ∈ s.core.samples, m.acc ≠ a.id) ∧ a.done.has n = false ∧ a.lost.has n = false ∧
  (again = false → s.nextAccess = some a ∧ a.todo = BitVec.twoPow 128 n ∧ a.faulted = 0) ∧
  (again = true → s.core.accs.find? (fun a => !a.replay.isEmpty) = some a ∧ a.todo = 0 ∧
    a.faulted = BitVec.twoPow 128 n ∧ a.inPages g p a.replay = BitVec.twoPow 128 n)

/-- The step that carries it out. -/
def goesBy (again : Bool) : Instr := if again then .loggedReplay else .walkComplete

end Sys2Proof.Claims

/-- R20, R24, R48: a fixed-latency result of one register lands when it is due: the register takes it, its lanes outside the
mask and every other register of the group are unchanged, k0 discards it, and the flags are ORed in; a late result lands
the same way and clears the pending bits of its destinations, whichever op set them; so does a row that acc.mv has read. -/
def Obligations.ResultsLand : Prop :=
  ∀ (s : State) (g : Group),
    (∀ l w, s.landDue = some l → Stands s l.h l.slot g → l.writes = [w] → (∀ n x, w ≠ .csr n x) →
      GroupThen (exec .resultWriteback s) l.h l.slot (fun g' =>
        Written g g' l.split w ∧ g'.fflags = g.fflags ||| flagsOf l ∧ g'.isat = (g.isat || l.isat != 0)) ∧
      ∃ s', exec .resultWriteback s = .next s' ∧ s'.core.land = s.core.land.erase l ∧ s'.mem = s.mem) ∧
    (∀ a w, s.lateDue = some a → a.kind ≠ .flueWait → Stands s a.h a.slot g → a.writes = [w] → (∀ n x, w ≠ .csr n x) →
      GroupThen (exec .variableLatencyResult s) a.h a.slot (fun g' =>
        Written g g' a.split w ∧ g'.pend = pendingBut g a.split a.dst) ∧
      ∃ s', exec .variableLatencyResult s = .next s' ∧ s'.core.accs = s.core.accs.filter (fun x => x.id != a.id) ∧
        s'.mem = s.mem) ∧
    (∀ l n m x, s.moveDue = some l → Stands s l.h l.slot g → l.writes = [.lanes n m x] →
      GroupThen (exec .variableLatencyResult s) l.h l.slot (fun g' =>
        Written g g' l.split (.lanes n m x) ∧ g'.pend = pendingBut g l.split [.v n]) ∧
      ∃ s', exec .variableLatencyResult s = .next s' ∧ s'.core.land = s.core.land.erase l ∧ s'.mem = s.mem)

/-- R296, R297, R279, R272, R280, R174, R115: the lane of an access that can go on, or whose page was answered, is
translated: a global store is held with its bytes, an absent page is reported and the lane waits in the operand log, a meadow
load whose bank is outside its refresh window takes its bytes and lands in the next cycle; a release whose push the homes have confirmed goes on; a direct load counts
its arrival at its barrier; a tile whose shadow is complete is free again. -/
def Obligations.AccessesGoOn : Prop :=
  ∀ (s : State) (g : Group) (p : Part),
    (∀ a n again, LaneGoes s g p a n again → (a.kind = .ldG ∨ a.kind = .stG) → canonical (a.addrs.getD n 0) = true →
      let va := a.addrs.getD n 0
      let at' := s.translate (stoveOf a.h) p.world va.toNat a.kind.need
      (∀ t l leaf, a.kind = .stG → a.dst = [] → at' = .ok t l leaf → l.tgt ≠ 3 →
        GroupThen (exec (goesBy again) s) a.h a.slot (fun g' => g'.gated = g.gated ++
          [{ seq := a.seq, split := a.split, world := p.world, va := va, tgt := l.tgt, dev := l.dev, pa := l.pa,
             nc := leafNC leaf, bytes := natLe (widthBytes a.width) (a.vals.getD n 0) }]) ∧
        ∃ s', exec (goesBy again) s = .next s' ∧ ∀ x ∈ s'.core.accs, x.id ≠ a.id) ∧
      (∀ kind level, at' = .fault kind level → (∀ r ∈ s.cch.faultq, r.id ≠ a.id) →
        AccessThen (exec (goesBy again) s) a.id (fun x => x.faulted = BitVec.twoPow 128 n ∧ x.todo = 0) ∧
        ∃ s', exec (goesBy again) s = .next s' ∧ s'.cch.faultq = s.cch.faultq ++
          [{ id := a.id, va := va, world := p.world, kind := kind, acc := a.kind.cls, level := level }])) ∧
    (∀ a n, s.windowDue = some a → Stands s a.h a.slot g → HasPart s p → g.part = p.id → n < 128 → a.ord = 0 → a.remote = 0 →
      a.faulted = 0 → a.todo = BitVec.twoPow 128 n → a.got = [] → n < a.addrs.length → a.dst ≠ [] →
      a.done.has n = false → a.lost.has n = false →
      let off := (a.addrs.getD n 0).toNat
      meadowBusy (dieOf a.h) s.cycle off = false →
      s.lineState { tgt := 3, dev := 0, pa := dieOf a.h * 2 ^ 31 + off } a.seq p.world = .good →
      let word := leNat (s.homeRead { tgt := 3, dev := 0, pa := dieOf a.h * 2 ^ 31 + off } (widthBytes a.width))
      AccessThen (exec .meadowRefreshWindow s) a.id fun x => x.due = some (s.cycle + 1) ∧ x.todo = 0 ∧ x.got.getD n 0 = word ∧
        x.done = (a.done ||| BitVec.twoPow 128 n)) ∧
    (∀ a, s.pushDue = some a → AccessThen (exec .releasePushComplete s) a.id fun x => x.stage = 2) ∧
    (∀ a b, s.gsDue = some a → Stands s a.h a.slot g → HasPart s p → g.part = p.id → s.core.barHome p a.arg = p.id →
      p.bars[a.arg]? = some b →
      PartThen (exec .ldGsArrival s) p.id fun p' => (p'.bars[a.arg]?).map (fun x => x.arrived) = some (b.arrived + 1)) ∧
    (∀ t, s.shadowDue = some (g, t) → Stands s g.h g.slot g →
      GroupThen (exec .tileShadowDone s) g.h g.slot fun g' => g'.shadowing = g.shadowing.erase t ∧ g'.acc = g.acc)

namespace Sys2Proof.Claims

/-! ### The decode tables, the sequencer, merges and embers (R33, R72 to R86, R103, R110, R250, R251, R255) -/

/-- A hearth after a step. -/
def HearthThen (a : Answer) (h : Nat) (P : Hearth → Prop) : Prop :=
  ∃ s' : State, a = .next s' ∧ ∃ hr', s'.core.hearth? h = some hr' ∧ P hr'

/-- A partition of a hearth, alone under its number. -/
def HasPartition (hr : Hearth) (q : Partition) : Prop := q ∈ hr.partitions ∧ ∀ x ∈ hr.partitions, x.pid = q.pid → x = q

/-- The pinned entries of a partition (R72). -/
def pinnedCount (q : Partition) : Nat := if q.size < 4 then 0 else Nat.min 128 q.dictCount

/-- Floor embers that a hearth is due in this cycle (R250). -/
def floorNow (s : State) (h : Nat) : Nat := if s.cycle % 129 = h % 128 then floorOf (s.cycle / 129) (h % 128) else 0

end Sys2Proof.Claims

/-- R74, R77, R72, R86: a refill that the stoker has read installs its entry, valid and with its word and metadata, and is no
longer in flight; a preload that has read every pinned entry is over; a price-table update leaves no unpinned entry valid. -/
def Sys2Proof.Claims.DecodeTables : Prop :=
  ∀ (s : State) (hr : Hearth) (q : Partition),
    (∀ h r p t w m, s.refillDue = some (h, q, r) → s.core.hearth? h = some hr → HasPartition hr q → r.1 < q.entries.length →
      s.core.partOf h q.pid = some p → s.loadEntry h p r.2.1 = .got t w m →
      HearthThen (exec .stokerRefill s) h fun hr' => ∃ q' ∈ hr'.partitions, q'.pid = q.pid ∧ q'.refills = q.refills.erase r ∧
        ∃ e, q'.entries[r.1]? = some e ∧ e.tag = some r.2.1 ∧ e.valid = true ∧ e.busy = false ∧ e.word = w ∧ e.data = m) ∧
    (∀ h p t, s.preloadDue = some (h, q) → s.core.hearth? h = some hr → HasPartition hr q →
      s.core.partOf h q.pid = some p → s.preloadFrom h p (pinnedCount q) 0 = .inr t →
      HearthThen (exec .partitionPreload s) h fun hr' => ∃ q' ∈ hr'.partitions, q'.pid = q.pid ∧ q'.preloaded = true ∧
        q'.refills = []) ∧
    (∀ h, s.rebuildDue = some h → s.core.hearth? h = some hr →
      HearthThen (exec .decodeTableRebuild s) h fun hr' => hr'.partitions.length = hr.partitions.length ∧
        (∀ x ∈ hr'.partitions, ∀ e ∈ x.entries, e.pinned = false → e.valid = false ∧ e.tag = none) ∧
        ((∀ x ∈ hr.partitions, ∀ e ∈ x.entries, e.pinned = false) → hr'.rebuild = 0))

/-- R110, R111, R103, R255, R250, R251: the sequencer picks the records of its body cycle whose iterations are live, each with
its iteration and rotation, or the one record that REPLAY has put before them (log entry 108); two splits that stand together become one with the lanes of both; the longest-waiting split in
EMBER takes the claim; every hearth with a resident group takes bulk up to its share and then its floor embers, within the
pool's size, and one without gives its pool back. Latencies, replacement shares and wakes are the model's choice where the spec leaves them open (log entries 9, 12 and 45). -/
def Sys2Proof.Claims.IssueAndEmbers : Prop :=
  ∀ (s : State),
    (∀ v hr r, view s = some v → s.core.hearth? v.x.h = some hr → v.x.split < 4 → (v.g.split v.x.split).seqRun = some r →
      (∀ off i, (v.g.split v.x.split).replay = some (off, some i) → exec .sequencerIssue s = .next { s with
        work := .bundle v.x.h v.x.slot v.x.split [issuedAt hr v.p off (some i) ((r.vrotStart + 16 - i % 16) % 16)] :: s.work }) ∧
      ((v.g.split v.x.split).replay = none → ∃ recs, exec .sequencerIssue s = .next { s with work := .bundle v.x.h v.x.slot v.x.split recs :: s.work } ∧
        (∀ k b, k < r.stages → k ≤ r.t / r.ii → r.t / r.ii - k < r.trip → r.body[r.t % r.ii + k * r.ii]? = some b →
          issuedAt hr v.p b.1 (some (r.t / r.ii - k)) ((r.vrotStart + 16 - (r.t / r.ii - k) % 16) % 16) ∈ recs) ∧
        ∀ x ∈ recs, ∃ k, k < r.stages ∧ k ≤ r.t / r.ii ∧ r.t / r.ii - k < r.trip ∧ x.iter = some (r.t / r.ii - k))) ∧
    (∀ g a b, s.mergeDue = some (g, a, b) → Stands s g.h g.slot g → g.splits.length = 4 →
      GroupThen (exec .splitMerge s) g.h g.slot fun g' =>
        (g'.split a).mask = ((g.split a).mask ||| (g.split b).mask) ∧ (g'.split a).offset = (g.split a).offset ∧
        (g'.split a).ids = (g.split a).ids ∧ (g'.split a).bank = (g.split a).bank ∧
        (g'.split a).age = Nat.max (g.split a).age (g.split b).age ∧ (g'.split b).state = .free ∧
        ∀ n, n < 4 → n ≠ a → n ≠ b → g'.split n = g.split n) ∧
    (∀ h slot split hr, s.claimDue = some (h, slot, split) → s.core.hearth? h = some hr →
      HearthThen (exec .claimPlace s) h fun hr' => hr'.claim = some (slot, split)) ∧
    (s.pow.taken ≤ s.cycle → s.core.hearths.length = 512 → s.pow.dies.length = 4 → ∀ h hr, h < 512 →
      s.core.hearth? h = some hr → hr.h = h →
      let passing := (s.dieAt (h / 128)).ring.getD (h % 128) 0
      let bulk := Nat.min passing (Nat.min hr.share (Config.poolCap - hr.pool))
      HearthThen (exec .emberRingTake s) h fun hr' =>
        ((∃ p ∈ s.core.parts, p.h = h) →
          hr'.pool = hr.pool + bulk + Nat.min (floorNow s h) (Config.poolCap - (hr.pool + bulk))) ∧
        ((∀ p ∈ s.core.parts, p.h ≠ h) → hr'.pool = 0))

/-- R72, R74, R77, R86, R103, R110, R111, R250, R251, R255: A refill that the stoker has read installs its entry, valid
and with its word and metadata, and is no longer in flight; a preload that has read every pinned entry is over; a
price-table update leaves no unpinned entry valid. The sequencer picks the records of its body cycle whose iterations
are live, each with its iteration and rotation, or the one record that REPLAY has put before them (log entry 108); two
splits that stand together become one with the lanes of both; the longest-waiting split in EMBER takes the claim;
every hearth with a resident group takes bulk up to its share and then its floor embers, within the pool's size, and
one without gives its pool back. Latencies, replacement shares and wakes are the model's choice where the spec leaves
them open (log entries 9, 12 and 45). -/
def Obligations.IssueMachinery : Prop := Claims.DecodeTables ∧ Claims.IssueAndEmbers

namespace Sys2Proof.Claims

/-! ### The engines at work (R188 to R193, R198 to R207, R216 to R231, R311) -/

/-- A queued A op after a step. -/
def EngineThen (a : Answer) (id : Nat) (P : EngOp → Prop) : Prop :=
  ∃ s' : State, a = .next s' ∧ ∃ x ∈ s'.core.engs, x.id = id ∧ P x

/-- The op has left the queue, and its tag counts one op less (R189, R191). -/
def EngineEnds (a : Answer) (e : EngOp) (g : Group) (failed : Option (Nat × Nat × W64)) : Prop :=
  (∃ s', a = .next s' ∧ ∀ x ∈ s'.core.engs, x.id ≠ e.id) ∧
  GroupThen a e.h e.slot fun g' => (g'.tag e.otag).count = (g.tag e.otag).count - 1 ∧ (g'.tag e.otag).failed = failed

/-- A flue of an op's group after a step (R17, R199). -/
def FlueThen (a : Answer) (e : EngOp) (n : Nat) (q : Flue) : Prop := GroupThen a e.h e.slot fun g' => g'.flue? n = some q

/-- The meadow's line can be read now: its data passes its checks, and its bank is not being refreshed (R191, R272). -/
def MeadowOpen (s : State) (e : EngOp) (off : Nat) : Prop :=
  meadowBusy (dieOf e.h) s.cycle off = false ∧ s.lineState { tgt := 3, dev := 0, pa := dieOf e.h * 2 ^ 31 + off } e.seq 0 = .good

/-- A T op after a step. -/
def MatThen (a : Answer) (id : Nat) (P : MatOp → Prop) : Prop :=
  ∃ s' : State, a = .next s' ∧ ∃ x ∈ s'.core.mats, x.id = id ∧ P x

/-- The T op has left its queue, and its tile is this one (R206). -/
def TileThen (a : Answer) (m : MatOp) (g : Group) (t : Tile) : Prop :=
  (∃ s', a = .next s' ∧ ∀ x ∈ s'.core.mats, x.id ≠ m.id) ∧
  GroupThen a m.h m.slot fun g' => g'.acc = g.acc.set m.acc t ∧ g'.v = g.v ∧ g'.k = g.k

end Sys2Proof.Claims

/-- R190, R189, R191, R193, R200, R201, R272: the first op that may start is taken by its engine, an advance moving its count at once;
an op that is done leaves, its tag counting one less; one that failed marks its tag with the first failure; a copy from the
meadow leaves the meadow's bytes in the scratchpad. -/
def Sys2Proof.Claims.EngineOpsRun : Prop :=
  ∀ (s : State) (e : EngOp) (g : Group) (p : Part), Stands s e.h e.slot g → HasPart s p → g.part = p.id →
    e.otag < g.tags.length →
    (s.engStart? = some e →
      EngineThen (exec .aOpStart s) e.id (fun x => x.started = true ∧ s.cycle ≤ x.due) ∧
      (∀ q, g.flue? (e.func % 8) = some q →
        (e.kind = .qAdvp → FlueThen (exec .aOpStart s) e (e.func % 8) { q with p := countAdd q.p e.o0.toNat }) ∧
        (e.kind = .qAdvc → FlueThen (exec .aOpStart s) e (e.func % 8) { q with c := countAdd q.c e.o0.toNat })) ∧
      (∀ q, g.flue? 7 = some q → e.kind = .sqDrp →
        FlueThen (exec .aOpStart s) e 7 { q with c := countAdd q.c e.o0.toNat })) ∧
    (s.engDue? = some e →
      (∀ code va, e.failed = some (code, va) →
        EngineEnds (exec .aOpComplete s) e g (match (g.tag e.otag).failed with | some x => some x | none => some (code, e.off, va))) ∧
      (e.failed = none → e.kind = .qAdvp ∨ e.kind = .qAdvc ∨ e.kind = .sqDrp →
        EngineEnds (exec .aOpComplete s) e g (g.tag e.otag).failed) ∧
      (e.failed = none → e.kind = .cpMs → e.done = 0 → e.late = [] → cellsWf p.scratch = true →
        let n := e.o2.toNat
        let src := e.o1.toNat
        let dst := e.o0.toNat
        0 < n → n ≤ 128 - src % 128 → n ≤ 128 - dst % 128 → MeadowOpen s e src →
        EngineEnds (exec .aOpComplete s) e g (g.tag e.otag).failed ∧
        PartThen (exec .aOpComplete s) p.id fun p' => ∀ i, i < n →
          p'.padRead 0 (dst + i) 1 = s.homeRead { tgt := 3, dev := 0, pa := dieOf e.h * 2 ^ 31 + src + i } 1))

/-- R205, R206, R217, R224, R226, R229: a T op that can step does, a further step drawing its price; when its last step is
done it leaves its queue with its tile zeroed, loaded, added or multiplied; the 16 ops of a stove instance take their first
step together, or all fail when they do not agree. -/
def Sys2Proof.Claims.MatrixOpsRun : Prop :=
  ∀ (s : State),
    (∀ m hr, s.phase ≤ 1 → s.matStep? = some m → s.core.hearth? m.h = some hr →
      MatThen (exec .matrixStep s) m.id (fun x => x.left = m.left - 1 ∧ x.running = true ∧ x.ready = s.cycle + 1) ∧
      HearthThen (exec .matrixStep s) m.h fun hr' => hr'.pool = if m.left = m.steps then hr.pool else hr.pool - m.price) ∧
    (∀ m g p, 1 < s.phase → s.matEnd? = some m → Stands s m.h m.slot g → HasPart s p → g.part = p.id → m.failed = none →
      (m.kind = .accZ → TileThen (exec .matrixStep s) m g zeroTile) ∧
      (m.kind = .accLd → TileThen (exec .matrixStep s) m g (loadTile m.a p)) ∧
      (m.kind = .accAdd → TileThen (exec .matrixStep s) m g
        (addTiles (bitNat m.arg2 0) m.sat (g.tileAt m.acc) (g.tileAt (m.arg % 4))).1) ∧
      (∀ t, m.kind = .mma ∨ m.kind = .mmaQ ∨ m.kind = .mmaSp → (m.single g p (g.tileAt m.acc) (s.matIndex m)).fail = none →
        (m.single g p (g.tileAt m.acc) (s.matIndex m)).tile = some t → TileThen (exec .matrixStep s) m g t)) ∧
    (∀ l, s.stStart? = some l →
      (stAgree l = true → ∀ e ∈ l, MatThen (exec .mmaStInstanceStart s) e.2.id fun x =>
        x.left = e.2.steps - 1 ∧ x.running = true ∧ x.failed = none) ∧
      (stAgree l = false → ∀ e ∈ l, MatThen (exec .mmaStInstanceStart s) e.2.id fun x => x.left = 0 ∧ x.failed.isSome = true))

/-- R189 to R191, R193, R200, R201, R205, R206, R217, R224, R226, R229, R272: The first op that may start is taken by its
engine, an advance moving its count at once; an op that is done leaves, its tag counting one less; one that failed
marks its tag with the first failure; a copy from the meadow leaves the meadow's bytes in the scratchpad. A T op that
can step does, a further step drawing its price; when its last step is done it leaves its queue with its tile zeroed,
loaded, added or multiplied; the 16 ops of a stove instance take their first step together, or all fail when they do
not agree. -/
def Obligations.EnginesRun : Prop := Claims.EngineOpsRun ∧ Claims.MatrixOpsRun

namespace Sys2Proof.Claims

/-! ### Checkpoints, rollback and errors (R300 to R304, R383 to R393) -/

/-- One record of this severity has been filed: the number stepped and the severity's count rose (R389, R408). -/
def FiledOne (s s' : State) (sev : Nat) : Prop :=
  s'.svc.seq = (s.svc.seq + 1) % 2 ^ 32 ∧ s'.svc.bySev = s.svc.bySev.modify sev (· + 1)

/-- The step answers a state of which this holds. -/
def Then (a : Answer) (P : State → Prop) : Prop := ∃ s', a = .next s' ∧ P s'

/-- The group is as its checkpoint saved it: nothing of its interval is held, recorded or pending (R302). -/
def RolledBack (g : Group) (n : GroupSave) (g' : Group) : Prop :=
  g'.v = n.v ∧ g'.k = n.k ∧ g'.sh = n.sh ∧ g'.a = n.a ∧ g'.fflags = n.fflags ∧ g'.isat = n.isat ∧ g'.splits = n.splits ∧
  g'.idents = n.idents ∧ g'.sides = n.sides ∧ g'.flues = n.flues ∧ g'.gated = g.gated.filter (fun e => decide (e.seq ≤ n.seq)) ∧
  g'.pend = []

/-- The one group at a slot of a hearth, and its part, the hearth's only one of its number. -/
def AloneAt (s : State) (h slot : Nat) (g : Group) (p : Part) : Prop :=
  s.core.groups.filter (fun x => x.h == h && x.slot == slot) = [g] ∧ s.core.parts.filter (fun q => q.id == g.part) = [p] ∧ p.h = h

/-- The group is as it stood when it was rolled back (R303). -/
def BackAt (x g' : Group) : Prop :=
  g'.v = x.v ∧ g'.k = x.k ∧ g'.sh = x.sh ∧ g'.a = x.a ∧ g'.acc = x.acc ∧ g'.fflags = x.fflags ∧ g'.splits = x.splits ∧ g'.tags = x.tags ∧
  g'.flues = x.flues ∧ g'.gated = x.gated

/-- A group that consumed a line in its interval (R388). -/
def consumedLine (l : Loc) (g : Group) : Bool := g.recorded.any fun r => r.2.1 == 5 && (Loc.ofLine r.2.2).line == l

end Sys2Proof.Claims

/-- R301, R279: when a checkpoint closes, the stores held up to its boundary are released and no longer held, the group's copy at
that boundary is what a rollback returns to, and the request is over. -/
def Sys2Proof.Claims.CheckpointCloses : Prop :=
  ∀ (s : State) (g : Group) (n : GroupSave) (mask b : Nat), s.closeDue = some g → Stands s g.h g.slot g → g.ckptReq = some (mask, b) →
    g.next = some n →
    GroupThen (exec .checkpointClose s) g.h g.slot fun g' =>
      g'.ckptReq = none ∧ g'.next = none ∧ g'.gated = g.gated.filter (fun e => !(decide (e.seq ≤ b))) ∧ g'.v = g.v ∧ g'.k = g.k ∧
      g'.ckpt.map (fun x => (x.v, x.k, x.sh, x.a, x.splits, x.seq)) = some (n.v, n.k, n.sh, n.a, n.splits, n.seq)

/-- R302, R303, R384, R385, R388, R387, R383, R392, R393, R390, R14, R334: what an error does to the groups and the device: a covered
compute error takes its group back to its checkpoint and puts it under rerun, an uncovered one traps CHECKPOINT_FAIL; reruns that
agree bring the group back to where it stood, and reruns that differ cost the hearth's position; an image of a line that passes its
check is what is read, and one that fails rolls back the group that consumed the line, which is fetched once more; uncorrectable
data is aborted to its readers and, when dirty, lost; a corrected error is filed, and one of the decode table refills its entry (log
entries 33, 103, 106); a spare row takes a row; each window of a predictive counter slides. Uncorrectable data: log entry 62. -/
def Sys2Proof.Claims.ErrorsHandled : Prop :=
  ∀ (s : State),
    (∀ h slot unit g p, slot < 16 → AloneAt s h slot g p →
      (s.rerunning p = false → Then (exec (.computeError h slot unit true) s) fun s' =>
        (∃ r, s'.svc.reruns = s.svc.reruns ++ [r] ∧ r.h = h ∧ r.slot = slot ∧ r.unit = unit) ∧ s'.svc.rollbacks = s.svc.rollbacks + 1) ∧
      (∀ n, s.rerunning p = false → g.ckpt = some n → GroupThen (exec (.computeError h slot unit true) s) h slot (RolledBack g n)) ∧
      (p.halt = 0 → g.splits.length = 4 → Then (exec (.computeError h slot unit false) s) fun s' => FiledOne s s' 3 ∧
        ∃ g', s'.core.group? h slot = some g' ∧ ∀ n, n < 4 → (g.split n).state ≠ .free → (g'.split n).state = .trapped)) ∧
    (∀ h slot r one, s.svc.reruns.find? (fun r => r.h == h && r.slot == slot) = some r →
      Then (exec (.rerunCompare h slot ⟨one, one⟩) s) (fun s' => s'.svc.reruns = s.svc.reruns.erase r ∧ FiledOne s s' 2) ∧
      (∀ x g p, r.saved = [x] → Stands s x.group.h x.group.slot g → s.core.part? x.group.part = some p →
        GroupThen (exec (.rerunCompare h slot ⟨one, one⟩) s) x.group.h x.group.slot (BackAt x.group)) ∧
      (∀ two g p hr, one ≠ two → Stands s h slot g → s.core.part? g.part = some p → s.core.hearth? h = some hr → hr.present = true →
        HearthThen (exec (.rerunCompare h slot ⟨one, two⟩) s) h fun hr' =>
          if s.spareFree h then hr'.pos = 16 ∧ hr'.present = true else hr'.present = false)) ∧
    (∀ line cipher md m, s.mem.wf = true → s.sec.check (Loc.ofLine line) cipher md = some m →
      Then (exec (.macCheckFail ⟨line, cipher, md⟩) s) fun s' => s'.homeRead m.loc (m.crypt cipher).length = m.crypt cipher ∧
        s'.core = s.core ∧ s'.cch = s.cch) ∧
    (∀ line cipher md g n p, s.sec.check (Loc.ofLine line) cipher md = none → s.core.groups.filter (consumedLine (Loc.ofLine line)) = [g] →
      Stands s g.h g.slot g → HasPart s p → g.part = p.id → g.ckpt = some n →
      GroupThen (exec (.macCheckFail ⟨line, cipher, md⟩) s) g.h g.slot (RolledBack g n) ∧
      Then (exec (.macCheckFail ⟨line, cipher, md⟩) s) fun s' => Loc.ofLine line ∈ s'.cch.refetch) ∧
    (∀ line, s.sec.passes (Loc.ofLine line) (s.sec.worldOf (Loc.ofLine line)) = true → Then (exec (.macRefetchDone line none) s) fun s' =>
      s'.cch.refetch = s.cch.refetch.filter (fun x => x != Loc.ofLine line) ∧ s'.cch.macBad = s.cch.macBad ∧ s'.svc = s.svc) ∧
    (∀ line cipher md, s.sec.check (Loc.ofLine line) cipher md = none →
      Then (exec (.macRefetchDone line (some (cipher, md))) s) fun s' =>
        s'.cch.macBad = s.cch.macBad ++ [(Loc.ofLine line, s.core.seq)] ∧ FiledOne s s' 3) ∧
    (∀ line dirty unit, s.cch.lost.length < 1024 → Then (exec (.uncorrectableData line dirty unit) s) fun s' =>
      Loc.ofLine line ∈ s'.cch.poison ∧ (dirty = true → Loc.ofLine line ∈ s'.cch.lost) ∧ (dirty = false → s'.cch.lost = s.cch.lost) ∧
      FiledOne s s' 3) ∧
    (∀ e, siteCounter e = none → Then (exec (.correctedError e) s) fun s' => FiledOne s s' 1 ∧ (e.unit ≠ 1 → s'.core = s.core)) ∧
    (∀ e h hr, e.unit = 1 → s.siteHearth e = some h → s.core.hearth? h = some hr →
      HearthThen (exec (.correctedError e) s) h fun hr' =>
        (e.sub = 0x21 → hr'.stream = []) ∧
        ∀ q n d idx, e.sub ≠ 0x21 → HasPartition hr q → q.base + n = e.subn → q.entries[n]? = some d → d.valid = true → d.busy = false →
          d.tag = some idx → ∃ q' ∈ hr'.partitions, q'.pid = q.pid ∧ q'.refills = q.refills ++ [(n, idx, s.cycle + 48)] ∧
            (q'.entries[n]?).map (fun d => d.valid) = some false) ∧
    (∀ e k u, siteCounter e = some (k, u) → s.svc.counters = [] → 1 ≤ (s.svc.limits k).1 → 1 ≤ (s.svc.limits k).2 →
      Then (exec (.correctedError e) s) fun s' => FiledOne s s' 1 ∧
        s'.svc.counters = [{ kind := k, unit := u, buckets := 1 :: List.replicate 23 0, advised := false, acted := false }]) ∧
    (∀ die region bank row, (s.svc.spareRows.filter fun x => x.1 == die && x.2.1 == region && x.2.2.1 == bank).length < 63 →
      Then (exec (.rowSpareSwitch die region bank row) s) fun s' =>
        s'.svc.spareRows = s.svc.spareRows ++ [(die, region, bank, row)] ∧ FiledOne s s' 0) ∧
    (s.slideDue = true → Then (exec .counterWindowSlide s) fun s' =>
      s'.svc.counters.map (fun p => p.buckets) = s.svc.counters.map fun p => p.buckets.take 23) ∧
    (∀ addr, Then (exec (.lostClr addr) s) fun s' => ({ tgt := 0, dev := 0, pa := addr.toNat } : Loc).line ∉ s'.cch.lost)

/-- R14, R279, R301 to R303, R334, R383 to R385, R387, R388, R390, R392, R393: When a checkpoint closes, the stores held
up to its boundary are released and no longer held, the group's copy at that boundary is what a rollback returns to,
and the request is over. What an error does to the groups and the device: a covered compute error takes its group back
to its checkpoint and puts it under rerun, an uncovered one traps CHECKPOINT_FAIL; reruns that agree bring the group
back to where it stood, and reruns that differ cost the hearth's position; an image of a line that passes its check is
what is read, and one that fails rolls back the group that consumed the line, which is fetched once more;
uncorrectable data is aborted to its readers and, when dirty, lost; a corrected error is filed, and one of the decode
table refills its entry (log entries 33, 103, 106); a spare row takes a row; each window of a predictive counter
slides. Uncorrectable data: log entry 62. -/
def Obligations.ErrorHandling : Prop := Claims.CheckpointCloses ∧ Claims.ErrorsHandled

namespace Sys2Proof.Claims

/-! ### Page faults and monitors (R284, R297, R351 to R353) -/

/-- A fault can be reported at once: its queue is on, has room and a free identifier, and no fault like it is out (R351). -/
structure CanReport (s : State) (f : Nat) (r : FaultReq) (fid : Nat) : Prop where
  func : f < s.hst.funcs.length
  owner : s.worldFunc r.world = some f
  enabled : (s.func f).fqCtl.getLsbD 4 = true
  first : ∀ x ∈ (s.func f).faults, ¬(x.world = r.world ∧ x.page = r.va.toNat / 4096 ∧ x.kind = r.kind ∧ x.acc = r.acc)
  free : (s.func f).freeFid = some fid
  waiting : (s.func f).waiting = []
  room : ((s.func f).fqProd - (s.func f).fqCons).toNat < (s.func f).fqSize
  memory : s.mem.wf = true

/-- Where the next fault record goes (R353). -/
def faultAt (s : State) (f : Nat) : Nat := (s.func f).fqBase.toNat + 32 * ((s.func f).fqProd.toNat % (s.func f).fqSize)

/-- An answer word of FQ_ANSWER (R352). -/
def answerWord (fid code : Nat) : W64 := BitVec.ofNat 64 (fid + 65536 * code)

end Sys2Proof.Claims

/-- R351, R352, R297, R284: a translation fault is written to its function's queue and is outstanding under its identifier; an
answer of 1 lets its accesses walk the page again, an unknown identifier or code steps BAD_ANSWERS; a parked fetch whose page
translates goes on; a written line wakes its waiters and a timeout ends its monitor. -/
def Obligations.FaultsAndMonitors : Prop :=
  ∀ (s : State),
    (∀ r l f fid, s.cch.faultq = r :: l → CanReport s f r fid → Then (exec .translationFault s) fun s' =>
      s'.cch.faultq = l ∧ (s'.func f).fqProd = (s.func f).fqProd + 1 ∧
      (s'.func f).faults = (s.func f).faults ++ [{ fid := fid, world := r.world, page := r.va.toNat / 4096, kind := r.kind, acc := r.acc,
                                                   joined := [(r.id, r.va)] }] ∧
      s'.hostRead (faultAt s f) 8 = natLe 8 (4096 * (r.va.toNat / 4096)) ∧ s'.hostRead (faultAt s f + 8) 2 = natLe 2 fid ∧
      s'.hostRead (faultAt s f + 10) 4 = natLe 1 r.world ++ natLe 1 r.kind ++ natLe 1 r.acc ++ natLe 1 r.level) ∧
    (∀ f x a va, f < s.hst.funcs.length → x.fid < 1024 → (s.func f).faults.find? (fun y => y.fid == x.fid) = some x →
      x.joined = [(a.id, va)] → a.id < 2 ^ 60 → s.core.accs.find? (fun y => y.id == a.id) = some a → (s.func f).waiting = [] →
      AccessThen (exec (.fqAnswer f (answerWord x.fid 1)) s) a.id (fun y => y.replay = a.replay ++ [va.toNat / 4096]) ∧
      Then (exec (.fqAnswer f (answerWord x.fid 1)) s) fun s' => ∀ y ∈ (s'.func f).faults, y.fid ≠ x.fid) ∧
    (∀ f fid code, f < s.hst.funcs.length → fid < 1024 → code < 16 →
      (∀ x ∈ (s.func f).faults, x.fid ≠ fid) ∨ code = 0 ∨ 4 < code →
      Then (exec (.fqAnswer f (answerWord fid code)) s) fun s' => (s'.func f).badAns = Nat.min 255 ((s.func f).badAns + 1) ∧
        s'.core = s.core) ∧
    (∀ p slot split g, s.retryDue = some (p, slot, split) → HasPart s p → HasGroup s p slot g → split < 4 →
      s.fetchFault p (splitWaiter p.h slot split) (s.fetchNeeds p (g.split split).nextOffsets) = none →
      GroupThen (exec .fetchRetry s) p.h slot fun g' => (g'.split split).state = .ready ∧ (g'.split split).refetch = none ∧
        (g'.split split).offset = (g.split split).offset) ∧
    (∀ m h slot n g, s.rung? = some m → m.locals = [(h, slot, n)] → m.remotes = [] → Stands s h slot g → n < 4 → g.splits.length = 4 →
      (g.split n).state = .longwait →
      GroupThen (exec .monitorWake s) h slot (fun g' => (g'.split n).state = .ready ∧ (g'.split n).monitor = none) ∧
      Then (exec .monitorWake s) fun s' => ∀ x ∈ s'.cch.monitors, x.loc ≠ m.loc) ∧
    (∀ h slot n g, s.timeoutDue = some (h, slot, n) → Stands s h slot g → n < 4 → g.splits.length = 4 → (g.split n).state = .longwait →
      GroupThen (exec .monitorTimeout s) h slot (fun g' => (g'.split n).state = .ready ∧ (g'.split n).monitor = none) ∧
      Then (exec .monitorTimeout s) fun s' => ∀ x ∈ s'.cch.monitors, (h, slot, n) ∉ x.locals)

namespace Sys2Proof.Claims

/-! ### Admin commands (R330, R332, R335, R337, R338, R354, R359, R363 to R372, R408) -/

/-- The device has fetched a command of a function whose rings are enabled. -/
structure Fetched (s : State) (c : AdminCmd) : Prop where
  cmd : s.hst.cmd = some c
  func : c.func < s.hst.funcs.length
  enabled : (s.func c.func).aqCtl.getLsbD 8 = true
  memory : s.mem.wf = true

/-- Where the function's next completion goes (R363). -/
def entryAt (s : State) (f : Nat) : Nat := (s.func f).acqBase.toNat + 16 * ((s.func f).acqProd.toNat % (s.func f).acqSize)

/-- A completion has been posted: RESULT, CID and STATUS stand in the ring's next entry, and the producer has stepped. -/
def Posted (s s' : State) (f cid status : Nat) (result : W64) : Prop :=
  (s'.func f).acqProd = (s.func f).acqProd + 1 ∧ s'.hostRead (entryAt s f) 8 = natLe 8 result.toNat ∧
  s'.hostRead (entryAt s f + 8) 2 = natLe 2 cid ∧ s'.hostRead (entryAt s f + 12) 1 = natLe 1 status

/-- The command is complete, and the device has it no more. -/
def Completes (s : State) (c : AdminCmd) (i : Instr) (status : Nat) (result : W64) (P : State → Prop) : Prop :=
  ∃ s', exec i s = .next s' ∧ s'.hst.cmd = none ∧ Posted s s' c.func c.cid status result ∧ P s'

/-- The record stands at a host address that the completion's entry does not touch. -/
def RecordAt (s : State) (c : AdminCmd) (pa : Nat) (bs : List Byte) (s' : State) : Prop :=
  entryAt s c.func + 16 ≤ pa ∨ pa + bs.length ≤ entryAt s c.func →
    ∀ i, i < bs.length → s'.hostRead (pa + i) 1 = [bs.getD i 0]

/-- No more than these bits of a parameter are used, and the others name nothing. -/
def Bits (x : W64) (mask : Nat) : Prop := onlyBits x mask = true

/-- The world, function and unit a parameter names. -/
def worldOf (c : AdminCmd) : Nat := c.p0.toNat % 64

end Sys2Proof.Claims

/-- R330, R332, R337, R365, R372: the commands of the physical function complete with NOT_PERMITTED for any other (log entry 27), without
effect on owners, units, ceiling, slices or routes. -/
def Sys2Proof.Claims.PrivilegedCommands : Prop :=
  ∀ (s : State) (c : AdminCmd), Fetched s c → c.func ≠ 0 → ∀ i ∈ [Instr.worldAssign, .meadowAssign, .powerCeiling, .funcConfig, .domainConfig],
    Completes s c i 3 0 fun s' => s'.hst.owners = s.hst.owners ∧ s'.hst.units = s.hst.units ∧ s'.pow = s.pow ∧
      s'.fab = s.fab ∧ s'.core = s.core ∧ (∀ f, (s'.func f).slice = (s.func f).slice)

/-- R366, R408, R365, R330, R332, R335, R354 (log entries 27, 37): what the queries and the commands on queues, worlds and memory leave when their
parameters are in order. -/
def Sys2Proof.Claims.QueueAndWorldCommands : Prop :=
  ∀ (s : State) (c : AdminCmd), Fetched s c →
    (c.p1 = 0 → c.p2 = 0 →
      Completes s c .identify 0 0 (RecordAt s c c.p0.toNat (s.identityRecord c.func)) ∧
      Completes s c .summary 0 0 (RecordAt s c c.p0.toNat (s.summaryRecord c.func))) ∧
    (Bits c.p0 0x3F → c.p1.toNat % 4096 = 0 → c.p2.toNat % 8 = 0 → s.lch.queue? c.func (worldOf c) = none →
      Completes s c .lqCreate 0 0 fun s' => s'.lch.queue? c.func (worldOf c) = some
        { func := c.func, queue := worldOf c, ring := c.p1.toNat, shadow := c.p2.toNat, d := 0, a := 0, spawned := [], cur := [],
          held := [], wait := 0 }) ∧
    (∀ q, Bits c.p0 0x3F → c.p1 = 0 → c.p2 = 0 → s.lch.queue? c.func (worldOf c) = some q →
      (q.count = 0 → Completes s c .lqDelete 0 0 fun s' => s'.lch.queue? c.func (worldOf c) = none) ∧
      (q.count ≠ 0 → Completes s c .lqDelete 4 0 fun s' => s'.lch = s.lch)) ∧
    (∀ f, f = bitsNat c.p0.toNat 12 8 → c.func = 0 → Bits c.p0 0x1F3F → c.p1 = 0 → c.p2 = 0 → worldOf c ≠ 0 → f ≤ s.hst.numVfs →
      s.hst.owners.length = 64 → s.hst.roots.length = 64 → s.worldBusy (worldOf c) = false → s.hst.owners.getD (worldOf c) none ≠ some f →
      Completes s c .worldAssign 0 0 fun s' => s'.hst.owners.getD (worldOf c) none = some f ∧
        s'.hst.roots.getD (worldOf c) none = none ∧ (∀ u ∈ s'.hst.units, u.2.2 ≠ worldOf c) ∧
        (∀ b ∈ s'.sec.buffers, b.world ≠ worldOf c)) ∧
    (Bits c.p0 0x3F → c.p2 = 0 → s.hst.owns c.func (worldOf c) = true → s.hst.roots.length = 64 → c.p1.getLsbD 0 = true →
      c.p1.getLsbD 1 = false → tableBad s.svc c.p1 6 = false →
      Completes s c .worldRoot 0 0 fun s' => s'.hst.roots.getD (worldOf c) none = some c.p1) ∧
    (Bits c.p0 0x3F → c.p1.toNat % 4096 = 0 → c.p2.toNat % 4096 = 0 → s.hst.owns c.func (worldOf c) = true →
      ∃ s', exec .invalidate s = .next s' ∧ s'.hst.cmd = none ∧ (s'.func c.func).acqProd = (s.func c.func).acqProd ∧
        s'.hst.shoots = s.hst.shoots ++ [(c.func, c.cid, worldOf c, c.p1.toNat, c.p2.toNat, s.core.seq)] ∧
        ∀ e ∈ s'.cch.tlb, e.world = worldOf c → e.base + e.size ≤ c.p1.toNat ∨ c.p1.toNat + c.p2.toNat ≤ e.base) ∧
    (∀ n, Bits c.p0 0x3F → c.p1.toNat % 256 = 0 → c.p2 ≠ 0 → s.hst.owns c.func (worldOf c) = true →
      (∀ b ∈ s.sec.buffers, b.base + b.len ≤ c.p1.toNat ∨ c.p1.toNat + c.p2.toNat ≤ b.base) →
      ((List.range 8192).find? fun i => !(s.sec.buffers.any fun b => b.idx == i)) = some n →
      Completes s c .bufReg 0 (BitVec.ofNat 64 n) fun s' => s'.sec.buffers = s.sec.buffers ++
        [{ idx := n, world := worldOf c, base := c.p1.toNat, len := c.p2.toNat, version := 1 }]) ∧
    (∀ b, s.sec.buffers.find? (fun b => b.idx == c.p0.toNat) = some b → c.p1 = 0 → c.p2 = 0 → s.hst.owns c.func b.world = true →
      (∀ l ∈ s.lch.launches, c.p0.toNat ∉ l.fresh) →
      Completes s c .bufUnreg 0 0 fun s' => ∀ x ∈ s'.sec.buffers, x.idx ≠ c.p0.toNat) ∧
    (∀ die unit w, die = c.p0.toNat % 4 → unit = bitsNat c.p0.toNat 14 8 → w = bitsNat c.p0.toNat 21 16 → c.func = 0 →
      Bits c.p0 0x3F7F03 → c.p1 = 0 → c.p2 = 0 → (∀ u ∈ s.hst.units, u.1 = die → u.2.1 ≠ unit) →
      Completes s c .meadowAssign 0 0 fun s' => (die, unit, w) ∈ s'.hst.units ∧
        ∀ a, die * 2 ^ 31 + unit * 2 ^ 24 ≤ a → a < die * 2 ^ 31 + (unit + 1) * 2 ^ 24 → cellRead s'.mem.meadow a = 0)

/-- R354: the invalidation completes once what was issued before it is complete. -/
def Sys2Proof.Claims.InvalidateCompletes : Prop :=
  ∀ (s : State) (f cid w base len seq : Nat), s.hst.cmd = none → s.shootDue = some (f, cid, w, base, len, seq) →
    f < s.hst.funcs.length → (s.func f).aqCtl.getLsbD 8 = true → s.mem.wf = true →
    ∃ s', exec .invalidate s = .next s' ∧ Posted s s' f cid 0 0 ∧ s'.hst.shoots = s.hst.shoots.erase (f, cid, w, base, len, seq) ∧
      ∀ e ∈ s'.cch.l1, e.world = w → 128 * e.vline + 128 ≤ base ∨ base + len ≤ 128 * e.vline

/-- R330, R332, R335, R337, R354, R365, R366, R372, R408: The commands of the physical function complete with
NOT_PERMITTED for any other (log entry 27), without effect on owners, units, ceiling, slices or routes. What the
queries and the commands on queues, worlds and memory leave when their parameters are in order. The invalidation
completes once what was issued before it is complete. -/
def Obligations.QueueWorldCommands : Prop := Claims.PrivilegedCommands ∧ Claims.QueueAndWorldCommands ∧ Claims.InvalidateCompletes

/-- R318, R326, R337, R338, R365, R368, R371, R359, R372, R367 (log entries 27, 37, 72): what the commands on launches, power, channels, the window, the
domain and stopped teams leave when their parameters are in order. -/
def Obligations.LaunchAndDeviceCommands : Prop :=
  ∀ (s : State) (c : AdminCmd), Fetched s c →
    (∀ l, s.launchOf c.func c.p0.toNat = some l → s.lch.launch? l.id = some l →
      (∀ t ∈ l.teams, c.p2 = 0 → c.p1.toNat = 0xFFFFFFFF ∨ t.index = c.p1.toNat → t.state = .resident → t.leaving = 0 → t.admin = none →
        LaunchThen (exec .preempt s) l.id fun l' => ∃ t' ∈ l'.teams, t'.index = t.index ∧ t'.leaving = 2 ∧
          t'.admin = some (c.func, c.cid)) ∧
      (c.p1 = 0 → c.p2 = 0 → l.status = none → Completes s c .abort 0 0 fun s' =>
        (s'.lch.launch? l.id).map (fun x => x.status) = some (some (8, 0, 0, 0, 0)))) ∧
    (c.func = 0 → c.p0.toNat ≤ 6 → c.p1 = 0 → c.p2 = 0 →
      Completes s c .powerCeiling 0 0 fun s' => s'.pow = { s.pow with ceiling := c.p0.toNat }) ∧
    (let start := boundaryFrom (s.cycle + 1)
     c.func = 0 → Bits c.p0 0xF → c.p0 ≠ 0 → 1 ≤ c.p1.toNat → c.p1.toNat ≤ 2000 → c.p2 = 0 → 2800 ≤ s.pow.watts →
     s.pow.firmware = true → (∀ i, c.p0.getLsbD i = true → s.leaseRefused i = false) → s.pow.dies.length = 4 →
      Completes s c .boost 0 (BitVec.ofNat 64 start) fun s' => ∀ i, c.p0.getLsbD i = true → (s'.dieAt i).lease = some
        { func := 0, start := start, begun := false, stop := start + 800000 * c.p1.toNat, revoked := false }) ∧
    (c.func = 0 → c.p0.toNat ≤ s.hst.numVfs → c.p0.toNat < s.hst.funcs.length → Bits c.p2 1 →
      Completes s c .funcConfig 0 0 fun s' => (s'.func c.p0.toNat).slice = c.p1.toNat ∧
        (s'.func c.p0.toNat).permit = (c.p2.getLsbD 0 || c.p0.toNat == 0)) ∧
    (let x := c.p0.toNat
     Bits c.p0 0xFFFF3F0FF13F → bitsNat x 15 12 ≤ 12 → 1 ≤ bitsNat x 19 16 → bitsNat x 19 16 ≤ 10 → c.p1.toNat % 4096 = 0 →
     c.p2.toNat % 8 = 0 → s.hst.owns c.func (bitsNat x 29 24) = true → (s.func c.func).channel? (x % 64) = none →
      Completes s c .chCreate 0 0 fun s' => ((s'.func c.func).channel? (x % 64)).map (fun ch =>
        (ch.out, ch.slot, ch.count, ch.world, ch.vec, ch.ring, ch.shadow, ch.dp, ch.dc, ch.desync)) =
        some (bitNat x 8, bitsNat x 15 12, 2 ^ bitsNat x 19 16, bitsNat x 29 24, bitsNat x 47 32, c.p1.toNat, c.p2.toNat, 0, 0, false)) ∧
    (∀ ch, (s.func c.func).channel? c.p0.toNat = some ch → ch.waiting = none → ch.copying = 0 → Bits c.p0 0x3F → c.p2 = 0 →
      (Bits c.p1 0xFFFFFFFF → Completes s c .chResync 0 (BitVec.ofNat 64 (ch.dp * 2 ^ 32 + ch.dc)) fun s' =>
        ((s'.func c.func).channel? c.p0.toNat).map (fun x => (x.dp, x.dc, x.desync)) = some (c.p1.toNat, c.p1.toNat, false)) ∧
      (c.p1 = 0 → Completes s c .chDelete 0 0 fun s' => (s'.func c.func).channel? c.p0.toNat = none)) ∧
    (Bits c.p0 0x3F → c.p1.toNat % 4096 = 0 → s.hst.owns c.func c.p0.toNat = true →
      Completes s c .aperture 0 0 fun s' => (s'.func c.func).apWorld = c.p0.toNat ∧ (s'.func c.func).apBase = c.p1.toNat ∧
        (s'.func c.func).apLen = c.p2.toNat) ∧
    (let routes := (List.range 192).map fun i => leAt (s.hostRead c.p1.toNat 384) (2 * i) 2
     c.func = 0 → c.p0.toNat < 192 → c.p2 = 0 → (∀ r ∈ routes, r < 2 ^ 12) →
      Completes s c .domainConfig 0 0 fun s' => s'.fab = { s.fab with device := some c.p0.toNat, routes := routes }) ∧
    (∀ l p e, s.launchOf c.func c.p0.toNat = some l → Bits c.p1 0xFFFFFFF → s.debugPart c = some p → HasPart s p → p.stopAt = some e →
      (c.p2.toNat % 4096 = 0 → Completes s c .dbgRead 0 0 (RecordAt s c c.p2.toNat (s.debugBytes p e))) ∧
      (∀ g n, c.p2 = 0 → HasGroup s p e.slot g → n < 4 → (g.split n).state = .parked → (g.split n).stopped = true →
        (g.split n).held = [] → Completes s c .dbgResume 0 0 fun s' =>
          (s'.core.part? p.id).map (fun x => x.stopAt) = some none ∧
          ∃ g', s'.core.group? p.h e.slot = some g' ∧ (g'.split n).state = .ready))

namespace Sys2Proof.Claims

/-! ### Launches (R235, R313 to R325, R335, R360) -/

/-- A queue after a step. -/
def QueueThen (a : Answer) (f n : Nat) (P : LQueue → Prop) : Prop := Then a fun s' => ∃ q', s'.lch.queue? f n = some q' ∧ P q'

/-- A doorbell value passes the tests of R360. -/
def GoodBell (q : LQueue) (v : Nat) : Prop := (v + 2 ^ 32 - q.d) % 2 ^ 32 < 2 ^ 31 ∧ (v + 2 ^ 32 - q.a) % 2 ^ 32 ≤ 256

/-- A team of a launch after a step. -/
def TeamThen (a : Answer) (id team : Nat) (P : Team → Prop) : Prop :=
  Then a fun s' => ∃ l', s'.lch.launch? id = some l' ∧ ∃ t' ∈ l'.teams, t'.index = team ∧ P t'

/-- A launch that has just been accepted, with its teams waiting (R319). -/
def Accepted (s : State) (q : LQueue) (im : Image) (e : LaunchExt) (l : Launch) : Prop :=
  l.func = q.func ∧ l.record = parseLaunch q.cur ∧ l.image = im ∧ l.ext = e ∧ l.status = none ∧
  l.num = (if (s.func q.func).nextLaunch = 0 then 1 else (s.func q.func).nextLaunch) ∧
  l.teams.map (fun t => t.index) = List.range (parseLaunch q.cur).teams ∧ ∀ t ∈ l.teams, t.state = .waiting

/-- A group of a part as R235 starts it: split 0 READY at the entry with every lane, k0 all ones, a0 the argument, the rest 0. -/
def FreshGroup (p : Part) (g : Group) : Prop :=
  g.part = p.id ∧ g.h = p.h ∧ (g.split 0).state = .ready ∧ (g.split 0).mask = LaneMask.all ∧ (g.split 0).offset = p.image.entry ∧
  (∀ n, 1 ≤ n → n < 4 → (g.split n).state = .free) ∧ g.v = List.replicate p.image.vregs Vec.zero ∧ g.sh = List.replicate 16 0 ∧
  g.a = p.arg :: List.replicate 15 0 ∧ g.k = LaneMask.all :: List.replicate 15 0 ∧ g.fflags = 0 ∧ g.fctl = 0 ∧ g.isat = false

end Sys2Proof.Claims

/-- R360, R316, R319, R320, R321, R325, R335, R317, R236: a doorbell moves its queue's count, or is reported when a test fails; a record
that passes its checks becomes a launch under the function's next number; a launch whose counter has come is eligible, and ages;
a meadow load writes its dies; a team is placed whole with its groups fresh; a fresh buffer's version steps and its lines are wrapped
again one after another; the stages of completion follow one another; a group without lanes retires (log entries 34, 35, 66, 69). -/
def Obligations.LaunchesRun : Prop :=
  ∀ (s : State),
    (∀ f n (value : W32) q, s.lch.queue? f n = some q → f < s.hst.funcs.length →
      (GoodBell q value.toNat → QueueThen (exec (.launchDoorbell f n value) s) f n fun q' => q' = { q with d := value.toNat }) ∧
      (¬GoodBell q value.toNat → (s.func f).aqCtl.getLsbD 8 = true → s.mem.wf = true → Then (exec (.launchDoorbell f n value) s) fun s' =>
        s'.lch = s.lch ∧ Posted s s' f 0xFFFF 0 (BitVec.ofNat 64 (3 + 2 ^ 8 * n + 2 ^ 32 * value.toNat)))) ∧
    (∀ q t im e, s.lch.queues.find? LQueue.ready = some q → s.lch.queue? q.func q.queue = some q → q.cur ≠ [] →
      s.checkRecord q (parseLaunch q.cur) = .accepted t im e →
      Then (exec .launchAccept s) fun s' => ∃ l, s'.lch.launches = s.lch.launches ++ [l] ∧ Accepted s q im e l ∧
        ∃ q', s'.lch.queue? q.func q.queue = some q' ∧ q'.cur = [] ∧ q'.held = q.held ++ [l.id]) ∧
    (∀ l t v, s.dependDue = some (l, .value t v) → s.lch.launch? l.id = some l → l.record.depval ≤ v →
      LaunchThen (exec .dependenceWake s) l.id fun l' => l'.eligible = some s.cycle) ∧
    (∀ l, s.dependDue = some (l, .fails) → s.lch.launch? l.id = some l → l.status = none →
      LaunchThen (exec .dependenceWake s) l.id fun l' => l'.status = some (9, 0, 0, 0, 0)) ∧
    (∀ l, s.ageDue = some l → s.lch.launch? l.id = some l → LaunchThen (exec .ageingExpiry s) l.id fun l' => l'.aged = true) ∧
    (∀ l src dst dies len t bs, s.loadDue = some (l, (src, dst, dies, len)) → s.lch.launch? l.id = some l → s.mem.wf = true →
      (∀ d ∈ loadDies dies, ∀ u ∈ unitsOf dst len, s.hst.ownsUnit d u l.record.world = true) →
      (s.acquire 0 6).readBytes 0 l.record.world (doneWaiter l.id) src len = .got t bs → dst + bs.length ≤ 2 ^ 31 →
      LaunchThen (exec .meadowLoad s) l.id (fun l' => l'.loads = l.loads.drop 1) ∧
      Then (exec .meadowLoad s) fun s' => ∀ d ∈ loadDies dies, ∀ i, i < bs.length →
        cellRead s'.mem.meadow (d * 2 ^ 31 + dst + i) = bs.getD i 0) ∧
    (∀ l n h, s.placeDue = some (l, n, [h]) → s.lch.launch? l.id = some l → h < s.core.hearths.length →
      TeamThen (exec .teamPlacement s) l.id n (fun t' => t'.state = .resident ∧ t'.since = s.cycle) ∧
      Then (exec .teamPlacement s) fun s' => ∃ p gs, s'.core.parts = s.core.parts ++ [p] ∧ s'.core.groups = s.core.groups ++ gs ∧
        p.launch = l.id ∧ p.team = n ∧ p.h = h ∧ p.world = l.record.world ∧ p.halt = 0 ∧ p.handler = none ∧
        gs.length = (s.core.freeSlots h l.image.groups).length ∧ ∀ g ∈ gs, FreshGroup p g) ∧
    (∀ l i r, s.rewrapDue = some l → l.fresh = i :: r → s.lch.launch? l.id = some l →
      (∀ b, s.sec.buffers.find? (fun b => b.idx == i) = some b → s.sec.rewrap = none →
        Then (exec .freshBufferRewrap s) fun s' => s'.sec.buffers.map (fun b => (b.idx, b.version)) =
            s.sec.buffers.map (fun b => (b.idx, if b.idx = i then (b.version + 1) % 2 ^ 56 else b.version)) ∧
          s'.sec.rewrap = some { idx := i, ptr := b.base, cycle := s.cycle } ∧ s'.lch = s.lch) ∧
      (∀ b w, s.sec.buffers.find? (fun b => b.idx == i) = some b → s.sec.rewrap = some w →
        (b.base + b.len ≤ w.ptr → Then (exec .freshBufferRewrap s) fun s' => s'.sec.rewrap = none ∧
          (s'.lch.launch? l.id).map (fun x => x.fresh) = some r) ∧
        (let x : Loc := { tgt := 0, dev := 0, pa := w.ptr }
         w.ptr < b.base + b.len → x.coded = true → s.lineState x s.core.seq (s.sec.worldOf x) = .good →
          Then (exec .freshBufferRewrap s) fun s' => s'.sec.rewrap = some { w with ptr := w.ptr + 256, cycle := s.cycle } ∧
            s'.sec.metas = s.sec.metas.map fun m => if m.loc = x.line then { m with version := b.version } else m)) ∧
      (s.sec.buffers.find? (fun b => b.idx == i) = none → Then (exec .freshBufferRewrap s) fun s' =>
        (s'.lch.launch? l.id).map (fun x => x.fresh) = some r)) ∧
    (∀ l, s.completeDue = some l → s.lch.launch? l.id = some l →
      (l.stage ≤ 1 → LaunchThen (exec .launchCompletion s) l.id fun l' => l'.stage = l.stage + 1) ∧
      (∀ t, l.stage = 2 → s.putBytes 0 l.record.world l.record.crec (l.recordBytes s.cycle) = .done t →
        LaunchThen (exec .launchCompletion s) l.id fun l' => l'.stage = 3) ∧
      (l.stage = 3 → l.record.done = 0 → LaunchThen (exec .launchCompletion s) l.id fun l' => l'.stage = 4) ∧
      (∀ t, l.stage = 3 → l.record.done ≠ 0 → s.stepCounter l = .done t →
        LaunchThen (exec .launchCompletion s) l.id fun l' => l'.stage = 4) ∧
      (l.stage = 4 → Then (exec .launchCompletion s) fun s' => ∀ x ∈ s'.lch.launches, x.id ≠ l.id)) ∧
    (∀ g p, s.retireDue = some (g, p) → Then (exec .groupRetirement s) fun s' =>
      ∀ x ∈ s'.core.groups, ¬(x.h = g.h ∧ x.slot = g.slot))

namespace Sys2Proof.Claims

/-! ### Teams that leave and come back (R256 to R259, R322, R326 to R329, R410 to R416) -/

/-- The launch and its team, under their numbers. -/
def HasTeam (s : State) (l : Launch) (t : Team) : Prop :=
  s.lch.launch? l.id = some l ∧ t ∈ l.teams ∧ ∀ x ∈ l.teams, x.index = t.index → x = t

end Sys2Proof.Claims

/-- R256 to R259, R322, R326, R328, R411, R412 (log entries 36, 68): a team past its threshold begins to leave, unless one of its splits can go on while
its queued ops run, and once it is drained and its image written it is swapped; it is ready when what it waits for holds, and comes back resident; a launch that has waited long enough
makes a victim leave; a pre-empted team's monitored waits end and its context is saved and restored; a halted part that is
drained may be dumped. -/
def Obligations.TeamsMove : Prop :=
  ∀ (s : State) (l : Launch) (t : Team), HasTeam s l t →
    (s.leaverDue 1 = none → s.staysDue = some (l, t) →
      TeamThen (exec .swapOut s) l.id t.index fun t' => t'.leaving = 0 ∧ t'.state = t.state) ∧
    (s.leaverDue 1 = none → s.staysDue = none → s.swapTrigger = some (l, t) →
      TeamThen (exec .swapOut s) l.id t.index fun t' => t'.leaving = 1 ∧ t'.state = t.state) ∧
    (∀ u, s.leaverDue 1 = some (l, t) → s.writeImages 1 (s.core.teamParts l.id t.index) = (u, none) →
      TeamThen (exec .swapOut s) l.id t.index (fun t' => t'.state = .swapped false ∧ t'.leaving = 0 ∧
        t'.saved.map (fun x => x.part.id) = (u.core.teamParts l.id t.index).map fun p => p.id) ∧
      Then (exec .swapOut s) fun s' => ∀ p ∈ s'.core.parts, ¬(p.launch = l.id ∧ p.team = t.index)) ∧
    (s.returnDue = some (l, t) → TeamThen (exec .teamReadyToReturn s) l.id t.index fun t' => t'.state = .swapped true) ∧
    (∀ hs, s.comeBack (.swapped true) = some (l, t, hs) →
      TeamThen (exec .swapIn s) l.id t.index fun t' => t'.state = .resident ∧ t'.saved = [] ∧ t'.since = s.cycle) ∧
    (∀ hs, s.comeBack .preempted = some (l, t, hs) →
      TeamThen (exec .contextRestore s) l.id t.index fun t' => t'.state = .resident ∧ t'.saved = [] ∧ t'.since = s.cycle) ∧
    (∀ x, s.priorityDue = some (x, l, t) →
      TeamThen (exec .priorityPreemptTrigger s) l.id t.index fun t' => t'.leaving = 2 ∧ t'.yields = some x.id) ∧
    (∀ x, s.sliceDue = some (x, l, t) →
      TeamThen (exec .timeSliceExpiry s) l.id t.index fun t' => t'.leaving = 2 ∧ t'.yields = some x.id) ∧
    (∀ h slot n g, s.preemptMonitor = some (h, slot, n) → Stands s h slot g → n < 4 → g.splits.length = 4 → (g.split n).state = .longwait →
      GroupThen (exec .preemption s) h slot fun g' => (g'.split n).state = .ready ∧ (g'.split n).monitor = none) ∧
    (∀ u, s.preemptMonitor = none → s.leaverDue 2 = some (l, t) → s.writeImages 2 (s.core.teamParts l.id t.index) = (u, none) →
      TeamThen (exec .preemption s) l.id t.index fun t' => t'.state = .preempted ∧ t'.leaving = 0) ∧
    (∀ p, s.drainDue = some p → HasPart s p → p.dump ≠ 0 → PartThen (exec .haltDrainDone s) p.id fun p' => p'.halt = 2) ∧
    (∀ p u, s.dumpDue = some p → HasPart s p → p.halt = 2 → p.dump - 1 < (s.dumpBytes p).length →
      s.unreachable p (p.swap + (p.dump - 1)) = false →
      let n := if p.dump - 1 = 0 then 256 else 4096 - (p.swap + (p.dump - 1)) % 4096
      s.putBytes (stoveOf p.h) p.world (p.swap + (p.dump - 1)) (((s.dumpBytes p).drop (p.dump - 1)).take n) = .done u →
      PartThen (exec .dumpWrite s) p.id fun p' => p'.dump = p.dump + n)

namespace Sys2Proof.Claims

/-! ### The host interface (R351 to R353, R358 to R362, R368 to R371, R390, R391, R399, R409) -/

/-- A function's block after a step. -/
def FuncThen (a : Answer) (f : Nat) (P : Func → Prop) : Prop := Then a fun s' => P (s'.func f)

/-- The bits of a field come from the value, the others stay (R358). -/
def takes (old v field : W64) : W64 := (old &&& ~~~field) ||| (v &&& field)

/-- A channel after a step. -/
def ChannelThen (a : Answer) (f n : Nat) (P : Channel → Prop) : Prop := FuncThen a f fun g => ∃ c, g.channel? n = some c ∧ P c

/-- A doorbell value passes both tests of R370. -/
def GoodChannelBell (c : Channel) (v : Nat) : Prop := (v + 2 ^ 32 - c.dc) % 2 ^ 32 ≤ c.count ∧ (v + 2 ^ 32 - c.dp) % 2 ^ 32 ≤ c.count

/-- A message-signalled vector goes out at once: it exists and its entry is not masked (R358). -/
def Unmasked (s : State) (f vec : Nat) : Prop := vec < msixCount f ∧ ((s.func f).msixWord (2 * vec + 1)).getLsbD 32 = false

/-- The function whose fault ring's hold-off has run out, in its own place. -/
def HoldsOff (s : State) (g : Func) : Prop := s.faultHoldoff = some g ∧ g.func < s.hst.funcs.length ∧ s.func g.func = g

end Sys2Proof.Claims

/-- R358, R353, R340, R397, R390, R8: a 64-bit write takes the bits of its register's fields and a 32-bit write those of its half, and
they read back; reserved bits are not taken, are filed with severity 0 and read as 0 (log entries 29, 99); the answer and the
lost-line registers act as their own steps; the physical function's block is out of the others' reach. -/
def Sys2Proof.Claims.RegisterWrites : Prop :=
  ∀ (s : State) (f : Nat) (v : W64), f < s.hst.funcs.length →
    FuncThen (exec (.registerWrite f 0x1000 false v) s) f (fun g => g = { s.func f with asqBase := takes (s.func f).asqBase v 0xFFFFFFFFFFFFF000 }) ∧
    FuncThen (exec (.registerWrite f 0x1004 true v) s) f (fun g => g = { s.func f with asqBase := takes (s.func f).asqBase (v <<< 32) 0xFFFFFFFF00000000 }) ∧
    FuncThen (exec (.registerWrite f 0x1008 false v) s) f (fun g => g = { s.func f with acqBase := takes (s.func f).acqBase v 0xFFFFFFFFFFFFF000 }) ∧
    FuncThen (exec (.registerWrite f 0x1018 false v) s) f (fun g => g = { s.func f with asqTail := v.setWidth 32 }) ∧
    FuncThen (exec (.registerWrite f 0x2000 false v) s) f (fun g => g = { s.func f with fqBase := takes (s.func f).fqBase v 0xFFFFFFFFFFFFF000 }) ∧
    ((s.func f).waiting = [] → FuncThen (exec (.registerWrite f 0x2018 false v) s) f fun g => g = { s.func f with fqCons := v.setWidth 32 }) ∧
    Then (exec (.registerWrite f 0x1000 false v) s) (fun s' => s'.readBar0 f 0x1000 = takes (s.func f).asqBase v 0xFFFFFFFFFFFFF000) ∧
    Then (exec (.registerWrite f 0x1018 false v) s) (fun s' => s'.readBar0 f 0x1018 = (v.setWidth 32).setWidth 64) ∧
    (∀ off, s.readBar0 f off &&& BitVec.ofNat 64 (reservedOf off) = 0) ∧
    (∀ off, f ≠ 0 → 0x10000 ≤ off → off < 0x10058 → s.readBar0 f off = 0) ∧
    (v &&& 0xFFFFFFFFFFFFFF00 ≠ 0 → Then (exec (.registerWrite f 0x3080 false v) s) fun s' => FiledOne s s' 0 ∧
      (s'.func f).vcovf = (s.func f).vcovf &&& ~~~(v.setWidth 8)) ∧
    (∀ n, n < 8 → v &&& 0xFFFF0000FF3FF000 = 0 → (s.func f).vcsel.length = 8 →
      FuncThen (exec (.registerWrite f (0x3000 + 8 * n) false v) s) f fun g =>
        g.vcsel = (s.func f).vcsel.set n (takes ((s.func f).vcsel.getD n 0) v 0xFFFF00C00FFF)) ∧
    (v &&& 0xFFFFFFFFFFFFFF00 = 0 → FuncThen (exec (.registerWrite f 0x3080 false v) s) f fun g => g.vcovf = (s.func f).vcovf &&& ~~~(v.setWidth 8)) ∧
    exec (.registerWrite f 0x2020 false v) s = exec (.fqAnswer f v) s ∧
    exec (.registerWrite 0 0x10050 false v) s = exec (.lostClr v) s ∧
    (∀ off half, f ≠ 0 → 0x10000 ≤ off → off < 0x10058 → exec (.registerWrite f off half v) s = .next s) ∧
    (v &&& 0xFFFF00F0FFFFFEE0 = 0 → v.getLsbD 8 = true → s.svc.sweepPhase = 0 → s.svc.sweepStove < 32 →
      Then (exec (.registerWrite 0 0x10028 false v) s) fun s' => s'.svc.sweepPhase = 1 ∧ s'.svc.sweepStove = v.toNat % 32 ∧
        v.toNat % 32 ∈ s'.svc.withdrawn)

/-- R359, R360, R370, R369, R361: an access to BAR 2 is a doorbell, or one of device memory that completes in order, or is refused
outside the aperture (log entries 26, 38); a channel's doorbell moves DP or puts it into DESYNC, where a copy under way goes on; a slot that is copied steps DC, its shadow and
its vector, and a host abort puts the channel into DESYNC. -/
def Sys2Proof.Claims.WindowAndChannels : Prop :=
  ∀ (s : State) (f : Nat), f < s.hst.funcs.length →
    (∀ n len data, n < 64 → 4 ≤ len →
      exec (.bar2WindowAccess f true (8 * n) len data) s = exec (.launchDoorbell f n (data.setWidth 32)) s ∧
      exec (.bar2WindowAccess f true (0x1000 + 8 * n) len data) s = exec (.channelDoorbell f n (data.setWidth 32)) s) ∧
    (∀ write x len data, (s.func f).win = [] → 0 < len →
      let r : WinReq := { write := write, off := 2 ^ 20 + x, len := len, data := data, wait := 0 }
      let t := s.modFunc f fun g => { g with win := [r] }
      ((s.func f).apLen < x + len → FuncThen (exec (.bar2WindowAccess f write (2 ^ 20 + x) len data) s) f fun g =>
        g = { s.func f with winErrs := (s.func f).winErrs + 1
                            winOut := if write then (s.func f).winOut else (s.func f).winOut ++ [(2 ^ 20 + x, 1, 0)] }) ∧
      (∀ u bs, x + len ≤ (s.func f).apLen →
        t.windowBytes f (s.func f).apWorld write data (len + 1) ((s.func f).apBase + x) len = .got u bs →
        FuncThen (exec (.bar2WindowAccess f write (2 ^ 20 + x) len data) s) f fun g => g.win = [] ∧ g.winErrs = (s.func f).winErrs ∧
          g.winOut = if write then (s.func f).winOut else (s.func f).winOut ++ [(2 ^ 20 + x, 0, BitVec.ofNat 64 (leNat bs))])) ∧
    (∀ n c (value : W32), (s.func f).channel? n = some c →
      (GoodChannelBell c value.toNat →
        ChannelThen (exec (.channelDoorbell f n value) s) f n fun c' => c' = { c with dp := value.toNat }) ∧
      (¬GoodChannelBell c value.toNat → c.desync = true → exec (.channelDoorbell f n value) s = .next s) ∧
      (¬GoodChannelBell c value.toNat → c.desync = false → c.waiting = none → (s.func f).aqCtl.getLsbD 8 = true → s.mem.wf = true →
        ChannelThen (exec (.channelDoorbell f n value) s) f n (fun c' => c' =
          { c with desync := true, cause := 2, lost := 0 }) ∧
        Then (exec (.channelDoorbell f n value) s) fun s' => Posted s s' f 0xFFFF 0 (BitVec.ofNat 64 (2 + 2 ^ 8 * n)))) ∧
    (∀ n c t off, (s.func f).channel? n = some c → c.active = true → c.copying ≠ 3 → c.waiting = none → c.desync = false →
      let hdr := s.hostRead (c.ring + 64 * c.index) 64
      let va := leAt hdr 0 8
      let len := leAt hdr 8 4
      (hdr.drop 12).all (· == 0) = true → 1 ≤ len → len ≤ c.slotBytes → va + len ≤ 2 ^ 57 →
      (s.copyLines f c va len (len / 128 + 2) c.bytes = (t, off, .all) → s.mem.wf = true →
        ChannelThen (exec (.channelCopyComplete f n none) s) f n
          (fun c' => c' = { c with dc := (c.dc + 1) % 2 ^ 32, copying := 0, bytes := 0 }) ∧
        Then (exec (.channelCopyComplete f n none) s) fun s' => s'.hostRead c.shadow 8 = natLe 8 ((c.dc + 1) % 2 ^ 32) ∧
          (Unmasked s f c.vec → s'.hst.irqs = s.hst.irqs ++ [(f, c.vec)])) ∧
      (∀ k, k ≤ len → s.copyLines f c va k (k / 128 + 2) c.bytes = (t, off, .all) →
        ChannelThen (exec (.channelCopyComplete f n (some k)) s) f n fun c' => c'.desync = true ∧ c'.cause = 3 ∧ c'.lost = c.dc ∧
          c'.bytes = off))

/-- R8, R340, R353, R358 to R361, R369, R370, R390, R397: A 64-bit write takes the bits of its register's fields and a
32-bit write those of its half, and they read back; reserved bits are not taken, are filed with severity 0 and read as
0 (log entries 29, 99); the answer and the lost-line registers act as their own steps; the physical function's block
is out of the others' reach. An access to BAR 2 is a doorbell, or one of device memory that completes in order, or is
refused outside the aperture (log entries 26, 38); a channel's doorbell moves DP or puts it into DESYNC, where a copy
under way goes on; a slot that is copied steps DC, its shadow and its vector, and a host abort puts the channel into
DESYNC. -/
def Obligations.HostAccesses : Prop := Claims.RegisterWrites ∧ Claims.WindowAndChannels

/-- R362, R409, R399, R351, R391 (log entries 75, 76): a function-level reset leaves nothing of the function's launches, queues, channels and faults, and
keeps what the physical function gave it; a module reset leaves no launch, team or memory contents but the host's; a ring that
still holds records raises its vector again; without power only the power is gone. -/
def Obligations.ResetsAndHoldoffs : Prop :=
  ∀ (s : State),
    (∀ f, f < s.hst.funcs.length → Then (exec (.functionLevelReset f) s) fun s' =>
      (∀ l ∈ s'.lch.launches, l.func ≠ f) ∧ (∀ q ∈ s'.lch.queues, q.func ≠ f) ∧ (s'.func f).channels = [] ∧ (s'.func f).faults = [] ∧
      (s'.func f).aqCtl = 0 ∧ (s'.func f).fqCtl = 0 ∧ (s'.func f).slice = (s.func f).slice ∧ (s'.func f).permit = (s.func f).permit ∧
      (s'.func f).nextLaunch = (s.func f).nextLaunch) ∧
    (∀ b, Then (exec (.moduleReset b) s) fun s' =>
      s'.pow.powered = true ∧ s'.cycle = 0 ∧ s'.core.parts = [] ∧ s'.core.groups = [] ∧ s'.lch.launches = [] ∧ s'.lch.queues = [] ∧
      s'.mem = { s.mem with dev := [], meadow := [] } ∧ s'.svc.svns = s.svc.svns ∧ s'.svc.spareRows = s.svc.spareRows ∧
      s'.hst.ready = !(b.copies.any (· == 0))) ∧
    (s.errorHoldoff = true →
      (s.svc.errProd = s.svc.errCons → exec .interruptHoldoffExpiry s = .next { s with svc := { s.svc with errIrq := 0 } }) ∧
      (s.svc.errProd ≠ s.svc.errCons → Unmasked s 0 (bitsNat s.svc.errCtl.toNat 47 32) →
        exec .interruptHoldoffExpiry s = .next { s with
          svc := { s.svc with errIrq := s.cycle + 4096 }
          hst := { s.hst with irqs := s.hst.irqs ++ [(0, bitsNat s.svc.errCtl.toNat 47 32)] } })) ∧
    (∀ g, s.errorHoldoff = false → HoldsOff s g →
      (g.fqProd = g.fqCons → FuncThen (exec .interruptHoldoffExpiry s) g.func fun g' => g' = { g with fqIrq := 0 }) ∧
      (g.fqProd ≠ g.fqCons → Unmasked s g.func (bitsNat g.fqCtl.toNat 47 32) →
        Then (exec .interruptHoldoffExpiry s) fun s' => s'.func g.func = { g with fqIrq := s.cycle + 4096 } ∧
          s'.hst.irqs = s.hst.irqs ++ [(g.func, bitsNat g.fqCtl.toNat 47 32)])) ∧
    exec .powerLoss s = .next { s with pow := { s.pow with powered := false } }

namespace Sys2Proof.Claims

/-! ### Power and the rack (R249, R254, R336 to R338, R402 to R407) -/

/-- The die in its own place. -/
def HasDie (s : State) (d : Die) : Prop := d.die < s.pow.dies.length ∧ s.dieAt d.die = d

/-- A die after a step. -/
def DieThen (a : Answer) (n : Nat) (P : Die → Prop) : Prop := Then a fun s' => P (s'.dieAt n)

/-- The level a boundary grants a die while the firmware is at work and no watchdog holds it (R337, R338, R404, R407). -/
def grantedLevel (s : State) (d : Die) : Nat :=
  let leased := match d.lease with | some l => l.begun || decide (l.start ≤ s.cycle) | none => false
  let base := if leased then 7 else Nat.min s.pow.ceiling (levelFor s.pow.watts)
  let held := match d.capLevel with | some l => Nat.min base l | none => base
  if d.tripped then 0 else held - d.thermal - d.current

/-- A rack message counts: it comes from the endpoint of the rack and is newer than the last (R406). -/
def Fresh (s : State) (endpoint : Nat) (n : W32) : Prop := endpoint = Config.capEndpoint ∧ s.pow.newer n = true

end Sys2Proof.Claims

/-- R249, R337, R338, R254, R404, R407, R403 (log entries 12, 33): a boundary grants every die its level and its bulk, the
table's or less where the damper grants less; a droop cuts bulk, the third in a
second lowers the die, and release and hold end as they are due; leases are revoked with notice and end with a cooldown; the
three temperatures of the threshold block, at reset 100, 105 and 115 degrees, lower a die, force L0 or remove power; the watchdog takes over from a silent firmware. -/
def Sys2Proof.Claims.PowerRuns : Prop :=
  ∀ (s : State),
    (s.boundaryDue = true → s.pow.restarting = false → s.pow.watchdog = none → Then (exec .revolutionBoundary s) fun s' =>
      s'.pow.turns = s.cycle / 129 + 1 ∧ s'.pow.dies.map (fun d => (d.level, d.bulk, d.resume)) =
        s.pow.dies.map fun d => (grantedLevel s d, levelBulk.getD (grantedLevel s d) 0 - Config.bulkLess (s.cycle / 129) d.die, false)) ∧
    (State.reset.svc.warm = 100 ∧ State.reset.svc.trip = 105 ∧ State.reset.svc.burn = 115) ∧
    (∀ d, HasDie s d →
      (d.cut.isSome = true → exec (.droopCut d.die) s = .next (s.modDie d.die fun d => { d with cut := some s.cycle })) ∧
      (d.cut = none → Then (exec (.droopCut d.die) s) (fun s' => FiledOne s s' 0) ∧ DieThen (exec (.droopCut d.die) s) d.die fun d' =>
        d'.cut = some s.cycle ∧ d'.ring = List.replicate 129 0 ∧
        (2 ≤ (d.cuts.filter fun c => decide (s.cycle < c + 800000000)).length → d'.current = 1 ∧ d'.holdEnd = some (s.cycle + 800000000)) ∧
        ((d.cuts.filter fun c => decide (s.cycle < c + 800000000)).length < 2 → d'.current = d.current ∧ d'.holdEnd = d.holdEnd)) ∧
      (s.limiterDue = some d → DieThen (exec .limiterRelease s) d.die fun d' => d'.cut = none ∧ d'.resume = true ∧
        (s.pow.firmware = true → d'.capLevel = none) ∧
        (s.pow.firmware = false → d'.capLevel = some (Nat.min d.level (levelFor s.pow.safeCap)))) ∧
      (s.holdDue = some d → DieThen (exec .limiterHoldEnd s) d.die fun d' => d' = { d with holdEnd := none, current := 0 }) ∧
      (∀ l, d.lease = some l → l.revoked = false → (s.func l.func).aqCtl.getLsbD 8 = true → l.func < s.hst.funcs.length → s.mem.wf = true →
        let stop := boundaryFrom (s.cycle + 8000000)
        DieThen (exec (.leaseRevoke d.die) s) d.die (fun d' => d' = { d with lease := some { l with revoked := true, stop := Nat.min l.stop stop } }) ∧
        Then (exec (.leaseRevoke d.die) s) fun s' => Posted s s' l.func 0xFFFF 0 (BitVec.ofNat 64 (1 + 2 ^ 8 * stop))) ∧
      (∀ l, s.leaseDue = some (d, l) → DieThen (exec .leaseEnd s) d.die fun d' =>
        d' = { d with lease := none, cooldown := s.cycle + 4 * (s.cycle - l.start) }) ∧
      (∀ c, s.svc.burn ≤ c → Then (exec (.thermalThreshold d.die c) s) fun s' => s'.pow = { s.pow with powered := false } ∧ FiledOne s s' 4 ∧
        s'.svc.flash ≠ []) ∧
      (∀ c, s.svc.trip ≤ c → c < s.svc.burn → DieThen (exec (.thermalThreshold d.die c) s) d.die fun d' => d' = { d with tripped := true }) ∧
      (∀ c, s.svc.warm ≤ c → c < s.svc.trip → c < s.svc.burn → d.hot = false → DieThen (exec (.thermalThreshold d.die c) s) d.die fun d' =>
        d' = { d with hot := true, thermal := 1, stepAt := s.cycle + 8000000 }) ∧
      (s.thermalDue = some d → DieThen (exec .thermalStepDown s) d.die fun d' =>
        d' = { d with thermal := d.thermal + 1, stepAt := s.cycle + 8000000 }) ∧
      (∀ c, c ≤ s.svc.warm → c ≤ s.svc.trip → DieThen (exec (.temperatureFall d.die c) s) d.die fun d' => d' = { d with tripped := false, hot := false, thermal := 0 }) ∧
      (∀ c, s.svc.warm < c → c ≤ s.svc.trip → DieThen (exec (.temperatureFall d.die c) s) d.die fun d' => d' = { d with tripped := false })) ∧
    (s.pow.heartbeat = true → Then (exec .heartbeatTimeout s) fun s' => FiledOne s s' 3 ∧
      s'.pow = { s.pow with heartbeat := false, restarting := true, watchdog := some s.cycle }) ∧
    (Then (exec .damperRestart s) fun s' => s'.pow = { s.pow with heartbeat := true, restarting := false,
                                                                  dies := s.pow.dies.map fun d => { d with capLevel := none } })

/-- R406, R405, R403: a rack message that is stale, late or from elsewhere is ignored; a cap in time is in force and lets the
watchdog go, one under 900 W is filed besides, and a cap that expires leaves the safe cap. -/
def Sys2Proof.Claims.RackMessages : Prop :=
  ∀ (s : State) (endpoint watts : Nat) (n : W32) (t : W64),
    (¬Fresh s endpoint n → exec (.rackTimeMessage endpoint n t) s = .next s ∧ exec (.rackCapMessage endpoint watts n t) s = .next s) ∧
    (Fresh s endpoint n →
      exec (.rackTimeMessage endpoint n t) s = .next { s with pow := { s.pow with rackClock := some (t.toNat, s.cycle), lastSeq := some n } } ∧
      (∀ now, s.pow.rackTime s.cycle = some now →
        (t.toNat ≤ now → exec (.rackCapMessage endpoint watts n t) s = .next s) ∧
        (now < t.toNat → s.pow.l0 = false → Then (exec (.rackCapMessage endpoint watts n t) s) fun s' =>
          s'.pow.limit = watts ∧ s'.pow.rackCap = some (watts, t.toNat) ∧ s'.pow.lastSeq = some n ∧
          (s.pow.firmware = true → s'.pow.watchdog = none) ∧ (s.pow.firmware = false → s'.pow.watchdog = s.pow.watchdog) ∧
          (900 ≤ watts → FiledOne s s' 0) ∧
          (watts < 900 → s'.svc.bySev = (s.svc.bySev.modify 0 (· + 1)).modify 5 (· + 1))))) ∧
    (s.capLapsed = true → s.pow.l0 = false → Then (exec .capExpiry s) fun s' => s'.pow.limit = s.pow.safeCap ∧ FiledOne s s' 0)

/-- R249, R254, R337, R338, R403 to R407: A boundary grants every die its level and its bulk, the table's or less where
the damper grants less; a droop cuts bulk, the third in a second lowers the die, and release and hold end as they are
due; leases are revoked with notice and end with a cooldown; the three temperatures of the threshold block, at reset
100, 105 and 115 degrees, lower a die, force L0 or remove power; the watchdog takes over from a silent firmware. A
rack message that is stale, late or from elsewhere is ignored; a cap in time is in force and lets the watchdog go, one
under 900 W is filed besides, and a cap that expires leaves the safe cap. -/
def Obligations.PowerAndRack : Prop := Claims.PowerRuns ∧ Claims.RackMessages

namespace Sys2Proof.Claims

/-! ### Sweeps and updates (R86, R396 to R400) -/

/-- The service controller after a step. -/
def SvcThen (a : Answer) (P : Service → Prop) : Prop := Then a fun s' => P s'.svc

/-- The controller as a sweep of this stove begins: the stove is withdrawn from placement (R396, R397). -/
def Sweeps (s : State) (stove : Nat) (v : Service) : Prop := v.sweepPhase = 1 ∧ v.sweepStove = stove ∧ stove ∈ v.withdrawn ∧ v.sweepFailed = 0 ∧
  (stove, s.cycle) ∈ v.sweeps ∧ ∀ x ∈ s.svc.withdrawn, x ∈ v.withdrawn

/-- But for its signature, an image is in order and no older than what its part may go back to (R398, R399). -/
structure GoodImage (s : State) (i : UpdateImage) : Prop where
  header : badHeader i = false
  digest : i.digestOk = true
  number : s.svc.svns.getD (i.part - 1) 0 ≤ i.svn
  tables : i.part = 5 → ∀ hr ∈ s.core.hearths, hr.rebuild = 0

/-- GO is refused for a reason, and nothing is staged (R399). -/
def Refused (s : State) (flashOk : Bool) (why : Nat) : Prop :=
  SvcThen (exec (.updateGo flashOk) s) fun v => v.updState = 5 ∧ v.updReason = why ∧ v.update = none

/-- The part's image is active: its other bank is in use (R400). -/
def Active (s : State) (i : UpdateImage) (v : Service) : Prop :=
  v.updState = 4 ∧ v.update = none ∧ v.banks = s.svc.banks.modify (i.part - 1) (fun b => 1 - b) ∧
  v.versions = s.svc.versions.set (i.part - 1) i.version ∧
  v.svns = if i.flags.getLsbD 0 then s.svc.svns.set (i.part - 1) i.svn else s.svc.svns

end Sys2Proof.Claims

/-- R396, R397: a sweep runs drain, scan, arrays and filing in turn; a position that failed is retired and the stove returns to
placement; the sweep leaves what it tested at zero; another start while one runs is ignored. -/
def Sys2Proof.Claims.SweepRuns : Prop :=
  ∀ (s : State) (failed : BitVec 17),
    (∀ stove, s.svc.sweepPhase = 0 → SvcThen (exec (.sweepStart stove) s) (Sweeps s stove)) ∧
    (∀ stove, s.svc.sweepPhase ≠ 0 → exec (.sweepStart stove) s = .next s) ∧
    (∀ stove, s.autoSweep = some stove → SvcThen (exec .sweepAutoStart s) (Sweeps s stove)) ∧
    (s.sweepDrained = true → exec .sweepDrainEnd s = .next (s.modSvc fun v => { v with sweepPhase := 2, sweepDue := s.cycle + 1600000 })) ∧
    (s.sweepOver 2 = true → exec (.sweepScanEnd failed) s = .next (s.modSvc fun v =>
      { v with sweepPhase := 3, sweepDue := s.cycle + 2400000, sweepFailed := v.sweepFailed ||| failed })) ∧
    (s.sweepOver 3 = true → Then (exec (.sweepArrayEnd failed) s) fun s' =>
      s'.svc.sweepPhase = 4 ∧ s'.svc.sweepDue < s.cycle + 80000 ∧ s'.svc.sweepFailed = s.svc.sweepFailed ||| failed ∧
      (∀ e ∈ s'.cch.l1, stoveOf e.h ≠ s.svc.sweepStove) ∧ (∀ e ∈ s'.cch.tlb, e.stove ≠ s.svc.sweepStove) ∧
      ∀ hr ∈ s'.core.hearths, stoveOf hr.h = s.svc.sweepStove → hr.partitions = [] ∧ hr.stream = []) ∧
    (s.sweepOver 4 = true → s.svc.sweepFailed = 0 → Then (exec .sweepFilingDone s) fun s' =>
      s'.svc.sweepPhase = 0 ∧ s'.svc.sweepResult = 0 ∧ s.svc.sweepStove ∉ s'.svc.withdrawn ∧ s'.svc.retired = s.svc.retired ∧
      FiledOne s s' 0) ∧
    (∀ pos, pos < 17 → s.sweepOver 4 = true → s.svc.sweepFailed = BitVec.twoPow 17 pos → (s.svc.sweepStove, pos) ∉ s.svc.retired →
      (∀ hr ∈ s.core.hearths, s.core.hearth? hr.h = some hr) →
      SvcThen (exec .sweepFilingDone s) fun v => v.sweepPhase = 0 ∧ v.sweepResult = 1 ∧ s.svc.sweepStove ∉ v.withdrawn ∧
        v.retired = s.svc.retired ++ [(s.svc.sweepStove, pos)])

/-- R398, R399, R400, R86: an image in order is staged and another is refused with its first reason; a staged image becomes active
at its part's point, and its security number is raised when it says so; new prices step every die's generation, and new limits
are in force (log entries 33, 88, 110; the places of a payload's numbers are open, log entry 12). -/
def Sys2Proof.Claims.UpdatesRun : Prop :=
  ∀ (s : State),
    (∀ flashOk, s.svc.updState = 0 ∨ s.svc.updState = 4 ∨ s.svc.updState = 5 →
      let i := s.updateImage
      let why := fun (n : Nat) => if i.signed then n else 3
      (GoodImage s i → flashOk = true → SvcThen (exec (.updateGo flashOk) s) fun v =>
        if i.signed then v.updState = 2 ∧ v.updReason = 0 ∧ v.update = some { image := i, dies := [] }
        else v.updState = 5 ∧ v.updReason = 3 ∧ v.update = none) ∧
      (badHeader i = true → Refused s flashOk 1) ∧
      (badHeader i = false → i.digestOk = false → Refused s flashOk 2) ∧
      (badHeader i = false → i.digestOk = true → i.svn < s.svc.svns.getD (i.part - 1) 0 → Refused s flashOk (why 4)) ∧
      (∀ hr ∈ s.core.hearths, badHeader i = false → i.digestOk = true → s.svc.svns.getD (i.part - 1) 0 ≤ i.svn →
        i.part = 5 → hr.rebuild ≠ 0 → Refused s flashOk (why 5)) ∧
      (GoodImage s i → flashOk = false → Refused s flashOk (why 6))) ∧
    (∀ flashOk, s.svc.updState ≠ 0 → s.svc.updState ≠ 4 → s.svc.updState ≠ 5 → exec (.updateGo flashOk) s = .next s) ∧
    (∀ i, s.svc.update = some { image := i, dies := [] } → s.updateDue = true →
      (i.part ≠ 3 → Then (exec .updateActivate s) fun s' => Active s i s'.svc ∧ FiledOne s s' 0) ∧
      (i.part = 1 → Then (exec .updateActivate s) fun s' => s'.pow = { s.pow with restarting := false, heartbeat := true }) ∧
      (i.part = 5 → Then (exec .updateActivate s) fun s' => s'.pow.dies.map (fun d => (d.prices, d.gen)) =
        s.pow.dies.map fun d => ((List.range 64).map (fun k => i.payload.getD k 0), d.gen + 1)) ∧
      (i.part = 7 → Then (exec .updateActivate s) fun s' => s'.pow.safeCap = i.payload.headD s.pow.safeCap ∧
        s'.svc.thresholds = (i.payload.drop 1).take 14)) ∧
    (∀ i dies d, s.svc.update = some { image := i, dies := dies } → i.part = 3 → s.updateDue = true → dies.length < 3 →
      ((List.range 4).find? fun d => !(dies.contains d) && s.noRefill d) = some d →
      SvcThen (exec .updateActivate s) fun v => v.updState = 3 ∧ v.update = some { image := i, dies := dies ++ [d] })

/-- R86, R396 to R400: A sweep runs drain, scan, arrays and filing in turn; a position that failed is retired and the
stove returns to placement; the sweep leaves what it tested at zero; another start while one runs is ignored. An image
in order is staged and another is refused with its first reason; a staged image becomes active at its part's point,
and its security number is raised when it says so; new prices step every die's generation, and new limits are in force
(log entries 33, 88, 110; the places of a payload's numbers are open, log entry 12). -/
def Obligations.ServiceRuns : Prop := Claims.SweepRuns ∧ Claims.UpdatesRun

namespace Sys2Proof.Claims

/-! ### The Heath fabric (R372 to R377, R394) -/

/-- The flits sent by a step: one answer of a type to a request, with its bytes (R374). -/
def Replies (s s' : State) (f : Flit) (type : BitVec 8) (bs : List Byte) : Prop :=
  ∃ r : Flit, s'.fab.out = s.fab.out ++ [r] ∧ r.type = type ∧ r.vc = 1 ∧ r.dst = f.src ∧ r.tag = f.tag ∧ r.src = s.fab.device.getD 0 ∧
    r.data = (bs ++ List.replicate 128 0).take 128

/-- A line can be had at its home for `n` bytes of a request. -/
def CanServe (s : State) (f : Flit) (n : Nat) : Prop := s.serves f n = true ∧ s.lineState (flitLoc f) s.core.seq f.world = .good

/-- The device's own memory, one byte. -/
def devByte (s : State) (a : Nat) : Byte := cellRead s.mem.dev a

/-- The request is outstanding no more. -/
def Settled (s s' : State) (r : Remote) : Prop := s'.fab.remotes = s.fab.remotes.filter fun q => q.tag != r.tag

/-- A line has come for whoever asked or joined, or none will, and no lane waits for it (R266, R373); where no L1's miss entry waits
for it, nothing else is asked for. -/
def LineCame (s s' : State) (r : Remote) (bs : List Byte) : Prop :=
  s'.fab.lines = s.fab.lines ++ ((r.acc, r.lanes) :: r.joins).map (fun j =>
    ({ acc := j.1, dev := r.dst, addr := r.addr, bytes := bs, since := s.cycle } : FarLine)) ∧
  (∀ j ∈ (r.acc, r.lanes) :: r.joins, ∀ a ∈ s'.core.accs, a.id = j.1 → a.remote &&& j.2 = 0) ∧
  (bs = [] ∨ (∀ m ∈ s.cch.misses, m.tag ≠ r.tag) → Settled s s' r)

/-- The instance of a collective that a flit of data belongs to (R196). -/
def instanceOf (s : State) (f : Flit) : Option Collect :=
  s.fab.collects.find? fun c => c.key == leAt f.ext 0 8 && c.inst == leAt f.ext 42 4

/-- The instance is faulty: the op that has issued it here fails (R197). -/
def InstanceFails (s' : State) (c : Collect) : Prop :=
  ∀ id, c.eng = some id → ∀ x ∈ s'.core.engs, x.id = id → x.failed.isSome = true

/-- Every field of a flit is within its width (R374). -/
def WholeFlit (f : Flit) : Prop := f.src < 256 ∧ f.dst < 256 ∧ f.world < 256 ∧ f.data.length = 128 ∧ f.ext.length = 80

/-- A new piece of a collective. -/
def pieceOf (f : Flit) : Nat × Nat × Nat × List Byte := (f.src, leAt f.ext 8 2, f.addr.toNat, f.data.take (LaneMask.count f.mask))

/-- The update that a flit carries. -/
def updateOf (f : Flit) : Nat × Nat × Nat := (leAt f.ext 0 1, leAt f.ext 1 1, leAt f.ext 2 4)

/-- A link's death has come in: it is known, it goes on to every live port once, and every request enters the drain (R376, R377). -/
def Flooded (s s' : State) (u : Nat × Nat × Nat) (live : Nat) : Prop :=
  s'.fab.seen = s.fab.seen ++ [u] ∧ s'.fab.out.length = s.fab.out.length + live ∧
  (s.fab.device ≠ some u.1 → ∀ m, s.fab.routes[u.1]? = some m → ∃ m', s'.fab.routes[u.1]? = some m' ∧ bitNat m' u.2.1 = false) ∧
  (∀ r ∈ s'.fab.remotes, r.drain.isSome = true) ∧ s'.fab.drains = s.fab.drains ++ [(s.cycle, 0, u.2.2)]

end Sys2Proof.Claims

/-- R373, R374, R333: a request that this device may serve is answered from the line's home, a write by its mask and an atomic with
the old word; one it may not is aborted, with memory as it was; a monitor's request is armed at its home; a type that is not
defined is counted and does nothing. Encodings of an atomic's OP are the model's (log entry 31). -/
def Obligations.FabricRequests : Prop :=
  ∀ (s : State) (f : Flit), s.mem.wf = true →
    (∀ n, n = 32 * f.op.toNat → 1 ≤ n → n ≤ 128 →
      (CanServe s f n → Then (exec (.flitRead f) s) fun s' => Replies s s' f 4 (s.homeRead (flitLoc f) n) ∧ s'.mem = s.mem) ∧
      (s.serves f n = false → Then (exec (.flitRead f) s) fun s' => Replies s s' f 7 [] ∧ s'.mem = s.mem)) ∧
    (f.data.length = 128 → s.serves f 128 = true → Then (exec (.flitWrite f) s) fun s' => Replies s s' f 5 [] ∧
      (∀ i, i < 128 → devByte s' ((flitLoc f).pa + i) = if f.mask.getLsbD i then f.data.getD i 0 else devByte s ((flitLoc f).pa + i)) ∧
      ∀ a, a < (flitLoc f).pa ∨ (flitLoc f).pa + 128 ≤ a → devByte s' a = devByte s a) ∧
    (s.serves f 128 = false → Then (exec (.flitWrite f) s) fun s' => Replies s s' f 7 [] ∧ s'.mem = s.mem) ∧
    (∀ kind fn w, atomicOf f.op.toNat = some (kind, fn) → kind ≠ .atomOfa → kind ≠ .atomOclose → w = LaneMask.count f.mask →
      w = 4 ∨ w = 8 → f.addr.toNat % w = 0 → CanServe s f w →
      let old := leNat (s.homeRead (flitLoc f) w)
      Then (exec (.flitAtomic f) s) fun s' => Replies s s' f 6 (natLe 16 old) ∧
        (∀ i, i < w → devByte s' ((flitLoc f).pa + i) = (natLe w (atomNew kind fn w old (leAt f.ext 0 16))).getD i 0) ∧
        ∀ a, a < (flitLoc f).pa ∨ (flitLoc f).pa + w ≤ a → devByte s' a = devByte s a) ∧
    (s.serves f 1 = true → Then (exec (.flitMonitorArm f) s) fun s' =>
      ∃ m ∈ s'.cch.monitors, m.loc = (flitLoc f).line ∧ (f.src, f.tag.toNat) ∈ m.remotes) ∧
    (Then (exec (.flitReservedType f) s) fun s' => s'.fab = { s.fab with heard := s.fab.heard + 1, linkErrors := s.fab.linkErrors + 1 } ∧
      s'.mem = s.mem ∧ s'.core = s.core)

/-- R373, R374, R375, R377, R196, R197, R266, R284: an answer ends its request and goes to who asked: a line arrives, a write is
acknowledged, an atomic's lane has its old word, an abort brings no line, fails the releases that wait for the write, or is filed, a
wake ends the split's wait; a piece of a collective joins the others of its instance, and members that differ fail (log entries 31,
77, 107). -/
def Obligations.FabricAnswers : Prop :=
  ∀ (s : State) (f : Flit) (r : Remote),
    (s.fab.asked f 1 = some r → Then (exec (.flitReadResponse f) s) fun s' => LineCame s s' r f.data ∧
      ((∀ m ∈ s.cch.misses, m.tag ≠ r.tag) → s'.mem = s.mem)) ∧
    (s.fab.asked f 2 = some r → Then (exec (.flitWriteAck f) s) fun s' => Settled s s' r ∧ s'.core = s.core ∧ s'.mem = s.mem) ∧
    (∀ a n, s.fab.asked f 3 = some r → r.acc ≠ 0 → f.mask ≠ 0 → s.core.accs.find? (fun a => a.id == r.acc) = some a →
      a.kind ≠ .acq → a.kind ≠ .rel → r.lanes.lowest = some n → a.dst ≠ [] →
      AccessThen (exec (.flitAtomicResponse f) s) a.id (fun y => y.got = a.got.set n (leAt f.data 0 16) ∧ y.done = (a.done ||| r.lanes) ∧
        y.todo = (a.todo &&& ~~~r.lanes) ∧ y.remote = (a.remote &&& ~~~r.lanes)) ∧
      (a.acquires = false → Then (exec (.flitAtomicResponse f) s) fun s' => Settled s s' r)) ∧
    (s.fab.remotes.find? (fun q => q.tag == f.tag.toNat && q.dst == f.src) = some r →
      (r.type = 1 → Then (exec (.flitAbortResponse f) s) fun s' => LineCame s s' r []) ∧
      (r.type = 2 → s.awaiting r = [] → Then (exec (.flitAbortResponse f) s) fun s' => Settled s s' r ∧ FiledOne s s' 3) ∧
      (∀ a, r.type = 2 → s.awaiting r = [a] → Then (exec (.flitAbortResponse f) s) fun s' => Settled s s' r ∧ ∀ x ∈ s'.core.accs, x.id ≠ a.id)) ∧
    (∀ g n v, s.fab.asked f 10 = some r → Stands s g.h g.slot g → g ∈ s.core.groups → n < 4 → g.splits.length = 4 →
      (g.split n).monitor = some v → v.1 = ({ tgt := 2, dev := r.dst, pa := r.addr } : Loc).key → (g.split n).state = .longwait →
      GroupThen (exec (.flitMonitorWake f) s) g.h g.slot (fun g' => (g'.split n).state = .ready ∧ (g'.split n).monitor = none) ∧
      Then (exec (.flitMonitorWake f) s) fun s' => Settled s s' r) ∧
    (leAt f.ext 42 4 < s.fab.collCount (leAt f.ext 0 8) → exec (.flitCollectiveData f) s = .next s.flitCame) ∧
    (s.fab.collCount (leAt f.ext 0 8) ≤ leAt f.ext 42 4 →
      (f.op ≠ 1 → instanceOf s f = none → Then (exec (.flitCollectiveData f) s) fun s' =>
        s'.fab.collects = s.fab.collects ++ [{ key := leAt f.ext 0 8, inst := leAt f.ext 42 4, eng := none, left := none, sent := 0,
                                               bad := false, params := (f.ext.drop 10).take 32, parts := [pieceOf f] }]) ∧
      (∀ c, f.op ≠ 1 → instanceOf s f = some c → c.params = (f.ext.drop 10).take 32 →
        Then (exec (.flitCollectiveData f) s) fun s' => instanceOf s' f = some { c with parts := c.parts ++ [pieceOf f] }) ∧
      (∀ c, instanceOf s f = some c → f.op = 1 ∨ c.params ≠ (f.ext.drop 10).take 32 →
        Then (exec (.flitCollectiveData f) s) fun s' => InstanceFails s' c))

/-- R374, R376, R377, R394, R395: the 256 bytes of a flit are read back as it (the CRC's order of bits is log entry 31); a dead link is told once to every live port, and every request outstanding enters the drain; after the
third round what is still outstanding aborts, and so does a request 1 ms old; a port spares a lane and dies below six, and a dead
port comes back or, after its third failure, asks for replacement. -/
def Obligations.FabricLinks : Prop :=
  ∀ (s : State),
    (∀ f link, WholeFlit f → readFlit (flitWire f link) = some f) ∧
    (∀ f, updateOf f ∈ s.fab.seen → Then (exec (.flitLinkState f) s) fun s' => s'.fab = { s.fab with heard := s.fab.heard + 1 }) ∧
    (∀ f, updateOf f ∉ s.fab.seen → Then (exec (.flitLinkState f) s) fun s' =>
      Flooded s s' (updateOf f) (s.fab.ports.filter fun p => !p.dead).length) ∧
    (∀ port p, s.fab.ports[port]? = some p → p.told = false → p.dead = true → Then (exec (.linkDead port) s) fun s' =>
      Flooded s s' (s.fab.device.getD 0, port, s.fab.seen.length % 2 ^ 32) (s.fab.ports.filter fun p => !p.dead).length ∧
      s'.fab.ports[port]? = some { p with told := true }) ∧
    (∀ port p, s.fab.ports[port]? = some p → p.told = true → exec (.linkDead port) s = .next s) ∧
    (∀ c k sn, s.drainDone = some (c, k, sn) → k < 2 → Then (exec .drainRoundEnd s) fun s' =>
      s'.fab.remotes = s.fab.remotes ∧ (c, k + 1, sn) ∈ s'.fab.drains) ∧
    (∀ c k sn r, s.drainDone = some (c, k, sn) → 2 ≤ k → s.fab.remotes.filter (fun r => r.drain == some c) = [r] → r.type = 1 →
      Then (exec .drainRoundEnd s) fun s' => LineCame s s' r [] ∧ s'.fab.drains = s.fab.drains.erase (c, k, sn)) ∧
    (∀ r, s.remoteLate = some r → r.type = 1 → Then (exec .remoteRequestTimeout s) fun s' => LineCame s s' r [] ∧ FiledOne s s' 3) ∧
    (∀ port lane p, s.fab.ports[port]? = some p → Then (exec (.laneSpareRetrain port lane) s) fun s' => FiledOne s s' 0 ∧
      s'.fab.ports[port]? = some { p with lanes := p.lanes - 1, dead := p.dead || decide (p.lanes ≤ 6) }) ∧
    (∀ port p, s.fab.ports[port]? = some p → p.dead = true → p.retrains < 3 →
      (Then (exec (.portRetrain port true) s) fun s' =>
        s'.fab.ports[port]? = some { p with dead := false, told := false, lanes := Nat.max 6 p.lanes }) ∧
      (Then (exec (.portRetrain port false) s) fun s' => s'.fab.ports[port]? = some { p with retrains := p.retrains + 1 } ∧
        (p.retrains = 2 → s.svc.repl.getLsbD 3 = false → s'.svc.repl.getLsbD 3 = true ∧ FiledOne s s' 5)))

namespace Sys2Proof.Claims

/-! ### The part as a whole -/

/-- Every team's scratchpad is a canonical list of bytes (log entry 1). -/
def PadsCanonical (s : State) : Prop :=
  (∀ p ∈ s.core.parts, cellsWf p.scratch = true) ∧
  ∀ l ∈ s.lch.launches, ∀ t ∈ l.teams, ∀ x ∈ t.saved, cellsWf x.part.scratch = true

/-- The registers, tiles and flags of a group. -/
def regsOf (g : Group) : List Vec × List LaneMask × List W64 × List W64 × List Tile × BitVec 5 × Bool × BitVec 3 :=
  (g.v, g.k, g.sh, g.a, g.acc, g.fflags, g.isat, g.fctl)

/-- The header of an op with guard k0, not squashable. -/
def plainHdr : Hdr := { gpol := false, gpred := 0, sq := false }

end Sys2Proof.Claims

/-- R10, R88 to R91: these words, written out bit by bit from the maps, are these ops. -/
def Obligations.WordsDecode : Prop :=
  -- S: add s5, s1, s2, 32 bits, squashable, guard !k3
  decode .s (0x0000#16 ++ 0x00#8 ++ 0b01#2 ++ 0b00#2 ++ 0b0000#4 ++ 0b000010#6 ++ 0b000001#6 ++ 0b000101#6 ++ 0b1#1 ++ 0b0011#4 ++ 0b1#1 ++ 0x01#8) =
    some (.add { hdr := { gpol := true, gpred := 3, sq := true }, aux := 0, width := 1, bsel := 0, func := 0, sb := 2, sa := 1, sd := 5 }) ∧
  -- C: brc on s7, FUNC 1, target by literal
  decode .c (0x000000#24 ++ 0x00#8 ++ 0b00#2 ++ 0b0001#4 ++ 0b000000#6 ++ 0b000111#6 ++ 0b0#1 ++ 0b0000#4 ++ 0b0#1 ++ 0x02#8) =
    some (.brc { hdr := Claims.plainHdr, aux := 0, tsel := 0, func := 1, sb := 0, sa := 7 }) ∧
  -- V0: vfma.f32 v6, v1, v2, v3, saturating, RM 2
  decode .v0 (0b0000000#7 ++ 0b0000#4 ++ 0b00000#5 ++ 0b00#2 ++ 0b1#1 ++ 0b10#2 ++ 0b00000#5 ++ 0b000011#6 ++ 0b000010#6 ++ 0b000001#6 ++
      0b000110#6 ++ 0b0#1 ++ 0b0000#4 ++ 0b0#1 ++ 0x04#8) =
    some (.vfma { hdr := Claims.plainHdr, unit1 := false, rsv := 0, func := 0, fmt2 := 0, bsel := 0, sat := true, rm := 2, fmt := 0,
                  vc := 3, vb := 2, va := 1, vd := 6 }) ∧
  -- V1: vicmp k4, v9, v10, FUNC 5
  decode .v1 (0b0000000#7 ++ 0b0101#4 ++ 0b00000#5 ++ 0b00#2 ++ 0b0#1 ++ 0b00#2 ++ 0b00000#5 ++ 0b000000#6 ++ 0b001010#6 ++ 0b001001#6 ++
      0b000100#6 ++ 0b0#1 ++ 0b0000#4 ++ 0b0#1 ++ 0x1A#8) =
    some (.vicmp { hdr := Claims.plainHdr, unit1 := true, rsv := 0, func := 5, fmt2 := 0, bsel := 0, sat := false, rm := 0, fmt := 0,
                   vc := 0, vb := 10, va := 9, vd := 4 }) ∧
  -- F: fsig v8, v7
  decode .f (0x00000000#32 ++ 0b0#1 ++ 0b00000#5 ++ 0b000111#6 ++ 0b001000#6 ++ 0b0#1 ++ 0b0000#4 ++ 0b0#1 ++ 0x09#8) =
    some (.fsig { hdr := Claims.plainHdr, rsv := false, fmt := 0, va := 7, vd := 8 }) ∧
  -- X: xperm v3, v4 by pattern 200 (static map), and xrot v3, v4 by 12
  decode .x (0x00000000#32 ++ 0b11001000#8 ++ 0b00100#5 ++ 0b00011#5 ++ 0b0#1 ++ 0b0000#4 ++ 0b0#1 ++ 0x01#8) =
    some (.xperm { hdr := Claims.plainHdr, pat := 200, va := 4, vd := 3 }) ∧
  decode .x (0x00000000#32 ++ 0b001100#6 ++ 0b000100#6 ++ 0b000011#6 ++ 0b0#1 ++ 0b0000#4 ++ 0b0#1 ++ 0x06#8) =
    some (.xrot { hdr := Claims.plainHdr, aux := 12, va := 4, vd := 3 }) ∧
  -- M: ld.g of 16 bits, sign-extended, v5 from a2 plus s3 plus -2
  decode .m (0b0#1 ++ 0b00#2 ++ 0b010#3 ++ 0b0000#4 ++ 0b000#3 ++ 0xFFE#12 ++ 0b01#2 ++ 0b1#1 ++ 0b001#3 ++ 0b1#1 ++ 0b000011#6 ++ 0b100010#6 ++
      0b000101#6 ++ 0b0#1 ++ 0b0000#4 ++ 0b0#1 ++ 0x01#8) =
    some (.ldG { hdr := Claims.plainHdr, vidx := false, ord := 0, scope := 2, func := 0, rot := 0, disp := 0xFFE, offsel := 1, sx := true,
                 width := 1, idxen := true, index := 3, base := 0x22, data := 5 }) ∧
  -- A: gth with tag 3 after tags 1 and 2
  decode .a (0x00#8 ++ 0b00#2 ++ 0b0000#4 ++ 0b10#2 ++ 0b0000#4 ++ 0b0010#4 ++ 0b0001#4 ++ 0b0011#4 ++ 0b000110#6 ++ 0b000101#6 ++ 0b000100#6 ++
      0b0#1 ++ 0b0000#4 ++ 0b0#1 ++ 0x05#8) =
    some (.gth { hdr := Claims.plainHdr, rsv := 0, func := 0, ntag := 2, ctag2 := 0, ctag1 := 2, ctag0 := 1, otag := 3, opc2 := 6, opc1 := 5,
                 opc0 := 4 }) ∧
  -- T: mma of acc2, 8-bit rate, tn4 by tn5, registers v16 and v32, twice
  decode .t (0b0000#4 ++ 0b00#2 ++ 0b000#3 ++ 0b0#1 ++ 0b0#1 ++ 0b0000#4 ++ 0b0001#4 ++ 0b0#1 ++ 0b0#1 ++ 0b100000#6 ++ 0b010000#6 ++
      0b000101#6 ++ 0b000100#6 ++ 0b01#2 ++ 0b0#1 ++ 0b10#2 ++ 0b0#1 ++ 0b0000#4 ++ 0b0#1 ++ 0x01#8) =
    some (.mma { hdr := Claims.plainHdr, rsv := 0, qg := 0, spn := 0, sat := false, incen := false, incr := 0, rep := 1, bsrc := false,
                 asrc := false, opb := 32, opa := 16, tnb := 5, tna := 4, rate := 1, rsv16 := false, acc := 2 }) ∧
  -- an idle slot, and an opcode that is not listed
  decode .s 0 = none ∧ decode .x 0x0F = some (.reservedOpcode .x 0x0F)

/-- R9, R10, R88 to R91: every slot op that is well formed is read back from its slot field with every operand, and a slot field
that an op is read from is the field of that op: no bit of the maps is dropped. -/
def Obligations.DecodeOfEncode : Prop :=
  (∀ i sl w, i.wf = true → encode i = some (sl, w) → decode sl w = some i) ∧
  (∀ i sl w, w.toNat < 2 ^ sl.width → decode sl w = some i → encode i = some (sl, w))

/-- R9, R26, R29, R33: a step carries out what it has decoded: a step of the part that stands open is exec of it; the ops of a record
are those its word decodes to, each at its own record; an op whose literal route is in order is exec of it; the bundle's ops run
one after another, the C op last. How a step is placed, and the encodings that share bits, are the model's (log entries 3 and 16). -/
def Obligations.StepRunsDecoded : Prop :=
  ∀ (s : State),
    (∀ i rest, s.pow.powered = true → s.work = .event i :: rest → step s = exec i { s with work := rest }) ∧
    (∀ h rest, s.pow.powered = true → s.work = .issue h :: rest → step s = .next (({ s with work := rest } : State).issueHearth h)) ∧
    (∀ r v o, o ∈ BundleRec.ops r v → decode o.sl (slotOf r.word o.sl) = some o.op ∧ o.hd = readHdr (slotOf r.word o.sl) ∧
      o.item = r) ∧
    (∀ (o : BundleOp) v t, view s = some v →
      routeBad (v.route o.sl) v.x.lits.length = false ∨ v.lanesOf o.sl o.hd = 0 → exec o.op s = .next t → s.opAt o = t) ∧
    (∀ b seq kill (o c : BundleOp), o.sl ≠ .c → c.sl = .c → s.runOps b seq kill [c, o] =
      ((((s.atRecord (b.ctx o.item seq kill)).opAt o).atRecord (b.ctx c.item seq kill)).opAt c))

/-- The memories stay canonical lists in every step: addresses ascend, and no listed byte is what an unlisted one reads as. The form is the model's own (log entry 1). -/
def Obligations.MemoryStaysCanonical : Prop :=
  ∀ (s s' : State), s.mem.wf = true → step s = .next s' → s'.mem.wf = true

/-- R268, R269: every scratchpad, of a team on its hearth or saved, stays a canonical list of bytes in every step: what is written to
a byte is what it reads as. At reset there is no team. -/
def Obligations.ScratchpadsStayCanonical : Prop :=
  ∀ (s s' : State), Claims.PadsCanonical s → step s = .next s' → Claims.PadsCanonical s'

/-- R409, R330: at reset the memories are canonical, no team, launch or queue is there, world 0 belongs to the physical function and
no other world to any, and every function's rings are off. What unwritten memory reads as and the values of registers without a reset column are the model's choice (log entries 1 and 5), and nothing here rests on them. -/
def Obligations.ResetHoldsNothing : Prop :=
  State.reset.mem.wf = true ∧ State.reset.core.parts = [] ∧ State.reset.core.groups = [] ∧ State.reset.lch.launches = [] ∧
  State.reset.lch.queues = [] ∧ State.reset.hst.owners = some 0 :: List.replicate 63 none ∧
  (∀ f, f < 32 → (State.reset.func f).aqCtl = 0 ∧ (State.reset.func f).fqCtl = 0) ∧ State.reset.svc.updState = 0 ∧ State.reset.cycle = 0

/-- R20, R28: what any slot op leaves as it was at issue: everything outside the hearths, and every register, tile and flag of every
group (results land later, each with its own mask); with no lane it does nothing at all. -/
def Obligations.SlotOpsLeave : Prop :=
  ∀ (s : State) (i : Instr) (sl : Slot) (w : BitVec 64), encode i = some (sl, w) →
    (∃ c, exec i s = .next { s with core := c } ∧
      ∀ h slot, (c.group? h slot).map Claims.regsOf = (s.core.group? h slot).map Claims.regsOf) ∧
    (∀ v, view s = some v → v.lanesOf sl (readHdr w) = 0 → exec i s = .next s)

/-- R103, R206, R255, R321, R337, R397: what the device's own steps leave: a step of the hearths leaves all around them and every
register as it was, a landing result and a merge all around the hearths, a step of power, of launching or of the service controller
everything but its own state. -/
def Obligations.DeviceStepsLeave : Prop :=
  ∀ (s : State),
    (∀ i ∈ [Instr.claimPlace, .mmaStInstanceStart, .releasePushComplete, .ldGsArrival, .tileShadowDone, .decodeTableRebuild,
        .refusedEntryIssue, .streamFetchFault],
      ∃ c, exec i s = .next { s with core := c } ∧
        ∀ h slot, (c.group? h slot).map Claims.regsOf = (s.core.group? h slot).map Claims.regsOf) ∧
    (∀ i ∈ [Instr.resultWriteback, .splitMerge], ∃ c, exec i s = .next { s with core := c }) ∧
    (∀ die t n w, ∀ i ∈ [Instr.limiterRelease, .limiterHoldEnd, .leaseEnd, .thermalStepDown, .damperRestart, .powerLoss,
        .temperatureFall die t, .rackTimeMessage t n w],
      ∃ q, exec i s = .next { s with pow := q }) ∧
    (∀ i ∈ [Instr.ageingExpiry, .teamReadyToReturn], ∃ q, exec i s = .next { s with lch := q }) ∧
    (∀ i ∈ [Instr.priorityPreemptTrigger, .timeSliceExpiry], ∃ c q, exec i s = .next { s with core := c, lch := q } ∧
      ∀ h slot, (c.group? h slot).map Claims.regsOf = (s.core.group? h slot).map Claims.regsOf) ∧
    (∀ stove m, ∀ i ∈ [Instr.sweepStart stove, .sweepAutoStart, .sweepDrainEnd, .sweepScanEnd m, .counterWindowSlide],
      ∃ q, exec i s = .next { s with svc := q }) ∧
    (∀ i ∈ [Instr.emberRingTake, .revolutionBoundary], ∃ c q, exec i s = .next { s with core := c, pow := q } ∧
      ∀ h slot, (c.group? h slot).map Claims.regsOf = (s.core.group? h slot).map Claims.regsOf)

end Statements
end

