-- ==== Sys2Proof/Laws/Cipher.lean ====
section
/-! SUPPORT. The lengths of a key schedule, a block and a MAC, and that an image which the device wrote passes its check. -/

namespace Sys2Proof.Machine

@[simp] theorem xorBytes_length (a b : List Byte) : (xorBytes a b).length = min a.length b.length := by simp [xorBytes]
@[simp] theorem bigBytes_length (n : Nat) : (bigBytes n).length = 16 := by simp [bigBytes]
@[simp] theorem littleBytes_length (k n : Nat) : (littleBytes k n).length = k := by simp [littleBytes]

/-- A fold keeps what each of its steps keeps. -/
theorem foldl_keeps {α β : Type} (P : α → Prop) (f : α → β → α) (h : ∀ x y, P x → P (f x y)) :
    ∀ (l : List β) (x : α), P x → P (l.foldl f x)
  | [], _, hx => hx
  | y :: l, x, hx => foldl_keeps P f h l (f x y) (h x y hx)

/-- A fold that adds one each step. -/
theorem foldl_counts {α β : Type} (n : α → Nat) (f : α → β → α) (h : ∀ x y, n (f x y) = n x + 1) :
    ∀ (l : List β) (x : α), n (l.foldl f x) = n x + l.length
  | [], _ => rfl
  | y :: l, x => by rw [List.foldl_cons, foldl_counts n f h l, h, List.length_cons]; omega

/-- The schedule of a key of 32 bytes has 60 words of four bytes. -/
theorem aesSchedule_words (key : List Byte) (hk : key.length = 32) :
    (∀ w ∈ aesSchedule key, w.length = 4) ∧ (aesSchedule key).length = 60 := by
  unfold aesSchedule
  constructor
  · refine (foldl_keeps (fun r : List (List Byte) × Byte => (∀ w ∈ r.1, w.length = 4) ∧ 8 ≤ r.1.length) _ ?_ _ _ ?_).1
    · rintro ⟨ws, rc⟩ n ⟨hw, hl⟩
      refine ⟨fun w h => ?_, by dsimp only [List.length_cons] at hl ⊢; omega⟩
      rcases List.mem_cons.mp h with rfl | h
      · dsimp only
        have h7 : (ws[7]?.getD []).length = 4 := by
          rw [List.getElem?_eq_getElem (show 7 < ws.length from hl)]; exact hw _ (List.getElem_mem _)
        have h0 : (ws.head?.getD []).length = 4 := by
          cases ws with
          | nil => simp at hl
          | cons w _ => exact hw w (List.mem_cons_self ..)
        split
        · simp [h7, h0]
        · split <;> simp [h7, h0]
      · exact hw w h
    · refine ⟨fun w h => ?_, by simp⟩
      simp only [List.mem_reverse, List.mem_map, List.mem_range] at h
      obtain ⟨i, hi, rfl⟩ := h
      simp only [List.length_take, List.length_drop, hk]
      omega
  · rw [foldl_counts (fun r : List (List Byte) × Byte => r.1.length) _ (fun _ _ => rfl)]
    simp

/-- A block stays a block. -/
theorem aes256_length (key block : List Byte) (hk : key.length = 32) : (aes256 key block).length = 16 := by
  obtain ⟨hw, hl⟩ := aesSchedule_words key hk
  have : ((aesKeys key).getD 14 []).length = 16 := by
    unfold aesKeys
    simp only [List.getD_eq_getElem?_getD, List.getElem?_map, List.getElem?_range (show 14 < 15 by decide), Option.map_some, Option.getD_some]
    rw [List.length_flatten, List.map_eq_replicate_iff.mpr (fun w h => hw w (List.mem_reverse.mp (List.mem_of_mem_drop (List.mem_of_mem_take h))))]
    simp [hl]
  rw [List.getD_eq_getElem?_getD] at this
  unfold aes256
  simp [this, aesShift]

/-- A MAC has 64 bits (R334). -/
@[simp] theorem LineMeta.mac_length (m : LineMeta) (cipher : List Byte) : (m.mac cipher).length = 8 := by
  unfold LineMeta.mac gmac
  simp [aes256_length, macKey]

/-- An image of a line outside the package, of 256 bytes of ciphertext with the metadata that the device gives it under the version
in force, passes its check (R334). -/
theorem Security.check_own (x : Security) (l : Loc) (cipher : List Byte) (count : Nat) (hl : l.coded = true) (hc : cipher.length = 256)
    (hn : littleNat (littleBytes 7 count) = count) :
    let m : LineMeta := { loc := l.line, world := x.worldOf l, draw := (x.draw (x.worldOf l)).getD 0, count := count, version := x.versionOf l }
    x.check l cipher (m.bytes cipher) = some m := by
  intro m
  have h1 : ((m.bytes cipher).drop 8).take 7 = littleBytes 7 count := by simp [LineMeta.bytes, m]
  have h2 : (m.bytes cipher).getD 15 1 = 0 := by simp [LineMeta.bytes, List.getD]
  have h3 : (m.bytes cipher).take 8 = m.mac cipher := by simp [LineMeta.bytes]
  have h4 : (m.bytes cipher).length = 16 := by simp [LineMeta.bytes]
  unfold Security.check
  simp only [h1, h2, h3, h4, hl, hc, hn]
  exact if_pos (by simp [m])

end Sys2Proof.Machine
end

