-- ==== Sys2Proof/Laws/Codec.lean ====
section
/-! SUPPORT. Each operand map reads back what it writes, keeps its opcode, and stays within its slot field (R9, R88 to
R91). -/

namespace Sys2Proof

/-- Appended low bits keep a number within its width. -/
theorem append_lt {a b k : Nat} {x : BitVec a} {y : BitVec b} (h : x.toNat < 2 ^ k) : (x ++ y).toNat < 2 ^ (k + b) := by
  rw [BitVec.toNat_append, Nat.pow_add, Nat.mul_comm]
  have hy := y.isLt
  rw [← Nat.shiftLeft_add_eq_or_of_lt hy, Nat.shiftLeft_eq]
  calc x.toNat * 2 ^ b + y.toNat < x.toNat * 2 ^ b + 2 ^ b := by omega
    _ = (x.toNat + 1) * 2 ^ b := by rw [Nat.add_mul, Nat.one_mul]
    _ ≤ 2 ^ k * 2 ^ b := Nat.mul_le_mul_right _ h
    _ = 2 ^ b * 2 ^ k := Nat.mul_comm ..

theorem readC_writeC (o : BitVec 8) (f : CFields) : readC (writeC o f) = f := by
  obtain ⟨⟨_, _, _⟩, _, _, _, _, _⟩ := f
  simp only [readC, readHdr, CFields.mk.injEq, Hdr.mk.injEq]
  refine ⟨⟨?_, ?_, ?_⟩, ?_, ?_, ?_, ?_, ?_⟩
  all_goals first
    | rfl
    | trivial
    | (apply BitVec.eq_of_getLsbD_eq
       intro i hi
       unfold slotField writeC writeHdr
       simp (disch := omega) only [BitVec.getLsbD_extractLsb', BitVec.getLsbD_append, hi, decide_true, Bool.true_and, if_pos, if_neg,
         Nat.add_sub_cancel_left, ite_true]
       try (congr 1; omega))
    | (unfold slotBit writeC writeHdr
       simp (disch := omega) only [BitVec.getLsbD_append, if_pos, if_neg, BitVec.getLsbD_ofBool]
       simp)

theorem opcode_writeC (o : BitVec 8) (f : CFields) : slotField (writeC o f) 0 8 = o := by
  apply BitVec.eq_of_getLsbD_eq
  intro i hi
  unfold slotField writeC writeHdr
  simp (disch := omega) only [BitVec.getLsbD_extractLsb', BitVec.getLsbD_append, hi, decide_true, Bool.true_and, if_pos, ite_true, Nat.zero_add]

theorem writeC_lt (o : BitVec 8) (f : CFields) : (writeC o f).toNat < 2 ^ 40 :=
  append_lt (append_lt (append_lt (append_lt (append_lt (append_lt ((by decide : (0 : BitVec 24).toNat < 2 ^ 0)))))))

theorem readS_writeS (o : BitVec 8) (f : SFields) : readS (writeS o f) = f := by
  obtain ⟨⟨_, _, _⟩, _, _, _, _, _, _, _⟩ := f
  simp only [readS, readHdr, SFields.mk.injEq, Hdr.mk.injEq]
  refine ⟨⟨?_, ?_, ?_⟩, ?_, ?_, ?_, ?_, ?_, ?_, ?_⟩
  all_goals first
    | rfl
    | trivial
    | (apply BitVec.eq_of_getLsbD_eq
       intro i hi
       unfold slotField writeS writeHdr
       simp (disch := omega) only [BitVec.getLsbD_extractLsb', BitVec.getLsbD_append, hi, decide_true, Bool.true_and, if_pos, if_neg,
         Nat.add_sub_cancel_left, ite_true]
       try (congr 1; omega))
    | (unfold slotBit writeS writeHdr
       simp (disch := omega) only [BitVec.getLsbD_append, if_pos, if_neg, BitVec.getLsbD_ofBool]
       simp)

theorem opcode_writeS (o : BitVec 8) (f : SFields) : slotField (writeS o f) 0 8 = o := by
  apply BitVec.eq_of_getLsbD_eq
  intro i hi
  unfold slotField writeS writeHdr
  simp (disch := omega) only [BitVec.getLsbD_extractLsb', BitVec.getLsbD_append, hi, decide_true, Bool.true_and, if_pos, ite_true, Nat.zero_add]

theorem writeS_lt (o : BitVec 8) (f : SFields) : (writeS o f).toNat < 2 ^ 48 :=
  append_lt (append_lt (append_lt (append_lt (append_lt (append_lt (append_lt (append_lt ((by decide : (0 : BitVec 16).toNat < 2 ^ 0)))))))))

theorem readV_writeV (o : BitVec 8) (f : VFields) : readV (writeV o f) f.unit1 = f := by
  obtain ⟨⟨_, _, _⟩, _, _, _, _, _, _, _, _, _, _, _, _⟩ := f
  simp only [readV, readHdr, VFields.mk.injEq, Hdr.mk.injEq]
  refine ⟨⟨?_, ?_, ?_⟩, ?_, ?_, ?_, ?_, ?_, ?_, ?_, ?_, ?_, ?_, ?_, ?_⟩
  all_goals first
    | rfl
    | trivial
    | (apply BitVec.eq_of_getLsbD_eq
       intro i hi
       unfold slotField writeV writeHdr
       simp (disch := omega) only [BitVec.getLsbD_extractLsb', BitVec.getLsbD_append, hi, decide_true, Bool.true_and, if_pos, if_neg,
         Nat.add_sub_cancel_left, ite_true]
       try (congr 1; omega))
    | (unfold slotBit writeV writeHdr
       simp (disch := omega) only [BitVec.getLsbD_append, if_pos, if_neg, BitVec.getLsbD_ofBool]
       simp)

theorem opcode_writeV (o : BitVec 8) (f : VFields) : slotField (writeV o f) 0 8 = o := by
  apply BitVec.eq_of_getLsbD_eq
  intro i hi
  unfold slotField writeV writeHdr
  simp (disch := omega) only [BitVec.getLsbD_extractLsb', BitVec.getLsbD_append, hi, decide_true, Bool.true_and, if_pos, ite_true, Nat.zero_add]

theorem readF_writeF (o : BitVec 8) (f : FFields) : readF (writeF o f) = f := by
  obtain ⟨⟨_, _, _⟩, _, _, _, _⟩ := f
  simp only [readF, readHdr, FFields.mk.injEq, Hdr.mk.injEq]
  refine ⟨⟨?_, ?_, ?_⟩, ?_, ?_, ?_, ?_⟩
  all_goals first
    | rfl
    | trivial
    | (apply BitVec.eq_of_getLsbD_eq
       intro i hi
       unfold slotField writeF writeHdr
       simp (disch := omega) only [BitVec.getLsbD_extractLsb', BitVec.getLsbD_append, hi, decide_true, Bool.true_and, if_pos, if_neg,
         Nat.add_sub_cancel_left, ite_true]
       try (congr 1; omega))
    | (unfold slotBit writeF writeHdr
       simp (disch := omega) only [BitVec.getLsbD_append, if_pos, if_neg, BitVec.getLsbD_ofBool]
       simp)

theorem opcode_writeF (o : BitVec 8) (f : FFields) : slotField (writeF o f) 0 8 = o := by
  apply BitVec.eq_of_getLsbD_eq
  intro i hi
  unfold slotField writeF writeHdr
  simp (disch := omega) only [BitVec.getLsbD_extractLsb', BitVec.getLsbD_append, hi, decide_true, Bool.true_and, if_pos, ite_true, Nat.zero_add]

theorem writeF_lt (o : BitVec 8) (f : FFields) : (writeF o f).toNat < 2 ^ 32 :=
  append_lt (append_lt (append_lt (append_lt (append_lt ((by decide : (0 : BitVec 32).toNat < 2 ^ 0))))))

theorem readXs_writeXs (o : BitVec 8) (f : XsFields) : readXs (writeXs o f) = f := by
  obtain ⟨⟨_, _, _⟩, _, _, _⟩ := f
  simp only [readXs, readHdr, XsFields.mk.injEq, Hdr.mk.injEq]
  refine ⟨⟨?_, ?_, ?_⟩, ?_, ?_, ?_⟩
  all_goals first
    | rfl
    | trivial
    | (apply BitVec.eq_of_getLsbD_eq
       intro i hi
       unfold slotField writeXs writeHdr
       simp (disch := omega) only [BitVec.getLsbD_extractLsb', BitVec.getLsbD_append, hi, decide_true, Bool.true_and, if_pos, if_neg,
         Nat.add_sub_cancel_left, ite_true]
       try (congr 1; omega))
    | (unfold slotBit writeXs writeHdr
       simp (disch := omega) only [BitVec.getLsbD_append, if_pos, if_neg, BitVec.getLsbD_ofBool]
       simp)

theorem opcode_writeXs (o : BitVec 8) (f : XsFields) : slotField (writeXs o f) 0 8 = o := by
  apply BitVec.eq_of_getLsbD_eq
  intro i hi
  unfold slotField writeXs writeHdr
  simp (disch := omega) only [BitVec.getLsbD_extractLsb', BitVec.getLsbD_append, hi, decide_true, Bool.true_and, if_pos, ite_true, Nat.zero_add]

theorem writeXs_lt (o : BitVec 8) (f : XsFields) : (writeXs o f).toNat < 2 ^ 32 :=
  append_lt (append_lt (append_lt (append_lt ((by decide : (0 : BitVec 32).toNat < 2 ^ 0)))))

theorem readX_writeX (o : BitVec 8) (f : XFields) : readX (writeX o f) = f := by
  obtain ⟨⟨_, _, _⟩, _, _, _⟩ := f
  simp only [readX, readHdr, XFields.mk.injEq, Hdr.mk.injEq]
  refine ⟨⟨?_, ?_, ?_⟩, ?_, ?_, ?_⟩
  all_goals first
    | rfl
    | trivial
    | (apply BitVec.eq_of_getLsbD_eq
       intro i hi
       unfold slotField writeX writeHdr
       simp (disch := omega) only [BitVec.getLsbD_extractLsb', BitVec.getLsbD_append, hi, decide_true, Bool.true_and, if_pos, if_neg,
         Nat.add_sub_cancel_left, ite_true]
       try (congr 1; omega))
    | (unfold slotBit writeX writeHdr
       simp (disch := omega) only [BitVec.getLsbD_append, if_pos, if_neg, BitVec.getLsbD_ofBool]
       simp)

theorem opcode_writeX (o : BitVec 8) (f : XFields) : slotField (writeX o f) 0 8 = o := by
  apply BitVec.eq_of_getLsbD_eq
  intro i hi
  unfold slotField writeX writeHdr
  simp (disch := omega) only [BitVec.getLsbD_extractLsb', BitVec.getLsbD_append, hi, decide_true, Bool.true_and, if_pos, ite_true, Nat.zero_add]

theorem writeX_lt (o : BitVec 8) (f : XFields) : (writeX o f).toNat < 2 ^ 32 :=
  append_lt (append_lt (append_lt (append_lt ((by decide : (0 : BitVec 32).toNat < 2 ^ 0)))))

theorem readM_writeM (o : BitVec 8) (f : MFields) : readM (writeM o f) = f := by
  obtain ⟨⟨_, _, _⟩, _, _, _, _, _, _, _, _, _, _, _, _, _⟩ := f
  simp only [readM, readHdr, MFields.mk.injEq, Hdr.mk.injEq]
  refine ⟨⟨?_, ?_, ?_⟩, ?_, ?_, ?_, ?_, ?_, ?_, ?_, ?_, ?_, ?_, ?_, ?_, ?_⟩
  all_goals first
    | rfl
    | trivial
    | (apply BitVec.eq_of_getLsbD_eq
       intro i hi
       unfold slotField writeM writeHdr
       simp (disch := omega) only [BitVec.getLsbD_extractLsb', BitVec.getLsbD_append, hi, decide_true, Bool.true_and, if_pos, if_neg,
         Nat.add_sub_cancel_left, ite_true]
       try (congr 1; omega))
    | (unfold slotBit writeM writeHdr
       simp (disch := omega) only [BitVec.getLsbD_append, if_pos, if_neg, BitVec.getLsbD_ofBool]
       simp)

theorem opcode_writeM (o : BitVec 8) (f : MFields) : slotField (writeM o f) 0 8 = o := by
  apply BitVec.eq_of_getLsbD_eq
  intro i hi
  unfold slotField writeM writeHdr
  simp (disch := omega) only [BitVec.getLsbD_extractLsb', BitVec.getLsbD_append, hi, decide_true, Bool.true_and, if_pos, ite_true, Nat.zero_add]

theorem readA_writeA (o : BitVec 8) (f : AFields) : readA (writeA o f) = f := by
  obtain ⟨⟨_, _, _⟩, _, _, _, _, _, _, _, _, _, _⟩ := f
  simp only [readA, readHdr, AFields.mk.injEq, Hdr.mk.injEq]
  refine ⟨⟨?_, ?_, ?_⟩, ?_, ?_, ?_, ?_, ?_, ?_, ?_, ?_, ?_, ?_⟩
  all_goals first
    | rfl
    | trivial
    | (apply BitVec.eq_of_getLsbD_eq
       intro i hi
       unfold slotField writeA writeHdr
       simp (disch := omega) only [BitVec.getLsbD_extractLsb', BitVec.getLsbD_append, hi, decide_true, Bool.true_and, if_pos, if_neg,
         Nat.add_sub_cancel_left, ite_true]
       try (congr 1; omega))
    | (unfold slotBit writeA writeHdr
       simp (disch := omega) only [BitVec.getLsbD_append, if_pos, if_neg, BitVec.getLsbD_ofBool]
       simp)

theorem opcode_writeA (o : BitVec 8) (f : AFields) : slotField (writeA o f) 0 8 = o := by
  apply BitVec.eq_of_getLsbD_eq
  intro i hi
  unfold slotField writeA writeHdr
  simp (disch := omega) only [BitVec.getLsbD_extractLsb', BitVec.getLsbD_append, hi, decide_true, Bool.true_and, if_pos, ite_true, Nat.zero_add]

theorem writeA_lt (o : BitVec 8) (f : AFields) : (writeA o f).toNat < 2 ^ 56 :=
  append_lt (append_lt (append_lt (append_lt (append_lt (append_lt (append_lt (append_lt (append_lt (append_lt (append_lt ((by decide : (0 : BitVec 8).toNat < 2 ^ 0))))))))))))

theorem readT_writeT (o : BitVec 8) (f : TFields) : readT (writeT o f) = f := by
  obtain ⟨⟨_, _, _⟩, _, _, _, _, _, _, _, _, _, _, _, _, _, _, _, _⟩ := f
  simp only [readT, readHdr, TFields.mk.injEq, Hdr.mk.injEq]
  refine ⟨⟨?_, ?_, ?_⟩, ?_, ?_, ?_, ?_, ?_, ?_, ?_, ?_, ?_, ?_, ?_, ?_, ?_, ?_, ?_, ?_⟩
  all_goals first
    | rfl
    | trivial
    | (apply BitVec.eq_of_getLsbD_eq
       intro i hi
       unfold slotField writeT writeHdr
       simp (disch := omega) only [BitVec.getLsbD_extractLsb', BitVec.getLsbD_append, hi, decide_true, Bool.true_and, if_pos, if_neg,
         Nat.add_sub_cancel_left, ite_true]
       try (congr 1; omega))
    | (unfold slotBit writeT writeHdr
       simp (disch := omega) only [BitVec.getLsbD_append, if_pos, if_neg, BitVec.getLsbD_ofBool]
       simp)

theorem opcode_writeT (o : BitVec 8) (f : TFields) : slotField (writeT o f) 0 8 = o := by
  apply BitVec.eq_of_getLsbD_eq
  intro i hi
  unfold slotField writeT writeHdr
  simp (disch := omega) only [BitVec.getLsbD_extractLsb', BitVec.getLsbD_append, hi, decide_true, Bool.true_and, if_pos, ite_true, Nat.zero_add]

end Sys2Proof
end

