-- ==== Sys2Proof/Laws/Mem.lean ====
section
/-! SUPPORT. Byte storage: a write is read back and leaves every other address alone, and every operation that writes a
memory keeps its canonical form. -/

namespace Sys2Proof.Machine

/-! ### One list of cells -/

/-- The head of an ascending list lies above the bound, and the rest above the head. -/
theorem cellsFrom_cons {lo : Option Nat} {k : Nat} {b : Byte} {m : List Host.Cell} :
    cellsFrom lo ((k, b) :: m) = true ↔ (∀ a ∈ lo, a < k) ∧ b ≠ 0 ∧ cellsFrom (some k) m = true := by
  cases lo <;> simp [cellsFrom, and_assoc]

/-- A list above a bound is a list. -/
theorem cellsFrom_weaken {lo lo' : Option Nat} {m : List Host.Cell} (h : cellsFrom lo m = true)
    (hlt : ∀ a ∈ lo', ∃ c ∈ lo, a ≤ c) : cellsFrom lo' m = true := by
  cases m with
  | nil => rfl
  | cons c m =>
    rw [cellsFrom_cons] at h ⊢
    refine ⟨fun a ha => ?_, h.2⟩
    obtain ⟨x, hx, hle⟩ := hlt a ha
    exact Nat.lt_of_le_of_lt hle (h.1 x hx)

/-- A list above a bound holds nothing at or below it. -/
theorem cellRead_below {a : Nat} {m : List Host.Cell} (h : cellsFrom (some a) m = true) : ∀ x ≤ a, cellRead m x = 0 := by
  induction m generalizing a with
  | nil => intros; rfl
  | cons c m ih =>
    intro x hx
    rw [cellsFrom_cons] at h
    have hk := h.1 a rfl
    rw [cellRead, if_neg (by omega)]
    exact ih h.2.2 x (by omega)

/-- Writing a byte above a bound keeps the list above it and ascending. -/
theorem cellWrite_from {lo : Option Nat} {m : List Host.Cell} {a : Nat} (b : Byte) (h : cellsFrom lo m = true)
    (ha : ∀ x ∈ lo, x < a) : cellsFrom lo (cellWrite m a b) = true := by
  induction m generalizing lo with
  | nil =>
    unfold cellWrite
    split
    · rfl
    · exact cellsFrom_cons.2 ⟨ha, ‹_›, rfl⟩
  | cons c m ih =>
    obtain ⟨k, d⟩ := c
    have hc := cellsFrom_cons.1 h
    unfold cellWrite
    split
    · split
      · exact h
      · exact cellsFrom_cons.2 ⟨ha, ‹_›, cellsFrom_cons.2 ⟨fun x hx => by cases hx; assumption, hc.2⟩⟩
    · split
      · split
        · exact cellsFrom_weaken hc.2.2 fun x hx => ⟨k, rfl, Nat.le_of_lt (hc.1 x hx)⟩
        · exact cellsFrom_cons.2 ⟨hc.1, ‹_›, hc.2.2⟩
      · exact cellsFrom_cons.2 ⟨hc.1, hc.2.1, ih hc.2.2 fun x hx => by cases hx; omega⟩

/-- Writing a byte keeps the canonical form. -/
theorem cellWrite_wf {m : List Host.Cell} (a : Nat) (b : Byte) (h : cellsWf m = true) : cellsWf (cellWrite m a b) = true :=
  cellWrite_from b h (fun _ hx => nomatch hx)

/-- Writing bytes keeps the canonical form. -/
theorem cellsWrite_wf {m : List Host.Cell} (a : Nat) (bs : List Byte) (h : cellsWf m = true) :
    cellsWf (cellsWrite m a bs) = true := by
  induction bs generalizing m a with
  | nil => exact h
  | cons b bs ih => exact ih (a + 1) (cellWrite_wf a b h)

/-- Leaving out cells keeps the list ascending. -/
theorem cellsFrom_filter {lo : Option Nat} {m : List Host.Cell} (f : Host.Cell → Bool) (h : cellsFrom lo m = true) :
    cellsFrom lo (m.filter f) = true := by
  induction m generalizing lo with
  | nil => rfl
  | cons c m ih =>
    have hc := cellsFrom_cons.1 h
    rw [List.filter_cons]
    split
    · exact cellsFrom_cons.2 ⟨hc.1, hc.2.1, ih hc.2.2⟩
    · exact ih (cellsFrom_weaken hc.2.2 fun x hx => ⟨c.1, rfl, Nat.le_of_lt (hc.1 x hx)⟩)

/-- Leaving out cells keeps the canonical form. -/
theorem cells_filter_wf {m : List Host.Cell} (f : Host.Cell → Bool) (h : cellsWf m = true) : cellsWf (m.filter f) = true :=
  cellsFrom_filter f h

/-- A written byte leaves every other address alone. -/
theorem cellRead_write_ne (m : List Host.Cell) {a x : Nat} (b : Byte) (h : x ≠ a) : cellRead (cellWrite m a b) x = cellRead m x := by
  induction m with
  | nil =>
    unfold cellWrite
    split
    · rfl
    · exact if_neg (Ne.symm h)
  | cons c m ih =>
    obtain ⟨k, d⟩ := c
    unfold cellWrite
    split
    · split
      · rfl
      · exact if_neg (Ne.symm h)
    · split
      · subst ‹a = k›
        split
        · exact (if_neg (Ne.symm h)).symm
        · exact (if_neg (Ne.symm h)).trans (if_neg (Ne.symm h)).symm
      · by_cases hk : k = x
        · exact (if_pos hk).trans (if_pos hk).symm
        · exact (if_neg hk).trans (ih.trans (if_neg hk).symm)

/-- A written byte is read back. -/
theorem cellRead_write_from {lo : Option Nat} {m : List Host.Cell} (a : Nat) (b : Byte) (h : cellsFrom lo m = true) :
    cellRead (cellWrite m a b) a = b := by
  induction m generalizing lo with
  | nil =>
    unfold cellWrite
    split
    · exact ‹b = 0›.symm
    · exact if_pos rfl
  | cons c m ih =>
    obtain ⟨k, d⟩ := c
    have hc := cellsFrom_cons.1 h
    unfold cellWrite
    split
    · split
      · rw [cellRead, if_neg (by omega), cellRead_below hc.2.2 a (by omega)]
        exact ‹b = 0›.symm
      · exact if_pos rfl
    · split
      · split
        · rw [cellRead_below hc.2.2 a (by omega)]
          exact ‹b = 0›.symm
        · exact if_pos ‹a = k›.symm
      · rw [cellRead, if_neg (by omega)]
        exact ih hc.2.2

/-- A byte written to a canonical memory is read back. -/
theorem cellRead_write_self {m : List Host.Cell} (a : Nat) (b : Byte) (h : cellsWf m = true) : cellRead (cellWrite m a b) a = b :=
  cellRead_write_from a b h

/-- Bytes written leave every address outside them alone. -/
theorem cellRead_cellsWrite_out (m : List Host.Cell) (a : Nat) (bs : List Byte) {x : Nat} (h : x < a ∨ a + bs.length ≤ x) :
    cellRead (cellsWrite m a bs) x = cellRead m x := by
  induction bs generalizing m a with
  | nil => rfl
  | cons b bs ih =>
    rw [List.length_cons] at h
    exact (ih (cellWrite m a b) (a + 1) (by omega)).trans (cellRead_write_ne m b (by omega))

/-- Bytes written to a canonical memory are read back, each at its place. -/
theorem cellRead_cellsWrite_in {m : List Host.Cell} (a : Nat) (bs : List Byte) (hm : cellsWf m = true) {i : Nat} (h : i < bs.length) :
    cellRead (cellsWrite m a bs) (a + i) = bs[i] := by
  induction bs generalizing m a i with
  | nil => exact absurd h (Nat.not_lt_zero i)
  | cons b bs ih =>
    cases i with
    | zero =>
      exact (cellRead_cellsWrite_out _ (a + 1) bs (by omega)).trans (cellRead_write_self a b hm)
    | succ i =>
      have := ih (a + 1) (cellWrite_wf a b hm) (i := i) (by simpa using h)
      rw [show a + (i + 1) = a + 1 + i by omega]
      exact this

/-- Scratchpad writes keep the canonical form. -/
theorem padPut_wf {m : List Host.Cell} (rot x : Nat) (bs : List Byte) (h : cellsWf m = true) : cellsWf (padPut m rot x bs) = true := by
  induction bs generalizing m x with
  | nil => exact h
  | cons b bs ih => exact ih (x + 1) (cellWrite_wf _ b h)

/-! ### The three memories -/

/-- The memories are canonical when each of them is. -/
theorem mems_wf {m : Mems} : m.wf = true ↔ cellsWf m.dev = true ∧ cellsWf m.host = true ∧ cellsWf m.meadow = true := by
  simp [Mems.wf, and_assoc]

/-- A change that keeps one memory canonical keeps them all so. -/
theorem modSpace_wf {m : Mems} (tgt : Nat) {f : List Host.Cell → List Host.Cell} (h : m.wf = true)
    (hf : ∀ c, cellsWf c = true → cellsWf (f c) = true) : (m.modSpace tgt f).wf = true := by
  obtain ⟨h1, h2, h3⟩ := mems_wf.1 h
  unfold Mems.modSpace
  split
  · exact mems_wf.2 ⟨hf _ h1, h2, h3⟩
  · exact mems_wf.2 ⟨h1, hf _ h2, h3⟩
  · exact mems_wf.2 ⟨h1, h2, hf _ h3⟩

/-- Bytes that reach a home keep the memories canonical. -/
theorem homeWrite_wf {s : State} (l : Loc) (bs : List Byte) {w : Nat} (h : s.mem.wf = true) : (s.homeWrite l bs w).mem.wf = true :=
  modSpace_wf l.tgt h fun _ hc => cellsWrite_wf l.pa bs hc

/-- So do bytes under a mask. -/
theorem homeWriteMask_wf {s : State} (l : Loc) (mask : Nat → Bool) (bs : List Byte) {w : Nat} (h : s.mem.wf = true) :
    (s.homeWriteMask l mask bs w).mem.wf = true := by
  unfold State.homeWriteMask
  split
  · exact homeWrite_wf l bs h
  · generalize List.range bs.length = is
    induction is generalizing s with
    | nil => exact h
    | cons i is ih =>
      rw [List.foldl_cons]
      split
      · exact ih (homeWrite_wf _ _ h)
      · exact ih h

/-- So do the device's own writes of host memory. -/
theorem hostWrite_wf {s : State} (pa : Nat) (bs : List Byte) (h : s.mem.wf = true) : (s.hostWrite pa bs).mem.wf = true := by
  obtain ⟨h1, h2, h3⟩ := mems_wf.1 h
  exact mems_wf.2 ⟨h1, cellsWrite_wf pa bs h2, h3⟩

/-- So does the clearing of a meadow unit (R332). -/
theorem zeroUnit_wf {s : State} (die unit : Nat) (h : s.mem.wf = true) : (s.zeroUnit die unit).mem.wf = true := by
  obtain ⟨h1, h2, h3⟩ := mems_wf.1 h
  exact mems_wf.2 ⟨h1, h2, cells_filter_wf _ h3⟩

/-- The memory of a home after a write to it. -/
theorem homeWrite_space (s : State) (l : Loc) (bs : List Byte) (w : Nat) :
    (s.homeWrite l bs w).mem.space l.tgt = cellsWrite (s.mem.space l.tgt) l.pa bs := by
  change (s.mem.modSpace l.tgt fun m => cellsWrite m l.pa bs).space l.tgt = _
  generalize l.tgt = t
  obtain _ | _ | t := t <;> rfl

end Sys2Proof.Machine
end

