-- ==== Sys2Proof/Laws/PerInstr.lean ====
section
/-! SUPPORT. A fact of every constructor: the word of a well-formed slot op lies within its slot's field and is not that of an
idle slot (R9, R10). -/

namespace Sys2Proof.Laws.Encodable

/-- The word of the step, where it has one, fits its slot and names an op. -/
def Statement (i : Instr) : Prop :=
  ∀ sl w, encode i = some (sl, w) → i.wf = true → w.toNat < 2 ^ sl.width ∧ slotField w 0 8 ≠ 0

/-- A step of the device has no word. -/
theorem of_none {i : Instr} (h : encode i = none) : Statement i := fun sl w he => by rw [h] at he; cases he

/-- One word in one slot. -/
theorem of_word {i : Instr} {sl' : Slot} {x : BitVec 64} (h : encode i = some (sl', x)) (hl : x.toNat < 2 ^ sl'.width)
    (ho : slotField x 0 8 ≠ 0) : Statement i := fun sl w he _ => by rw [h] at he; cases he; exact ⟨hl, ho⟩

/-- A word of either V unit. -/
theorem of_vector {i : Instr} {b : Bool} {x : BitVec 64} (h : encode i = some (if b then .v1 else .v0, x))
    (ho : slotField x 0 8 ≠ 0) : Statement i := fun sl w he _ => by
  rw [h] at he
  cases b <;> cases he <;> exact ⟨x.isLt, ho⟩

theorem br (f : CFields) : Statement (.br f) := of_word rfl (writeC_lt _ f) (by rw [opcode_writeC]; decide)
theorem brc (f : CFields) : Statement (.brc f) := of_word rfl (writeC_lt _ f) (by rw [opcode_writeC]; decide)
theorem bri (f : CFields) : Statement (.bri f) := of_word rfl (writeC_lt _ f) (by rw [opcode_writeC]; decide)
theorem brd (f : CFields) : Statement (.brd f) := of_word rfl (writeC_lt _ f) (by rw [opcode_writeC]; decide)
theorem brx (f : CFields) : Statement (.brx f) := of_word rfl (writeC_lt _ f) (by rw [opcode_writeC]; decide)
theorem call (f : CFields) : Statement (.call f) := of_word rfl (writeC_lt _ f) (by rw [opcode_writeC]; decide)
theorem callScalar (f : CFields) : Statement (.callScalar f) := of_word rfl (writeC_lt _ f) (by rw [opcode_writeC]; decide)
theorem ret (f : CFields) : Statement (.ret f) := of_word rfl (writeC_lt _ f) (by rw [opcode_writeC]; decide)
theorem join (f : CFields) : Statement (.join f) := of_word rfl (writeC_lt _ f) (by rw [opcode_writeC]; decide)
theorem brk (f : CFields) : Statement (.brk f) := of_word rfl (writeC_lt _ f) (by rw [opcode_writeC]; decide)
theorem brkScalar (f : CFields) : Statement (.brkScalar f) := of_word rfl (writeC_lt _ f) (by rw [opcode_writeC]; decide)
theorem exit (f : CFields) : Statement (.exit f) := of_word rfl (writeC_lt _ f) (by rw [opcode_writeC]; decide)
theorem trap (f : CFields) : Statement (.trap f) := of_word rfl (writeC_lt _ f) (by rw [opcode_writeC]; decide)
theorem tret (f : CFields) : Statement (.tret f) := of_word rfl (writeC_lt _ f) (by rw [opcode_writeC]; decide)
theorem seq (f : CFields) : Statement (.seq f) := of_word rfl (writeC_lt _ f) (by rw [opcode_writeC]; decide)
theorem seqx (f : CFields) : Statement (.seqx f) := of_word rfl (writeC_lt _ f) (by rw [opcode_writeC]; decide)
theorem swp (f : CFields) : Statement (.swp f) := of_word rfl (writeC_lt _ f) (by rw [opcode_writeC]; decide)
theorem chk (f : CFields) : Statement (.chk f) := of_word rfl (writeC_lt _ f) (by rw [opcode_writeC]; decide)
theorem barArr (f : CFields) : Statement (.barArr f) := of_word rfl (writeC_lt _ f) (by rw [opcode_writeC]; decide)
theorem barWt (f : CFields) : Statement (.barWt f) := of_word rfl (writeC_lt _ f) (by rw [opcode_writeC]; decide)
theorem barSyn (f : CFields) : Statement (.barSyn f) := of_word rfl (writeC_lt _ f) (by rw [opcode_writeC]; decide)
theorem waitT (f : CFields) : Statement (.waitT f) := of_word rfl (writeC_lt _ f) (by rw [opcode_writeC]; decide)
theorem wmon (f : CFields) : Statement (.wmon f) := of_word rfl (writeC_lt _ f) (by rw [opcode_writeC]; decide)
theorem yld (f : CFields) : Statement (.yld f) := of_word rfl (writeC_lt _ f) (by rw [opcode_writeC]; decide)
theorem spawn (f : CFields) : Statement (.spawn f) := of_word rfl (writeC_lt _ f) (by rw [opcode_writeC]; decide)
theorem dbg (f : CFields) : Statement (.dbg f) := of_word rfl (writeC_lt _ f) (by rw [opcode_writeC]; decide)
theorem add (f : SFields) : Statement (.add f) := of_word rfl (writeS_lt _ f) (by rw [opcode_writeS]; decide)
theorem sub (f : SFields) : Statement (.sub f) := of_word rfl (writeS_lt _ f) (by rw [opcode_writeS]; decide)
theorem mul (f : SFields) : Statement (.mul f) := of_word rfl (writeS_lt _ f) (by rw [opcode_writeS]; decide)
theorem mulh (f : SFields) : Statement (.mulh f) := of_word rfl (writeS_lt _ f) (by rw [opcode_writeS]; decide)
theorem and (f : SFields) : Statement (.and f) := of_word rfl (writeS_lt _ f) (by rw [opcode_writeS]; decide)
theorem or (f : SFields) : Statement (.or f) := of_word rfl (writeS_lt _ f) (by rw [opcode_writeS]; decide)
theorem xor (f : SFields) : Statement (.xor f) := of_word rfl (writeS_lt _ f) (by rw [opcode_writeS]; decide)
theorem shl (f : SFields) : Statement (.shl f) := of_word rfl (writeS_lt _ f) (by rw [opcode_writeS]; decide)
theorem shr (f : SFields) : Statement (.shr f) := of_word rfl (writeS_lt _ f) (by rw [opcode_writeS]; decide)
theorem sar (f : SFields) : Statement (.sar f) := of_word rfl (writeS_lt _ f) (by rw [opcode_writeS]; decide)
theorem rot (f : SFields) : Statement (.rot f) := of_word rfl (writeS_lt _ f) (by rw [opcode_writeS]; decide)
theorem min (f : SFields) : Statement (.min f) := of_word rfl (writeS_lt _ f) (by rw [opcode_writeS]; decide)
theorem max (f : SFields) : Statement (.max f) := of_word rfl (writeS_lt _ f) (by rw [opcode_writeS]; decide)
theorem minn (f : SFields) : Statement (.minn f) := of_word rfl (writeS_lt _ f) (by rw [opcode_writeS]; decide)
theorem maxn (f : SFields) : Statement (.maxn f) := of_word rfl (writeS_lt _ f) (by rw [opcode_writeS]; decide)
theorem cmp (f : SFields) : Statement (.cmp f) := of_word rfl (writeS_lt _ f) (by rw [opcode_writeS]; decide)
theorem sel (f : SFields) : Statement (.sel f) := of_word rfl (writeS_lt _ f) (by rw [opcode_writeS]; decide)
theorem mov (f : SFields) : Statement (.mov f) := of_word rfl (writeS_lt _ f) (by rw [opcode_writeS]; decide)
theorem li (f : SFields) : Statement (.li f) := of_word rfl (writeS_lt _ f) (by rw [opcode_writeS]; decide)
theorem lea (f : SFields) : Statement (.lea f) := of_word rfl (writeS_lt _ f) (by rw [opcode_writeS]; decide)
theorem clz (f : SFields) : Statement (.clz f) := of_word rfl (writeS_lt _ f) (by rw [opcode_writeS]; decide)
theorem ctz (f : SFields) : Statement (.ctz f) := of_word rfl (writeS_lt _ f) (by rw [opcode_writeS]; decide)
theorem popc (f : SFields) : Statement (.popc f) := of_word rfl (writeS_lt _ f) (by rw [opcode_writeS]; decide)
theorem brev (f : SFields) : Statement (.brev f) := of_word rfl (writeS_lt _ f) (by rw [opcode_writeS]; decide)
theorem bfx (f : SFields) : Statement (.bfx f) := of_word rfl (writeS_lt _ f) (by rw [opcode_writeS]; decide)
theorem bfi (f : SFields) : Statement (.bfi f) := of_word rfl (writeS_lt _ f) (by rw [opcode_writeS]; decide)
theorem sext (f : SFields) : Statement (.sext f) := of_word rfl (writeS_lt _ f) (by rw [opcode_writeS]; decide)
theorem zext (f : SFields) : Statement (.zext f) := of_word rfl (writeS_lt _ f) (by rw [opcode_writeS]; decide)
theorem csrRd (f : SFields) : Statement (.csrRd f) := of_word rfl (writeS_lt _ f) (by rw [opcode_writeS]; decide)
theorem csrWr (f : SFields) : Statement (.csrWr f) := of_word rfl (writeS_lt _ f) (by rw [opcode_writeS]; decide)
theorem csrSet (f : SFields) : Statement (.csrSet f) := of_word rfl (writeS_lt _ f) (by rw [opcode_writeS]; decide)
theorem csrClr (f : SFields) : Statement (.csrClr f) := of_word rfl (writeS_lt _ f) (by rw [opcode_writeS]; decide)
theorem kset (f : SFields) : Statement (.kset f) := of_word rfl (writeS_lt _ f) (by rw [opcode_writeS]; decide)
theorem kand (f : SFields) : Statement (.kand f) := of_word rfl (writeS_lt _ f) (by rw [opcode_writeS]; decide)
theorem kor (f : SFields) : Statement (.kor f) := of_word rfl (writeS_lt _ f) (by rw [opcode_writeS]; decide)
theorem kxor (f : SFields) : Statement (.kxor f) := of_word rfl (writeS_lt _ f) (by rw [opcode_writeS]; decide)
theorem knot (f : SFields) : Statement (.knot f) := of_word rfl (writeS_lt _ f) (by rw [opcode_writeS]; decide)
theorem kpop (f : SFields) : Statement (.kpop f) := of_word rfl (writeS_lt _ f) (by rw [opcode_writeS]; decide)
theorem kfirst (f : SFields) : Statement (.kfirst f) := of_word rfl (writeS_lt _ f) (by rw [opcode_writeS]; decide)
theorem vadd (f : VFields) : Statement (.vadd f) := of_vector (b := f.unit1) rfl (by rw [opcode_writeV]; decide)
theorem vsub (f : VFields) : Statement (.vsub f) := of_vector (b := f.unit1) rfl (by rw [opcode_writeV]; decide)
theorem vmul (f : VFields) : Statement (.vmul f) := of_vector (b := f.unit1) rfl (by rw [opcode_writeV]; decide)
theorem vfma (f : VFields) : Statement (.vfma f) := of_vector (b := f.unit1) rfl (by rw [opcode_writeV]; decide)
theorem vfms (f : VFields) : Statement (.vfms f) := of_vector (b := f.unit1) rfl (by rw [opcode_writeV]; decide)
theorem vfnma (f : VFields) : Statement (.vfnma f) := of_vector (b := f.unit1) rfl (by rw [opcode_writeV]; decide)
theorem vmin (f : VFields) : Statement (.vmin f) := of_vector (b := f.unit1) rfl (by rw [opcode_writeV]; decide)
theorem vmax (f : VFields) : Statement (.vmax f) := of_vector (b := f.unit1) rfl (by rw [opcode_writeV]; decide)
theorem vabs (f : VFields) : Statement (.vabs f) := of_vector (b := f.unit1) rfl (by rw [opcode_writeV]; decide)
theorem vneg (f : VFields) : Statement (.vneg f) := of_vector (b := f.unit1) rfl (by rw [opcode_writeV]; decide)
theorem vcpys (f : VFields) : Statement (.vcpys f) := of_vector (b := f.unit1) rfl (by rw [opcode_writeV]; decide)
theorem vcmp (f : VFields) : Statement (.vcmp f) := of_vector (b := f.unit1) rfl (by rw [opcode_writeV]; decide)
theorem vclass (f : VFields) : Statement (.vclass f) := of_vector (b := f.unit1) rfl (by rw [opcode_writeV]; decide)
theorem vcvt (f : VFields) : Statement (.vcvt f) := of_vector (b := f.unit1) rfl (by rw [opcode_writeV]; decide)
theorem vrnd (f : VFields) : Statement (.vrnd f) := of_vector (b := f.unit1) rfl (by rw [opcode_writeV]; decide)
theorem vldexp (f : VFields) : Statement (.vldexp f) := of_vector (b := f.unit1) rfl (by rw [opcode_writeV]; decide)
theorem vdot2 (f : VFields) : Statement (.vdot2 f) := of_vector (b := f.unit1) rfl (by rw [opcode_writeV]; decide)
theorem vdot4 (f : VFields) : Statement (.vdot4 f) := of_vector (b := f.unit1) rfl (by rw [opcode_writeV]; decide)
theorem vdot8 (f : VFields) : Statement (.vdot8 f) := of_vector (b := f.unit1) rfl (by rw [opcode_writeV]; decide)
theorem viadd (f : VFields) : Statement (.viadd f) := of_vector (b := f.unit1) rfl (by rw [opcode_writeV]; decide)
theorem visub (f : VFields) : Statement (.visub f) := of_vector (b := f.unit1) rfl (by rw [opcode_writeV]; decide)
theorem vimul (f : VFields) : Statement (.vimul f) := of_vector (b := f.unit1) rfl (by rw [opcode_writeV]; decide)
theorem vimulh (f : VFields) : Statement (.vimulh f) := of_vector (b := f.unit1) rfl (by rw [opcode_writeV]; decide)
theorem vimad (f : VFields) : Statement (.vimad f) := of_vector (b := f.unit1) rfl (by rw [opcode_writeV]; decide)
theorem vabsd (f : VFields) : Statement (.vabsd f) := of_vector (b := f.unit1) rfl (by rw [opcode_writeV]; decide)
theorem vimin (f : VFields) : Statement (.vimin f) := of_vector (b := f.unit1) rfl (by rw [opcode_writeV]; decide)
theorem vimax (f : VFields) : Statement (.vimax f) := of_vector (b := f.unit1) rfl (by rw [opcode_writeV]; decide)
theorem vicmp (f : VFields) : Statement (.vicmp f) := of_vector (b := f.unit1) rfl (by rw [opcode_writeV]; decide)
theorem vsadd (f : VFields) : Statement (.vsadd f) := of_vector (b := f.unit1) rfl (by rw [opcode_writeV]; decide)
theorem vssub (f : VFields) : Statement (.vssub f) := of_vector (b := f.unit1) rfl (by rw [opcode_writeV]; decide)
theorem vshl (f : VFields) : Statement (.vshl f) := of_vector (b := f.unit1) rfl (by rw [opcode_writeV]; decide)
theorem vshr (f : VFields) : Statement (.vshr f) := of_vector (b := f.unit1) rfl (by rw [opcode_writeV]; decide)
theorem vsar (f : VFields) : Statement (.vsar f) := of_vector (b := f.unit1) rfl (by rw [opcode_writeV]; decide)
theorem vand (f : VFields) : Statement (.vand f) := of_vector (b := f.unit1) rfl (by rw [opcode_writeV]; decide)
theorem vor (f : VFields) : Statement (.vor f) := of_vector (b := f.unit1) rfl (by rw [opcode_writeV]; decide)
theorem vxor (f : VFields) : Statement (.vxor f) := of_vector (b := f.unit1) rfl (by rw [opcode_writeV]; decide)
theorem vnot (f : VFields) : Statement (.vnot f) := of_vector (b := f.unit1) rfl (by rw [opcode_writeV]; decide)
theorem vpopc (f : VFields) : Statement (.vpopc f) := of_vector (b := f.unit1) rfl (by rw [opcode_writeV]; decide)
theorem vclz (f : VFields) : Statement (.vclz f) := of_vector (b := f.unit1) rfl (by rw [opcode_writeV]; decide)
theorem vbrev (f : VFields) : Statement (.vbrev f) := of_vector (b := f.unit1) rfl (by rw [opcode_writeV]; decide)
theorem vbfx (f : VFields) : Statement (.vbfx f) := of_vector (b := f.unit1) rfl (by rw [opcode_writeV]; decide)
theorem vbfi (f : VFields) : Statement (.vbfi f) := of_vector (b := f.unit1) rfl (by rw [opcode_writeV]; decide)
theorem vsel (f : VFields) : Statement (.vsel f) := of_vector (b := f.unit1) rfl (by rw [opcode_writeV]; decide)
theorem vmov (f : VFields) : Statement (.vmov f) := of_vector (b := f.unit1) rfl (by rw [opcode_writeV]; decide)
theorem vmovi (f : VFields) : Statement (.vmovi f) := of_vector (b := f.unit1) rfl (by rw [opcode_writeV]; decide)
theorem vs2v (f : VFields) : Statement (.vs2v f) := of_vector (b := f.unit1) rfl (by rw [opcode_writeV]; decide)
theorem vext (f : VFields) : Statement (.vext f) := of_vector (b := f.unit1) rfl (by rw [opcode_writeV]; decide)
theorem vlane (f : VFields) : Statement (.vlane f) := of_vector (b := f.unit1) rfl (by rw [opcode_writeV]; decide)
theorem vgid (f : VFields) : Statement (.vgid f) := of_vector (b := f.unit1) rfl (by rw [opcode_writeV]; decide)
theorem vwid (f : VFields) : Statement (.vwid f) := of_vector (b := f.unit1) rfl (by rw [opcode_writeV]; decide)
theorem vnar (f : VFields) : Statement (.vnar f) := of_vector (b := f.unit1) rfl (by rw [opcode_writeV]; decide)
theorem vpack (f : VFields) : Statement (.vpack f) := of_vector (b := f.unit1) rfl (by rw [opcode_writeV]; decide)
theorem vunpk (f : VFields) : Statement (.vunpk f) := of_vector (b := f.unit1) rfl (by rw [opcode_writeV]; decide)
theorem vqz (f : VFields) : Statement (.vqz f) := of_vector (b := f.unit1) rfl (by rw [opcode_writeV]; decide)
theorem vdq (f : VFields) : Statement (.vdq f) := of_vector (b := f.unit1) rfl (by rw [opcode_writeV]; decide)
theorem frcp (f : FFields) : Statement (.frcp f) := of_word rfl (writeF_lt _ f) (by rw [opcode_writeF]; decide)
theorem frsq (f : FFields) : Statement (.frsq f) := of_word rfl (writeF_lt _ f) (by rw [opcode_writeF]; decide)
theorem fsqrt (f : FFields) : Statement (.fsqrt f) := of_word rfl (writeF_lt _ f) (by rw [opcode_writeF]; decide)
theorem fexp2 (f : FFields) : Statement (.fexp2 f) := of_word rfl (writeF_lt _ f) (by rw [opcode_writeF]; decide)
theorem flog2 (f : FFields) : Statement (.flog2 f) := of_word rfl (writeF_lt _ f) (by rw [opcode_writeF]; decide)
theorem fsin (f : FFields) : Statement (.fsin f) := of_word rfl (writeF_lt _ f) (by rw [opcode_writeF]; decide)
theorem fcos (f : FFields) : Statement (.fcos f) := of_word rfl (writeF_lt _ f) (by rw [opcode_writeF]; decide)
theorem ftanh (f : FFields) : Statement (.ftanh f) := of_word rfl (writeF_lt _ f) (by rw [opcode_writeF]; decide)
theorem fsig (f : FFields) : Statement (.fsig f) := of_word rfl (writeF_lt _ f) (by rw [opcode_writeF]; decide)
theorem ferf (f : FFields) : Statement (.ferf f) := of_word rfl (writeF_lt _ f) (by rw [opcode_writeF]; decide)
theorem xperm (f : XsFields) : Statement (.xperm f) := of_word rfl (writeXs_lt _ f) (by rw [opcode_writeXs]; decide)
theorem xpush (f : XsFields) : Statement (.xpush f) := of_word rfl (writeXs_lt _ f) (by rw [opcode_writeXs]; decide)
theorem xpushd (f : XFields) : Statement (.xpushd f) := of_word rfl (writeX_lt _ f) (by rw [opcode_writeX]; decide)
theorem xpushdHi (f : XFields) : Statement (.xpushdHi f) := of_word rfl (writeX_lt _ f) (by rw [opcode_writeX]; decide)
theorem xpull (f : XFields) : Statement (.xpull f) := of_word rfl (writeX_lt _ f) (by rw [opcode_writeX]; decide)
theorem xrot (f : XFields) : Statement (.xrot f) := of_word rfl (writeX_lt _ f) (by rw [opcode_writeX]; decide)
theorem xbc (f : XFields) : Statement (.xbc f) := of_word rfl (writeX_lt _ f) (by rw [opcode_writeX]; decide)
theorem xup (f : XFields) : Statement (.xup f) := of_word rfl (writeX_lt _ f) (by rw [opcode_writeX]; decide)
theorem xdn (f : XFields) : Statement (.xdn f) := of_word rfl (writeX_lt _ f) (by rw [opcode_writeX]; decide)
theorem xbfly (f : XFields) : Statement (.xbfly f) := of_word rfl (writeX_lt _ f) (by rw [opcode_writeX]; decide)
theorem xtr (f : XFields) : Statement (.xtr f) := of_word rfl (writeX_lt _ f) (by rw [opcode_writeX]; decide)
theorem xred (f : XFields) : Statement (.xred f) := of_word rfl (writeX_lt _ f) (by rw [opcode_writeX]; decide)
theorem xscan (f : XFields) : Statement (.xscan f) := of_word rfl (writeX_lt _ f) (by rw [opcode_writeX]; decide)
theorem xbal (f : XFields) : Statement (.xbal f) := of_word rfl (writeX_lt _ f) (by rw [opcode_writeX]; decide)
theorem ldG (f : MFields) : Statement (.ldG f) := of_word rfl (writeM _ f).isLt (by rw [opcode_writeM]; decide)
theorem stG (f : MFields) : Statement (.stG f) := of_word rfl (writeM _ f).isLt (by rw [opcode_writeM]; decide)
theorem ldSc (f : MFields) : Statement (.ldSc f) := of_word rfl (writeM _ f).isLt (by rw [opcode_writeM]; decide)
theorem stSc (f : MFields) : Statement (.stSc f) := of_word rfl (writeM _ f).isLt (by rw [opcode_writeM]; decide)
theorem ldSp (f : MFields) : Statement (.ldSp f) := of_word rfl (writeM _ f).isLt (by rw [opcode_writeM]; decide)
theorem stSp (f : MFields) : Statement (.stSp f) := of_word rfl (writeM _ f).isLt (by rw [opcode_writeM]; decide)
theorem satom (f : MFields) : Statement (.satom f) := of_word rfl (writeM _ f).isLt (by rw [opcode_writeM]; decide)
theorem ldPv (f : MFields) : Statement (.ldPv f) := of_word rfl (writeM _ f).isLt (by rw [opcode_writeM]; decide)
theorem stPv (f : MFields) : Statement (.stPv f) := of_word rfl (writeM _ f).isLt (by rw [opcode_writeM]; decide)
theorem ldMd (f : MFields) : Statement (.ldMd f) := of_word rfl (writeM _ f).isLt (by rw [opcode_writeM]; decide)
theorem ldGs (f : MFields) : Statement (.ldGs f) := of_word rfl (writeM _ f).isLt (by rw [opcode_writeM]; decide)
theorem atom (f : MFields) : Statement (.atom f) := of_word rfl (writeM _ f).isLt (by rw [opcode_writeM]; decide)
theorem atomCas (f : MFields) : Statement (.atomCas f) := of_word rfl (writeM _ f).isLt (by rw [opcode_writeM]; decide)
theorem atomFadd (f : MFields) : Statement (.atomFadd f) := of_word rfl (writeM _ f).isLt (by rw [opcode_writeM]; decide)
theorem atomOfa (f : MFields) : Statement (.atomOfa f) := of_word rfl (writeM _ f).isLt (by rw [opcode_writeM]; decide)
theorem atomOclose (f : MFields) : Statement (.atomOclose f) := of_word rfl (writeM _ f).isLt (by rw [opcode_writeM]; decide)
theorem pf (f : MFields) : Statement (.pf f) := of_word rfl (writeM _ f).isLt (by rw [opcode_writeM]; decide)
theorem bind (f : MFields) : Statement (.bind f) := of_word rfl (writeM _ f).isLt (by rw [opcode_writeM]; decide)
theorem unbind (f : MFields) : Statement (.unbind f) := of_word rfl (writeM _ f).isLt (by rw [opcode_writeM]; decide)
theorem acq (f : MFields) : Statement (.acq f) := of_word rfl (writeM _ f).isLt (by rw [opcode_writeM]; decide)
theorem rel (f : MFields) : Statement (.rel f) := of_word rfl (writeM _ f).isLt (by rw [opcode_writeM]; decide)
theorem fence (f : MFields) : Statement (.fence f) := of_word rfl (writeM _ f).isLt (by rw [opcode_writeM]; decide)
theorem cpGs (f : AFields) : Statement (.cpGs f) := of_word rfl (writeA_lt _ f) (by rw [opcode_writeA]; decide)
theorem cpSg (f : AFields) : Statement (.cpSg f) := of_word rfl (writeA_lt _ f) (by rw [opcode_writeA]; decide)
theorem cpGg (f : AFields) : Statement (.cpGg f) := of_word rfl (writeA_lt _ f) (by rw [opcode_writeA]; decide)
theorem cpMs (f : AFields) : Statement (.cpMs f) := of_word rfl (writeA_lt _ f) (by rw [opcode_writeA]; decide)
theorem gth (f : AFields) : Statement (.gth f) := of_word rfl (writeA_lt _ f) (by rw [opcode_writeA]; decide)
theorem sct (f : AFields) : Statement (.sct f) := of_word rfl (writeA_lt _ f) (by rw [opcode_writeA]; decide)
theorem collBc (f : AFields) : Statement (.collBc f) := of_word rfl (writeA_lt _ f) (by rw [opcode_writeA]; decide)
theorem collRed (f : AFields) : Statement (.collRed f) := of_word rfl (writeA_lt _ f) (by rw [opcode_writeA]; decide)
theorem collAg (f : AFields) : Statement (.collAg f) := of_word rfl (writeA_lt _ f) (by rw [opcode_writeA]; decide)
theorem collA2a (f : AFields) : Statement (.collA2a f) := of_word rfl (writeA_lt _ f) (by rw [opcode_writeA]; decide)
theorem tnWr (f : AFields) : Statement (.tnWr f) := of_word rfl (writeA_lt _ f) (by rw [opcode_writeA]; decide)
theorem tnRd (f : AFields) : Statement (.tnRd f) := of_word rfl (writeA_lt _ f) (by rw [opcode_writeA]; decide)
theorem tnLd (f : AFields) : Statement (.tnLd f) := of_word rfl (writeA_lt _ f) (by rw [opcode_writeA]; decide)
theorem sqLd (f : AFields) : Statement (.sqLd f) := of_word rfl (writeA_lt _ f) (by rw [opcode_writeA]; decide)
theorem sqDrp (f : AFields) : Statement (.sqDrp f) := of_word rfl (writeA_lt _ f) (by rw [opcode_writeA]; decide)
theorem qInit (f : AFields) : Statement (.qInit f) := of_word rfl (writeA_lt _ f) (by rw [opcode_writeA]; decide)
theorem qAdvp (f : AFields) : Statement (.qAdvp f) := of_word rfl (writeA_lt _ f) (by rw [opcode_writeA]; decide)
theorem qAdvc (f : AFields) : Statement (.qAdvc f) := of_word rfl (writeA_lt _ f) (by rw [opcode_writeA]; decide)
theorem qWt (f : AFields) : Statement (.qWt f) := of_word rfl (writeA_lt _ f) (by rw [opcode_writeA]; decide)
theorem tagTst (f : AFields) : Statement (.tagTst f) := of_word rfl (writeA_lt _ f) (by rw [opcode_writeA]; decide)
theorem mma (f : TFields) : Statement (.mma f) := of_word rfl (writeT _ f).isLt (by rw [opcode_writeT]; decide)
theorem mmaQ (f : TFields) : Statement (.mmaQ f) := of_word rfl (writeT _ f).isLt (by rw [opcode_writeT]; decide)
theorem mmaSp (f : TFields) : Statement (.mmaSp f) := of_word rfl (writeT _ f).isLt (by rw [opcode_writeT]; decide)
theorem mmaSt (f : TFields) : Statement (.mmaSt f) := of_word rfl (writeT _ f).isLt (by rw [opcode_writeT]; decide)
theorem accZ (f : TFields) : Statement (.accZ f) := of_word rfl (writeT _ f).isLt (by rw [opcode_writeT]; decide)
theorem accLd (f : TFields) : Statement (.accLd f) := of_word rfl (writeT _ f).isLt (by rw [opcode_writeT]; decide)
theorem accSt (f : TFields) : Statement (.accSt f) := of_word rfl (writeT _ f).isLt (by rw [opcode_writeT]; decide)
theorem accCvt (f : TFields) : Statement (.accCvt f) := of_word rfl (writeT _ f).isLt (by rw [opcode_writeT]; decide)
theorem accMv (f : TFields) : Statement (.accMv f) := of_word rfl (writeT _ f).isLt (by rw [opcode_writeT]; decide)
theorem accAdd (f : TFields) : Statement (.accAdd f) := of_word rfl (writeT _ f).isLt (by rw [opcode_writeT]; decide)
theorem kat (f : TFields) : Statement (.kat f) := of_word rfl (writeT _ f).isLt (by rw [opcode_writeT]; decide)
theorem computeError (h slot : Nat) (unit : Nat) (covered : Bool) : Statement (.computeError h slot unit covered) := of_none rfl
theorem rerunCompare (h slot : Nat) (runs : RerunPair) : Statement (.rerunCompare h slot runs) := of_none rfl
theorem macCheckFail (read : LineImage) : Statement (.macCheckFail read) := of_none rfl
theorem macRefetchDone (line : Nat) (image : Option (List Byte × List Byte)) : Statement (.macRefetchDone line image) := of_none rfl
theorem uncorrectableData (line : Nat) (dirty : Bool) (unit : Nat) : Statement (.uncorrectableData line dirty unit) := of_none rfl
theorem correctedError (e : ErrSite) : Statement (.correctedError e) := of_none rfl
theorem rowSpareSwitch (die region bank row : Nat) : Statement (.rowSpareSwitch die region bank row) := of_none rfl
theorem fqAnswer (func : Nat) (value : W64) : Statement (.fqAnswer func value) := of_none rfl
theorem droopCut (die : Nat) : Statement (.droopCut die) := of_none rfl
theorem launchDoorbell (func queue : Nat) (value : W32) : Statement (.launchDoorbell func queue value) := of_none rfl
theorem leaseRevoke (die : Nat) : Statement (.leaseRevoke die) := of_none rfl
theorem channelDoorbell (func ch : Nat) (value : W32) : Statement (.channelDoorbell func ch value) := of_none rfl
theorem channelCopyComplete (func ch : Nat) (hostAbort : Option Nat) : Statement (.channelCopyComplete func ch hostAbort) := of_none rfl
theorem bar2WindowAccess (func : Nat) (write : Bool) (off len : Nat) (data : W64) : Statement (.bar2WindowAccess func write off len data) := of_none rfl
theorem lostClr (addr : W64) : Statement (.lostClr addr) := of_none rfl
theorem sweepStart (stove : Nat) : Statement (.sweepStart stove) := of_none rfl
theorem sweepScanEnd (failed : BitVec 17) : Statement (.sweepScanEnd failed) := of_none rfl
theorem sweepArrayEnd (failed : BitVec 17) : Statement (.sweepArrayEnd failed) := of_none rfl
theorem updateGo (flashOk : Bool) : Statement (.updateGo flashOk) := of_none rfl
theorem registerWrite (func off : Nat) (half : Bool) (value : W64) : Statement (.registerWrite func off half value) := of_none rfl
theorem functionLevelReset (func : Nat) : Statement (.functionLevelReset func) := of_none rfl
theorem moduleReset (b : BootReport) : Statement (.moduleReset b) := of_none rfl
theorem thermalThreshold (die : Nat) (celsius : Nat) : Statement (.thermalThreshold die celsius) := of_none rfl
theorem rackCapMessage (endpoint watts : Nat) (seqn : W32) (expiry : W64) : Statement (.rackCapMessage endpoint watts seqn expiry) := of_none rfl
theorem rackTimeMessage (endpoint : Nat) (seqn : W32) (time : W64) : Statement (.rackTimeMessage endpoint seqn time) := of_none rfl
theorem linkDead (port : Nat) : Statement (.linkDead port) := of_none rfl
theorem flitLinkState (f : Flit) : Statement (.flitLinkState f) := of_none rfl
theorem flitRead (f : Flit) : Statement (.flitRead f) := of_none rfl
theorem flitWrite (f : Flit) : Statement (.flitWrite f) := of_none rfl
theorem flitAtomic (f : Flit) : Statement (.flitAtomic f) := of_none rfl
theorem flitReadResponse (f : Flit) : Statement (.flitReadResponse f) := of_none rfl
theorem flitWriteAck (f : Flit) : Statement (.flitWriteAck f) := of_none rfl
theorem flitAtomicResponse (f : Flit) : Statement (.flitAtomicResponse f) := of_none rfl
theorem flitAbortResponse (f : Flit) : Statement (.flitAbortResponse f) := of_none rfl
theorem flitCollectiveData (f : Flit) : Statement (.flitCollectiveData f) := of_none rfl
theorem flitMonitorArm (f : Flit) : Statement (.flitMonitorArm f) := of_none rfl
theorem flitMonitorWake (f : Flit) : Statement (.flitMonitorWake f) := of_none rfl
theorem laneSpareRetrain (port lane : Nat) : Statement (.laneSpareRetrain port lane) := of_none rfl
theorem portRetrain (port : Nat) (ok : Bool) : Statement (.portRetrain port ok) := of_none rfl
theorem temperatureFall (die celsius : Nat) : Statement (.temperatureFall die celsius) := of_none rfl
theorem reservedOpcode (slot : Slot) (word : BitVec 64) : Statement (.reservedOpcode slot word) := fun _ _ he hw => by
  cases he
  simp only [Instr.wf, Bool.and_eq_true, bne_iff_ne, decide_eq_true_eq] at hw
  refine ⟨hw.2, fun h0 => hw.1.1 ?_⟩
  have h1 := congrArg BitVec.toNat h0
  apply BitVec.eq_of_toNat_eq
  simp only [slotField, BitVec.extractLsb'_toNat, Nat.shiftRight_zero] at h1
  rw [BitVec.toNat_and]
  exact (Nat.and_two_pow_sub_one_eq_mod _ 8).trans h1
theorem flitReservedType (f : Flit) : Statement (.flitReservedType f) := of_none rfl
theorem tretReplay : Statement (.tretReplay) := of_none rfl
theorem tretSkip : Statement (.tretSkip) := of_none rfl
theorem tretGoto : Statement (.tretGoto) := of_none rfl
theorem tretExit : Statement (.tretExit) := of_none rfl
theorem tretPark : Statement (.tretPark) := of_none rfl
theorem tretEnd : Statement (.tretEnd) := of_none rfl
theorem resultWriteback : Statement (.resultWriteback) := of_none rfl
theorem variableLatencyResult : Statement (.variableLatencyResult) := of_none rfl
theorem ldGsArrival : Statement (.ldGsArrival) := of_none rfl
theorem stokerRefill : Statement (.stokerRefill) := of_none rfl
theorem partitionPreload : Statement (.partitionPreload) := of_none rfl
theorem decodeTableRebuild : Statement (.decodeTableRebuild) := of_none rfl
theorem sequencerIssue : Statement (.sequencerIssue) := of_none rfl
theorem splitMerge : Statement (.splitMerge) := of_none rfl
theorem aOpStart : Statement (.aOpStart) := of_none rfl
theorem aOpComplete : Statement (.aOpComplete) := of_none rfl
theorem matrixStep : Statement (.matrixStep) := of_none rfl
theorem mmaStInstanceStart : Statement (.mmaStInstanceStart) := of_none rfl
theorem tileShadowDone : Statement (.tileShadowDone) := of_none rfl
theorem checkpointClose : Statement (.checkpointClose) := of_none rfl
theorem counterWindowSlide : Statement (.counterWindowSlide) := of_none rfl
theorem translationFault : Statement (.translationFault) := of_none rfl
theorem loggedReplay : Statement (.loggedReplay) := of_none rfl
theorem fetchRetry : Statement (.fetchRetry) := of_none rfl
theorem handlerStart : Statement (.handlerStart) := of_none rfl
theorem debugStop : Statement (.debugStop) := of_none rfl
theorem claimPlace : Statement (.claimPlace) := of_none rfl
theorem revolutionBoundary : Statement (.revolutionBoundary) := of_none rfl
theorem limiterRelease : Statement (.limiterRelease) := of_none rfl
theorem meadowRefreshWindow : Statement (.meadowRefreshWindow) := of_none rfl
theorem monitorWake : Statement (.monitorWake) := of_none rfl
theorem monitorTimeout : Statement (.monitorTimeout) := of_none rfl
theorem swapOut : Statement (.swapOut) := of_none rfl
theorem teamReadyToReturn : Statement (.teamReadyToReturn) := of_none rfl
theorem swapIn : Statement (.swapIn) := of_none rfl
theorem groupRetirement : Statement (.groupRetirement) := of_none rfl
theorem launchAccept : Statement (.launchAccept) := of_none rfl
theorem dependenceWake : Statement (.dependenceWake) := of_none rfl
theorem teamPlacement : Statement (.teamPlacement) := of_none rfl
theorem ageingExpiry : Statement (.ageingExpiry) := of_none rfl
theorem meadowLoad : Statement (.meadowLoad) := of_none rfl
theorem priorityPreemptTrigger : Statement (.priorityPreemptTrigger) := of_none rfl
theorem timeSliceExpiry : Statement (.timeSliceExpiry) := of_none rfl
theorem preemption : Statement (.preemption) := of_none rfl
theorem contextRestore : Statement (.contextRestore) := of_none rfl
theorem launchCompletion : Statement (.launchCompletion) := of_none rfl
theorem freshBufferRewrap : Statement (.freshBufferRewrap) := of_none rfl
theorem haltDrainDone : Statement (.haltDrainDone) := of_none rfl
theorem dumpWrite : Statement (.dumpWrite) := of_none rfl
theorem identify : Statement (.identify) := of_none rfl
theorem summary : Statement (.summary) := of_none rfl
theorem lqCreate : Statement (.lqCreate) := of_none rfl
theorem lqDelete : Statement (.lqDelete) := of_none rfl
theorem worldAssign : Statement (.worldAssign) := of_none rfl
theorem worldRoot : Statement (.worldRoot) := of_none rfl
theorem invalidate : Statement (.invalidate) := of_none rfl
theorem bufReg : Statement (.bufReg) := of_none rfl
theorem bufUnreg : Statement (.bufUnreg) := of_none rfl
theorem meadowAssign : Statement (.meadowAssign) := of_none rfl
theorem preempt : Statement (.preempt) := of_none rfl
theorem abort : Statement (.abort) := of_none rfl
theorem powerCeiling : Statement (.powerCeiling) := of_none rfl
theorem boost : Statement (.boost) := of_none rfl
theorem funcConfig : Statement (.funcConfig) := of_none rfl
theorem chCreate : Statement (.chCreate) := of_none rfl
theorem chResync : Statement (.chResync) := of_none rfl
theorem chDelete : Statement (.chDelete) := of_none rfl
theorem aperture : Statement (.aperture) := of_none rfl
theorem domainConfig : Statement (.domainConfig) := of_none rfl
theorem dbgRead : Statement (.dbgRead) := of_none rfl
theorem dbgResume : Statement (.dbgResume) := of_none rfl
theorem leaseEnd : Statement (.leaseEnd) := of_none rfl
theorem sweepAutoStart : Statement (.sweepAutoStart) := of_none rfl
theorem sweepDrainEnd : Statement (.sweepDrainEnd) := of_none rfl
theorem sweepFilingDone : Statement (.sweepFilingDone) := of_none rfl
theorem updateActivate : Statement (.updateActivate) := of_none rfl
theorem heartbeatTimeout : Statement (.heartbeatTimeout) := of_none rfl
theorem thermalStepDown : Statement (.thermalStepDown) := of_none rfl
theorem capExpiry : Statement (.capExpiry) := of_none rfl
theorem drainRoundEnd : Statement (.drainRoundEnd) := of_none rfl
theorem remoteRequestTimeout : Statement (.remoteRequestTimeout) := of_none rfl
theorem emberRingTake : Statement (.emberRingTake) := of_none rfl
theorem releasePushComplete : Statement (.releasePushComplete) := of_none rfl
theorem walkComplete : Statement (.walkComplete) := of_none rfl
theorem interruptHoldoffExpiry : Statement (.interruptHoldoffExpiry) := of_none rfl
theorem limiterHoldEnd : Statement (.limiterHoldEnd) := of_none rfl
theorem damperRestart : Statement (.damperRestart) := of_none rfl
theorem powerLoss : Statement (.powerLoss) := of_none rfl
theorem refusedEntryIssue : Statement (.refusedEntryIssue) := of_none rfl
theorem streamFetchFault : Statement (.streamFetchFault) := of_none rfl

end Sys2Proof.Laws.Encodable
end

