-- ==== Sys2Proof/Laws/State.lean ====
section
/-! SUPPORT. What each named update of the state leaves as it was, field by field; what a look-up finds after an update; and
what taking a trap and sending a result can change. -/

namespace Sys2Proof.Machine

/-! `Core.modGroup`: one group -/

@[simp] theorem Core.modGroup_hearths (c : Core) (h slot : Nat) (u : Group → Group) : (c.modGroup h slot u).hearths = c.hearths := rfl
@[simp] theorem Core.modGroup_parts (c : Core) (h slot : Nat) (u : Group → Group) : (c.modGroup h slot u).parts = c.parts := rfl
@[simp] theorem Core.modGroup_land (c : Core) (h slot : Nat) (u : Group → Group) : (c.modGroup h slot u).land = c.land := rfl
@[simp] theorem Core.modGroup_accs (c : Core) (h slot : Nat) (u : Group → Group) : (c.modGroup h slot u).accs = c.accs := rfl
@[simp] theorem Core.modGroup_engs (c : Core) (h slot : Nat) (u : Group → Group) : (c.modGroup h slot u).engs = c.engs := rfl
@[simp] theorem Core.modGroup_mats (c : Core) (h slot : Nat) (u : Group → Group) : (c.modGroup h slot u).mats = c.mats := rfl
@[simp] theorem Core.modGroup_ctx (c : Core) (h slot : Nat) (u : Group → Group) : (c.modGroup h slot u).ctx = c.ctx := rfl
@[simp] theorem Core.modGroup_seq (c : Core) (h slot : Nat) (u : Group → Group) : (c.modGroup h slot u).seq = c.seq := rfl
@[simp] theorem Core.modGroup_live (c : Core) (h slot : Nat) (u : Group → Group) : (c.modGroup h slot u).live = c.live := rfl
@[simp] theorem Core.modGroup_samples (c : Core) (h slot : Nat) (u : Group → Group) : (c.modGroup h slot u).samples = c.samples := rfl
@[simp] theorem Core.modGroup_ports (c : Core) (h slot : Nat) (u : Group → Group) : (c.modGroup h slot u).ports = c.ports := rfl
@[simp] theorem Core.modGroup_requests (c : Core) (h slot : Nat) (u : Group → Group) : (c.modGroup h slot u).requests = c.requests := rfl
@[simp] theorem Core.modGroup_doomed (c : Core) (h slot : Nat) (u : Group → Group) : (c.modGroup h slot u).doomed = c.doomed := rfl
@[simp] theorem Core.modGroup_free (c : Core) (h slot : Nat) (u : Group → Group) : (c.modGroup h slot u).free = c.free := rfl

/-! `Core.modSplit`: one split entry -/

@[simp] theorem Core.modSplit_hearths (c : Core) (h slot n : Nat) (u : SplitE → SplitE) : (c.modSplit h slot n u).hearths = c.hearths := rfl
@[simp] theorem Core.modSplit_parts (c : Core) (h slot n : Nat) (u : SplitE → SplitE) : (c.modSplit h slot n u).parts = c.parts := rfl
@[simp] theorem Core.modSplit_land (c : Core) (h slot n : Nat) (u : SplitE → SplitE) : (c.modSplit h slot n u).land = c.land := rfl
@[simp] theorem Core.modSplit_accs (c : Core) (h slot n : Nat) (u : SplitE → SplitE) : (c.modSplit h slot n u).accs = c.accs := rfl
@[simp] theorem Core.modSplit_engs (c : Core) (h slot n : Nat) (u : SplitE → SplitE) : (c.modSplit h slot n u).engs = c.engs := rfl
@[simp] theorem Core.modSplit_mats (c : Core) (h slot n : Nat) (u : SplitE → SplitE) : (c.modSplit h slot n u).mats = c.mats := rfl
@[simp] theorem Core.modSplit_ctx (c : Core) (h slot n : Nat) (u : SplitE → SplitE) : (c.modSplit h slot n u).ctx = c.ctx := rfl
@[simp] theorem Core.modSplit_seq (c : Core) (h slot n : Nat) (u : SplitE → SplitE) : (c.modSplit h slot n u).seq = c.seq := rfl
@[simp] theorem Core.modSplit_live (c : Core) (h slot n : Nat) (u : SplitE → SplitE) : (c.modSplit h slot n u).live = c.live := rfl
@[simp] theorem Core.modSplit_samples (c : Core) (h slot n : Nat) (u : SplitE → SplitE) : (c.modSplit h slot n u).samples = c.samples := rfl
@[simp] theorem Core.modSplit_ports (c : Core) (h slot n : Nat) (u : SplitE → SplitE) : (c.modSplit h slot n u).ports = c.ports := rfl
@[simp] theorem Core.modSplit_requests (c : Core) (h slot n : Nat) (u : SplitE → SplitE) : (c.modSplit h slot n u).requests = c.requests := rfl
@[simp] theorem Core.modSplit_doomed (c : Core) (h slot n : Nat) (u : SplitE → SplitE) : (c.modSplit h slot n u).doomed = c.doomed := rfl
@[simp] theorem Core.modSplit_free (c : Core) (h slot n : Nat) (u : SplitE → SplitE) : (c.modSplit h slot n u).free = c.free := rfl

/-! `Core.modPart`: one team part -/

@[simp] theorem Core.modPart_hearths (c : Core) (id : Nat) (u : Part → Part) : (c.modPart id u).hearths = c.hearths := rfl
@[simp] theorem Core.modPart_groups (c : Core) (id : Nat) (u : Part → Part) : (c.modPart id u).groups = c.groups := rfl
@[simp] theorem Core.modPart_land (c : Core) (id : Nat) (u : Part → Part) : (c.modPart id u).land = c.land := rfl
@[simp] theorem Core.modPart_accs (c : Core) (id : Nat) (u : Part → Part) : (c.modPart id u).accs = c.accs := rfl
@[simp] theorem Core.modPart_engs (c : Core) (id : Nat) (u : Part → Part) : (c.modPart id u).engs = c.engs := rfl
@[simp] theorem Core.modPart_mats (c : Core) (id : Nat) (u : Part → Part) : (c.modPart id u).mats = c.mats := rfl
@[simp] theorem Core.modPart_ctx (c : Core) (id : Nat) (u : Part → Part) : (c.modPart id u).ctx = c.ctx := rfl
@[simp] theorem Core.modPart_seq (c : Core) (id : Nat) (u : Part → Part) : (c.modPart id u).seq = c.seq := rfl
@[simp] theorem Core.modPart_live (c : Core) (id : Nat) (u : Part → Part) : (c.modPart id u).live = c.live := rfl
@[simp] theorem Core.modPart_samples (c : Core) (id : Nat) (u : Part → Part) : (c.modPart id u).samples = c.samples := rfl
@[simp] theorem Core.modPart_ports (c : Core) (id : Nat) (u : Part → Part) : (c.modPart id u).ports = c.ports := rfl
@[simp] theorem Core.modPart_requests (c : Core) (id : Nat) (u : Part → Part) : (c.modPart id u).requests = c.requests := rfl
@[simp] theorem Core.modPart_doomed (c : Core) (id : Nat) (u : Part → Part) : (c.modPart id u).doomed = c.doomed := rfl
@[simp] theorem Core.modPart_free (c : Core) (id : Nat) (u : Part → Part) : (c.modPart id u).free = c.free := rfl

/-! `Core.modHearth`: one hearth -/

@[simp] theorem Core.modHearth_groups (c : Core) (h : Nat) (u : Hearth → Hearth) : (c.modHearth h u).groups = c.groups := rfl
@[simp] theorem Core.modHearth_parts (c : Core) (h : Nat) (u : Hearth → Hearth) : (c.modHearth h u).parts = c.parts := rfl
@[simp] theorem Core.modHearth_land (c : Core) (h : Nat) (u : Hearth → Hearth) : (c.modHearth h u).land = c.land := rfl
@[simp] theorem Core.modHearth_accs (c : Core) (h : Nat) (u : Hearth → Hearth) : (c.modHearth h u).accs = c.accs := rfl
@[simp] theorem Core.modHearth_engs (c : Core) (h : Nat) (u : Hearth → Hearth) : (c.modHearth h u).engs = c.engs := rfl
@[simp] theorem Core.modHearth_mats (c : Core) (h : Nat) (u : Hearth → Hearth) : (c.modHearth h u).mats = c.mats := rfl
@[simp] theorem Core.modHearth_ctx (c : Core) (h : Nat) (u : Hearth → Hearth) : (c.modHearth h u).ctx = c.ctx := rfl
@[simp] theorem Core.modHearth_seq (c : Core) (h : Nat) (u : Hearth → Hearth) : (c.modHearth h u).seq = c.seq := rfl
@[simp] theorem Core.modHearth_live (c : Core) (h : Nat) (u : Hearth → Hearth) : (c.modHearth h u).live = c.live := rfl
@[simp] theorem Core.modHearth_samples (c : Core) (h : Nat) (u : Hearth → Hearth) : (c.modHearth h u).samples = c.samples := rfl
@[simp] theorem Core.modHearth_ports (c : Core) (h : Nat) (u : Hearth → Hearth) : (c.modHearth h u).ports = c.ports := rfl
@[simp] theorem Core.modHearth_requests (c : Core) (h : Nat) (u : Hearth → Hearth) : (c.modHearth h u).requests = c.requests := rfl
@[simp] theorem Core.modHearth_doomed (c : Core) (h : Nat) (u : Hearth → Hearth) : (c.modHearth h u).doomed = c.doomed := rfl
@[simp] theorem Core.modHearth_free (c : Core) (h : Nat) (u : Hearth → Hearth) : (c.modHearth h u).free = c.free := rfl

/-! `Core.modPartition`: one partition of a decode table -/

@[simp] theorem Core.modPartition_groups (c : Core) (h pid : Nat) (u : Partition → Partition) : (c.modPartition h pid u).groups = c.groups := rfl
@[simp] theorem Core.modPartition_parts (c : Core) (h pid : Nat) (u : Partition → Partition) : (c.modPartition h pid u).parts = c.parts := rfl
@[simp] theorem Core.modPartition_land (c : Core) (h pid : Nat) (u : Partition → Partition) : (c.modPartition h pid u).land = c.land := rfl
@[simp] theorem Core.modPartition_accs (c : Core) (h pid : Nat) (u : Partition → Partition) : (c.modPartition h pid u).accs = c.accs := rfl
@[simp] theorem Core.modPartition_engs (c : Core) (h pid : Nat) (u : Partition → Partition) : (c.modPartition h pid u).engs = c.engs := rfl
@[simp] theorem Core.modPartition_mats (c : Core) (h pid : Nat) (u : Partition → Partition) : (c.modPartition h pid u).mats = c.mats := rfl
@[simp] theorem Core.modPartition_ctx (c : Core) (h pid : Nat) (u : Partition → Partition) : (c.modPartition h pid u).ctx = c.ctx := rfl
@[simp] theorem Core.modPartition_seq (c : Core) (h pid : Nat) (u : Partition → Partition) : (c.modPartition h pid u).seq = c.seq := rfl
@[simp] theorem Core.modPartition_live (c : Core) (h pid : Nat) (u : Partition → Partition) : (c.modPartition h pid u).live = c.live := rfl
@[simp] theorem Core.modPartition_samples (c : Core) (h pid : Nat) (u : Partition → Partition) : (c.modPartition h pid u).samples = c.samples := rfl
@[simp] theorem Core.modPartition_ports (c : Core) (h pid : Nat) (u : Partition → Partition) : (c.modPartition h pid u).ports = c.ports := rfl
@[simp] theorem Core.modPartition_requests (c : Core) (h pid : Nat) (u : Partition → Partition) : (c.modPartition h pid u).requests = c.requests := rfl
@[simp] theorem Core.modPartition_doomed (c : Core) (h pid : Nat) (u : Partition → Partition) : (c.modPartition h pid u).doomed = c.doomed := rfl
@[simp] theorem Core.modPartition_free (c : Core) (h pid : Nat) (u : Partition → Partition) : (c.modPartition h pid u).free = c.free := rfl

/-! `Core.count`: counts of a cycle -/

@[simp] theorem Core.count_hearths (c : Core) (func die ev n : Nat) : (c.count func die ev n).hearths = c.hearths := rfl
@[simp] theorem Core.count_groups (c : Core) (func die ev n : Nat) : (c.count func die ev n).groups = c.groups := rfl
@[simp] theorem Core.count_parts (c : Core) (func die ev n : Nat) : (c.count func die ev n).parts = c.parts := rfl
@[simp] theorem Core.count_land (c : Core) (func die ev n : Nat) : (c.count func die ev n).land = c.land := rfl
@[simp] theorem Core.count_accs (c : Core) (func die ev n : Nat) : (c.count func die ev n).accs = c.accs := rfl
@[simp] theorem Core.count_engs (c : Core) (func die ev n : Nat) : (c.count func die ev n).engs = c.engs := rfl
@[simp] theorem Core.count_mats (c : Core) (func die ev n : Nat) : (c.count func die ev n).mats = c.mats := rfl
@[simp] theorem Core.count_ctx (c : Core) (func die ev n : Nat) : (c.count func die ev n).ctx = c.ctx := rfl
@[simp] theorem Core.count_seq (c : Core) (func die ev n : Nat) : (c.count func die ev n).seq = c.seq := rfl
@[simp] theorem Core.count_samples (c : Core) (func die ev n : Nat) : (c.count func die ev n).samples = c.samples := rfl
@[simp] theorem Core.count_ports (c : Core) (func die ev n : Nat) : (c.count func die ev n).ports = c.ports := rfl
@[simp] theorem Core.count_requests (c : Core) (func die ev n : Nat) : (c.count func die ev n).requests = c.requests := rfl
@[simp] theorem Core.count_doomed (c : Core) (func die ev n : Nat) : (c.count func die ev n).doomed = c.doomed := rfl
@[simp] theorem Core.count_free (c : Core) (func die ev n : Nat) : (c.count func die ev n).free = c.free := rfl

/-! `Core.modAccess`: one access in flight -/

@[simp] theorem Core.modAccess_hearths (c : Core) (id : Nat) (u : Access → Access) : (c.modAccess id u).hearths = c.hearths := rfl
@[simp] theorem Core.modAccess_groups (c : Core) (id : Nat) (u : Access → Access) : (c.modAccess id u).groups = c.groups := rfl
@[simp] theorem Core.modAccess_parts (c : Core) (id : Nat) (u : Access → Access) : (c.modAccess id u).parts = c.parts := rfl
@[simp] theorem Core.modAccess_land (c : Core) (id : Nat) (u : Access → Access) : (c.modAccess id u).land = c.land := rfl
@[simp] theorem Core.modAccess_engs (c : Core) (id : Nat) (u : Access → Access) : (c.modAccess id u).engs = c.engs := rfl
@[simp] theorem Core.modAccess_mats (c : Core) (id : Nat) (u : Access → Access) : (c.modAccess id u).mats = c.mats := rfl
@[simp] theorem Core.modAccess_ctx (c : Core) (id : Nat) (u : Access → Access) : (c.modAccess id u).ctx = c.ctx := rfl
@[simp] theorem Core.modAccess_seq (c : Core) (id : Nat) (u : Access → Access) : (c.modAccess id u).seq = c.seq := rfl
@[simp] theorem Core.modAccess_live (c : Core) (id : Nat) (u : Access → Access) : (c.modAccess id u).live = c.live := rfl
@[simp] theorem Core.modAccess_samples (c : Core) (id : Nat) (u : Access → Access) : (c.modAccess id u).samples = c.samples := rfl
@[simp] theorem Core.modAccess_ports (c : Core) (id : Nat) (u : Access → Access) : (c.modAccess id u).ports = c.ports := rfl
@[simp] theorem Core.modAccess_requests (c : Core) (id : Nat) (u : Access → Access) : (c.modAccess id u).requests = c.requests := rfl
@[simp] theorem Core.modAccess_doomed (c : Core) (id : Nat) (u : Access → Access) : (c.modAccess id u).doomed = c.doomed := rfl
@[simp] theorem Core.modAccess_free (c : Core) (id : Nat) (u : Access → Access) : (c.modAccess id u).free = c.free := rfl

/-! `Core.dropAccess`: an access that is over -/

@[simp] theorem Core.dropAccess_hearths (c : Core) (id : Nat) : (c.dropAccess id).hearths = c.hearths := rfl
@[simp] theorem Core.dropAccess_groups (c : Core) (id : Nat) : (c.dropAccess id).groups = c.groups := rfl
@[simp] theorem Core.dropAccess_parts (c : Core) (id : Nat) : (c.dropAccess id).parts = c.parts := rfl
@[simp] theorem Core.dropAccess_land (c : Core) (id : Nat) : (c.dropAccess id).land = c.land := rfl
@[simp] theorem Core.dropAccess_engs (c : Core) (id : Nat) : (c.dropAccess id).engs = c.engs := rfl
@[simp] theorem Core.dropAccess_mats (c : Core) (id : Nat) : (c.dropAccess id).mats = c.mats := rfl
@[simp] theorem Core.dropAccess_ctx (c : Core) (id : Nat) : (c.dropAccess id).ctx = c.ctx := rfl
@[simp] theorem Core.dropAccess_seq (c : Core) (id : Nat) : (c.dropAccess id).seq = c.seq := rfl
@[simp] theorem Core.dropAccess_live (c : Core) (id : Nat) : (c.dropAccess id).live = c.live := rfl
@[simp] theorem Core.dropAccess_samples (c : Core) (id : Nat) : (c.dropAccess id).samples = c.samples := rfl
@[simp] theorem Core.dropAccess_ports (c : Core) (id : Nat) : (c.dropAccess id).ports = c.ports := rfl
@[simp] theorem Core.dropAccess_requests (c : Core) (id : Nat) : (c.dropAccess id).requests = c.requests := rfl
@[simp] theorem Core.dropAccess_doomed (c : Core) (id : Nat) : (c.dropAccess id).doomed = c.doomed := rfl
@[simp] theorem Core.dropAccess_free (c : Core) (id : Nat) : (c.dropAccess id).free = c.free := rfl

/-! `Core.modEng`: one A op -/

@[simp] theorem Core.modEng_hearths (c : Core) (id : Nat) (u : EngOp → EngOp) : (c.modEng id u).hearths = c.hearths := rfl
@[simp] theorem Core.modEng_groups (c : Core) (id : Nat) (u : EngOp → EngOp) : (c.modEng id u).groups = c.groups := rfl
@[simp] theorem Core.modEng_parts (c : Core) (id : Nat) (u : EngOp → EngOp) : (c.modEng id u).parts = c.parts := rfl
@[simp] theorem Core.modEng_land (c : Core) (id : Nat) (u : EngOp → EngOp) : (c.modEng id u).land = c.land := rfl
@[simp] theorem Core.modEng_accs (c : Core) (id : Nat) (u : EngOp → EngOp) : (c.modEng id u).accs = c.accs := rfl
@[simp] theorem Core.modEng_mats (c : Core) (id : Nat) (u : EngOp → EngOp) : (c.modEng id u).mats = c.mats := rfl
@[simp] theorem Core.modEng_ctx (c : Core) (id : Nat) (u : EngOp → EngOp) : (c.modEng id u).ctx = c.ctx := rfl
@[simp] theorem Core.modEng_seq (c : Core) (id : Nat) (u : EngOp → EngOp) : (c.modEng id u).seq = c.seq := rfl
@[simp] theorem Core.modEng_live (c : Core) (id : Nat) (u : EngOp → EngOp) : (c.modEng id u).live = c.live := rfl
@[simp] theorem Core.modEng_samples (c : Core) (id : Nat) (u : EngOp → EngOp) : (c.modEng id u).samples = c.samples := rfl
@[simp] theorem Core.modEng_ports (c : Core) (id : Nat) (u : EngOp → EngOp) : (c.modEng id u).ports = c.ports := rfl
@[simp] theorem Core.modEng_requests (c : Core) (id : Nat) (u : EngOp → EngOp) : (c.modEng id u).requests = c.requests := rfl
@[simp] theorem Core.modEng_doomed (c : Core) (id : Nat) (u : EngOp → EngOp) : (c.modEng id u).doomed = c.doomed := rfl
@[simp] theorem Core.modEng_free (c : Core) (id : Nat) (u : EngOp → EngOp) : (c.modEng id u).free = c.free := rfl

/-! `Core.modMat`: one T op -/

@[simp] theorem Core.modMat_hearths (c : Core) (id : Nat) (u : MatOp → MatOp) : (c.modMat id u).hearths = c.hearths := rfl
@[simp] theorem Core.modMat_groups (c : Core) (id : Nat) (u : MatOp → MatOp) : (c.modMat id u).groups = c.groups := rfl
@[simp] theorem Core.modMat_parts (c : Core) (id : Nat) (u : MatOp → MatOp) : (c.modMat id u).parts = c.parts := rfl
@[simp] theorem Core.modMat_land (c : Core) (id : Nat) (u : MatOp → MatOp) : (c.modMat id u).land = c.land := rfl
@[simp] theorem Core.modMat_accs (c : Core) (id : Nat) (u : MatOp → MatOp) : (c.modMat id u).accs = c.accs := rfl
@[simp] theorem Core.modMat_engs (c : Core) (id : Nat) (u : MatOp → MatOp) : (c.modMat id u).engs = c.engs := rfl
@[simp] theorem Core.modMat_ctx (c : Core) (id : Nat) (u : MatOp → MatOp) : (c.modMat id u).ctx = c.ctx := rfl
@[simp] theorem Core.modMat_seq (c : Core) (id : Nat) (u : MatOp → MatOp) : (c.modMat id u).seq = c.seq := rfl
@[simp] theorem Core.modMat_live (c : Core) (id : Nat) (u : MatOp → MatOp) : (c.modMat id u).live = c.live := rfl
@[simp] theorem Core.modMat_samples (c : Core) (id : Nat) (u : MatOp → MatOp) : (c.modMat id u).samples = c.samples := rfl
@[simp] theorem Core.modMat_ports (c : Core) (id : Nat) (u : MatOp → MatOp) : (c.modMat id u).ports = c.ports := rfl
@[simp] theorem Core.modMat_requests (c : Core) (id : Nat) (u : MatOp → MatOp) : (c.modMat id u).requests = c.requests := rfl
@[simp] theorem Core.modMat_doomed (c : Core) (id : Nat) (u : MatOp → MatOp) : (c.modMat id u).doomed = c.doomed := rfl
@[simp] theorem Core.modMat_free (c : Core) (id : Nat) (u : MatOp → MatOp) : (c.modMat id u).free = c.free := rfl

/-! `State.atRecord`: the record at issue -/

@[simp] theorem State.atRecord_cycle (s : State) (x : Ctx) : (s.atRecord x).cycle = s.cycle := rfl
@[simp] theorem State.atRecord_phase (s : State) (x : Ctx) : (s.atRecord x).phase = s.phase := rfl
@[simp] theorem State.atRecord_work (s : State) (x : Ctx) : (s.atRecord x).work = s.work := rfl
@[simp] theorem State.atRecord_inputs (s : State) (x : Ctx) : (s.atRecord x).inputs = s.inputs := rfl
@[simp] theorem State.atRecord_mem (s : State) (x : Ctx) : (s.atRecord x).mem = s.mem := rfl
@[simp] theorem State.atRecord_cch (s : State) (x : Ctx) : (s.atRecord x).cch = s.cch := rfl
@[simp] theorem State.atRecord_lch (s : State) (x : Ctx) : (s.atRecord x).lch = s.lch := rfl
@[simp] theorem State.atRecord_hst (s : State) (x : Ctx) : (s.atRecord x).hst = s.hst := rfl
@[simp] theorem State.atRecord_pow (s : State) (x : Ctx) : (s.atRecord x).pow = s.pow := rfl
@[simp] theorem State.atRecord_svc (s : State) (x : Ctx) : (s.atRecord x).svc = s.svc := rfl
@[simp] theorem State.atRecord_fab (s : State) (x : Ctx) : (s.atRecord x).fab = s.fab := rfl
@[simp] theorem State.atRecord_sec (s : State) (x : Ctx) : (s.atRecord x).sec = s.sec := rfl

/-! `State.homeWrite`: bytes that reach their home -/

@[simp] theorem State.homeWrite_cycle (s : State) (l : Loc) (bs : List Byte) (world : Nat) : (s.homeWrite l bs world).cycle = s.cycle := rfl
@[simp] theorem State.homeWrite_phase (s : State) (l : Loc) (bs : List Byte) (world : Nat) : (s.homeWrite l bs world).phase = s.phase := rfl
@[simp] theorem State.homeWrite_work (s : State) (l : Loc) (bs : List Byte) (world : Nat) : (s.homeWrite l bs world).work = s.work := rfl
@[simp] theorem State.homeWrite_inputs (s : State) (l : Loc) (bs : List Byte) (world : Nat) : (s.homeWrite l bs world).inputs = s.inputs := rfl
@[simp] theorem State.homeWrite_core (s : State) (l : Loc) (bs : List Byte) (world : Nat) : (s.homeWrite l bs world).core = s.core := rfl
@[simp] theorem State.homeWrite_lch (s : State) (l : Loc) (bs : List Byte) (world : Nat) : (s.homeWrite l bs world).lch = s.lch := rfl
@[simp] theorem State.homeWrite_hst (s : State) (l : Loc) (bs : List Byte) (world : Nat) : (s.homeWrite l bs world).hst = s.hst := rfl
@[simp] theorem State.homeWrite_pow (s : State) (l : Loc) (bs : List Byte) (world : Nat) : (s.homeWrite l bs world).pow = s.pow := rfl
@[simp] theorem State.homeWrite_svc (s : State) (l : Loc) (bs : List Byte) (world : Nat) : (s.homeWrite l bs world).svc = s.svc := rfl
@[simp] theorem State.homeWrite_fab (s : State) (l : Loc) (bs : List Byte) (world : Nat) : (s.homeWrite l bs world).fab = s.fab := rfl

/-! `State.hostWrite`: bytes in host memory -/

@[simp] theorem State.hostWrite_cycle (s : State) (pa : Nat) (bs : List Byte) : (s.hostWrite pa bs).cycle = s.cycle := rfl
@[simp] theorem State.hostWrite_phase (s : State) (pa : Nat) (bs : List Byte) : (s.hostWrite pa bs).phase = s.phase := rfl
@[simp] theorem State.hostWrite_work (s : State) (pa : Nat) (bs : List Byte) : (s.hostWrite pa bs).work = s.work := rfl
@[simp] theorem State.hostWrite_inputs (s : State) (pa : Nat) (bs : List Byte) : (s.hostWrite pa bs).inputs = s.inputs := rfl
@[simp] theorem State.hostWrite_core (s : State) (pa : Nat) (bs : List Byte) : (s.hostWrite pa bs).core = s.core := rfl
@[simp] theorem State.hostWrite_lch (s : State) (pa : Nat) (bs : List Byte) : (s.hostWrite pa bs).lch = s.lch := rfl
@[simp] theorem State.hostWrite_hst (s : State) (pa : Nat) (bs : List Byte) : (s.hostWrite pa bs).hst = s.hst := rfl
@[simp] theorem State.hostWrite_pow (s : State) (pa : Nat) (bs : List Byte) : (s.hostWrite pa bs).pow = s.pow := rfl
@[simp] theorem State.hostWrite_svc (s : State) (pa : Nat) (bs : List Byte) : (s.hostWrite pa bs).svc = s.svc := rfl
@[simp] theorem State.hostWrite_fab (s : State) (pa : Nat) (bs : List Byte) : (s.hostWrite pa bs).fab = s.fab := rfl
@[simp] theorem State.hostWrite_sec (s : State) (pa : Nat) (bs : List Byte) : (s.hostWrite pa bs).sec = s.sec := rfl

/-! `State.modFunc`: one function's block -/

@[simp] theorem State.modFunc_cycle (s : State) (f : Nat) (u : Func → Func) : (s.modFunc f u).cycle = s.cycle := rfl
@[simp] theorem State.modFunc_phase (s : State) (f : Nat) (u : Func → Func) : (s.modFunc f u).phase = s.phase := rfl
@[simp] theorem State.modFunc_work (s : State) (f : Nat) (u : Func → Func) : (s.modFunc f u).work = s.work := rfl
@[simp] theorem State.modFunc_inputs (s : State) (f : Nat) (u : Func → Func) : (s.modFunc f u).inputs = s.inputs := rfl
@[simp] theorem State.modFunc_core (s : State) (f : Nat) (u : Func → Func) : (s.modFunc f u).core = s.core := rfl
@[simp] theorem State.modFunc_mem (s : State) (f : Nat) (u : Func → Func) : (s.modFunc f u).mem = s.mem := rfl
@[simp] theorem State.modFunc_cch (s : State) (f : Nat) (u : Func → Func) : (s.modFunc f u).cch = s.cch := rfl
@[simp] theorem State.modFunc_lch (s : State) (f : Nat) (u : Func → Func) : (s.modFunc f u).lch = s.lch := rfl
@[simp] theorem State.modFunc_pow (s : State) (f : Nat) (u : Func → Func) : (s.modFunc f u).pow = s.pow := rfl
@[simp] theorem State.modFunc_svc (s : State) (f : Nat) (u : Func → Func) : (s.modFunc f u).svc = s.svc := rfl
@[simp] theorem State.modFunc_fab (s : State) (f : Nat) (u : Func → Func) : (s.modFunc f u).fab = s.fab := rfl
@[simp] theorem State.modFunc_sec (s : State) (f : Nat) (u : Func → Func) : (s.modFunc f u).sec = s.sec := rfl

/-! `State.modDie`: one die's power -/

@[simp] theorem State.modDie_cycle (s : State) (n : Nat) (u : Die → Die) : (s.modDie n u).cycle = s.cycle := rfl
@[simp] theorem State.modDie_phase (s : State) (n : Nat) (u : Die → Die) : (s.modDie n u).phase = s.phase := rfl
@[simp] theorem State.modDie_work (s : State) (n : Nat) (u : Die → Die) : (s.modDie n u).work = s.work := rfl
@[simp] theorem State.modDie_inputs (s : State) (n : Nat) (u : Die → Die) : (s.modDie n u).inputs = s.inputs := rfl
@[simp] theorem State.modDie_core (s : State) (n : Nat) (u : Die → Die) : (s.modDie n u).core = s.core := rfl
@[simp] theorem State.modDie_mem (s : State) (n : Nat) (u : Die → Die) : (s.modDie n u).mem = s.mem := rfl
@[simp] theorem State.modDie_cch (s : State) (n : Nat) (u : Die → Die) : (s.modDie n u).cch = s.cch := rfl
@[simp] theorem State.modDie_lch (s : State) (n : Nat) (u : Die → Die) : (s.modDie n u).lch = s.lch := rfl
@[simp] theorem State.modDie_hst (s : State) (n : Nat) (u : Die → Die) : (s.modDie n u).hst = s.hst := rfl
@[simp] theorem State.modDie_svc (s : State) (n : Nat) (u : Die → Die) : (s.modDie n u).svc = s.svc := rfl
@[simp] theorem State.modDie_fab (s : State) (n : Nat) (u : Die → Die) : (s.modDie n u).fab = s.fab := rfl
@[simp] theorem State.modDie_sec (s : State) (n : Nat) (u : Die → Die) : (s.modDie n u).sec = s.sec := rfl

/-! `State.modSvc`: the service controller -/

@[simp] theorem State.modSvc_cycle (s : State) (u : Service → Service) : (s.modSvc u).cycle = s.cycle := rfl
@[simp] theorem State.modSvc_phase (s : State) (u : Service → Service) : (s.modSvc u).phase = s.phase := rfl
@[simp] theorem State.modSvc_work (s : State) (u : Service → Service) : (s.modSvc u).work = s.work := rfl
@[simp] theorem State.modSvc_inputs (s : State) (u : Service → Service) : (s.modSvc u).inputs = s.inputs := rfl
@[simp] theorem State.modSvc_core (s : State) (u : Service → Service) : (s.modSvc u).core = s.core := rfl
@[simp] theorem State.modSvc_mem (s : State) (u : Service → Service) : (s.modSvc u).mem = s.mem := rfl
@[simp] theorem State.modSvc_cch (s : State) (u : Service → Service) : (s.modSvc u).cch = s.cch := rfl
@[simp] theorem State.modSvc_lch (s : State) (u : Service → Service) : (s.modSvc u).lch = s.lch := rfl
@[simp] theorem State.modSvc_hst (s : State) (u : Service → Service) : (s.modSvc u).hst = s.hst := rfl
@[simp] theorem State.modSvc_pow (s : State) (u : Service → Service) : (s.modSvc u).pow = s.pow := rfl
@[simp] theorem State.modSvc_fab (s : State) (u : Service → Service) : (s.modSvc u).fab = s.fab := rfl
@[simp] theorem State.modSvc_sec (s : State) (u : Service → Service) : (s.modSvc u).sec = s.sec := rfl

/-! `State.modFab`: the fabric -/

@[simp] theorem State.modFab_cycle (s : State) (u : Fabric → Fabric) : (s.modFab u).cycle = s.cycle := rfl
@[simp] theorem State.modFab_phase (s : State) (u : Fabric → Fabric) : (s.modFab u).phase = s.phase := rfl
@[simp] theorem State.modFab_work (s : State) (u : Fabric → Fabric) : (s.modFab u).work = s.work := rfl
@[simp] theorem State.modFab_inputs (s : State) (u : Fabric → Fabric) : (s.modFab u).inputs = s.inputs := rfl
@[simp] theorem State.modFab_core (s : State) (u : Fabric → Fabric) : (s.modFab u).core = s.core := rfl
@[simp] theorem State.modFab_mem (s : State) (u : Fabric → Fabric) : (s.modFab u).mem = s.mem := rfl
@[simp] theorem State.modFab_cch (s : State) (u : Fabric → Fabric) : (s.modFab u).cch = s.cch := rfl
@[simp] theorem State.modFab_lch (s : State) (u : Fabric → Fabric) : (s.modFab u).lch = s.lch := rfl
@[simp] theorem State.modFab_hst (s : State) (u : Fabric → Fabric) : (s.modFab u).hst = s.hst := rfl
@[simp] theorem State.modFab_pow (s : State) (u : Fabric → Fabric) : (s.modFab u).pow = s.pow := rfl
@[simp] theorem State.modFab_svc (s : State) (u : Fabric → Fabric) : (s.modFab u).svc = s.svc := rfl
@[simp] theorem State.modFab_sec (s : State) (u : Fabric → Fabric) : (s.modFab u).sec = s.sec := rfl

/-! `Group.modSplit`: one split entry of a group -/

@[simp] theorem Group.modSplit_h (g : Group) (n : Nat) (u : SplitE → SplitE) : (g.modSplit n u).h = g.h := rfl
@[simp] theorem Group.modSplit_slot (g : Group) (n : Nat) (u : SplitE → SplitE) : (g.modSplit n u).slot = g.slot := rfl
@[simp] theorem Group.modSplit_part (g : Group) (n : Nat) (u : SplitE → SplitE) : (g.modSplit n u).part = g.part := rfl
@[simp] theorem Group.modSplit_num (g : Group) (n : Nat) (u : SplitE → SplitE) : (g.modSplit n u).num = g.num := rfl
@[simp] theorem Group.modSplit_v (g : Group) (n : Nat) (u : SplitE → SplitE) : (g.modSplit n u).v = g.v := rfl
@[simp] theorem Group.modSplit_k (g : Group) (n : Nat) (u : SplitE → SplitE) : (g.modSplit n u).k = g.k := rfl
@[simp] theorem Group.modSplit_sh (g : Group) (n : Nat) (u : SplitE → SplitE) : (g.modSplit n u).sh = g.sh := rfl
@[simp] theorem Group.modSplit_a (g : Group) (n : Nat) (u : SplitE → SplitE) : (g.modSplit n u).a = g.a := rfl
@[simp] theorem Group.modSplit_acc (g : Group) (n : Nat) (u : SplitE → SplitE) : (g.modSplit n u).acc = g.acc := rfl
@[simp] theorem Group.modSplit_shadowing (g : Group) (n : Nat) (u : SplitE → SplitE) : (g.modSplit n u).shadowing = g.shadowing := rfl
@[simp] theorem Group.modSplit_fflags (g : Group) (n : Nat) (u : SplitE → SplitE) : (g.modSplit n u).fflags = g.fflags := rfl
@[simp] theorem Group.modSplit_isat (g : Group) (n : Nat) (u : SplitE → SplitE) : (g.modSplit n u).isat = g.isat := rfl
@[simp] theorem Group.modSplit_fctl (g : Group) (n : Nat) (u : SplitE → SplitE) : (g.modSplit n u).fctl = g.fctl := rfl
@[simp] theorem Group.modSplit_vrot (g : Group) (n : Nat) (u : SplitE → SplitE) : (g.modSplit n u).vrot = g.vrot := rfl
@[simp] theorem Group.modSplit_seqIter (g : Group) (n : Nat) (u : SplitE → SplitE) : (g.modSplit n u).seqIter = g.seqIter := rfl
@[simp] theorem Group.modSplit_issues (g : Group) (n : Nat) (u : SplitE → SplitE) : (g.modSplit n u).issues = g.issues := rfl
@[simp] theorem Group.modSplit_pend (g : Group) (n : Nat) (u : SplitE → SplitE) : (g.modSplit n u).pend = g.pend := rfl
@[simp] theorem Group.modSplit_tags (g : Group) (n : Nat) (u : SplitE → SplitE) : (g.modSplit n u).tags = g.tags := rfl
@[simp] theorem Group.modSplit_idents (g : Group) (n : Nat) (u : SplitE → SplitE) : (g.modSplit n u).idents = g.idents := rfl
@[simp] theorem Group.modSplit_regionCtr (g : Group) (n : Nat) (u : SplitE → SplitE) : (g.modSplit n u).regionCtr = g.regionCtr := rfl
@[simp] theorem Group.modSplit_sides (g : Group) (n : Nat) (u : SplitE → SplitE) : (g.modSplit n u).sides = g.sides := rfl
@[simp] theorem Group.modSplit_areaFree (g : Group) (n : Nat) (u : SplitE → SplitE) : (g.modSplit n u).areaFree = g.areaFree := rfl
@[simp] theorem Group.modSplit_gated (g : Group) (n : Nat) (u : SplitE → SplitE) : (g.modSplit n u).gated = g.gated := rfl
@[simp] theorem Group.modSplit_holds (g : Group) (n : Nat) (u : SplitE → SplitE) : (g.modSplit n u).holds = g.holds := rfl
@[simp] theorem Group.modSplit_ckpt (g : Group) (n : Nat) (u : SplitE → SplitE) : (g.modSplit n u).ckpt = g.ckpt := rfl
@[simp] theorem Group.modSplit_ckptReq (g : Group) (n : Nat) (u : SplitE → SplitE) : (g.modSplit n u).ckptReq = g.ckptReq := rfl
@[simp] theorem Group.modSplit_next (g : Group) (n : Nat) (u : SplitE → SplitE) : (g.modSplit n u).next = g.next := rfl
@[simp] theorem Group.modSplit_ckptBytes (g : Group) (n : Nat) (u : SplitE → SplitE) : (g.modSplit n u).ckptBytes = g.ckptBytes := rfl
@[simp] theorem Group.modSplit_recorded (g : Group) (n : Nat) (u : SplitE → SplitE) : (g.modSplit n u).recorded = g.recorded := rfl
@[simp] theorem Group.modSplit_undo (g : Group) (n : Nat) (u : SplitE → SplitE) : (g.modSplit n u).undo = g.undo := rfl
@[simp] theorem Group.modSplit_reads (g : Group) (n : Nat) (u : SplitE → SplitE) : (g.modSplit n u).reads = g.reads := rfl
@[simp] theorem Group.modSplit_busyUntil (g : Group) (n : Nat) (u : SplitE → SplitE) : (g.modSplit n u).busyUntil = g.busyUntil := rfl
@[simp] theorem Group.modSplit_lastLand (g : Group) (n : Nat) (u : SplitE → SplitE) : (g.modSplit n u).lastLand = g.lastLand := rfl
@[simp] theorem Group.modSplit_stCount (g : Group) (n : Nat) (u : SplitE → SplitE) : (g.modSplit n u).stCount = g.stCount := rfl
@[simp] theorem Group.modSplit_answers (g : Group) (n : Nat) (u : SplitE → SplitE) : (g.modSplit n u).answers = g.answers := rfl
@[simp] theorem Group.modSplit_flues (g : Group) (n : Nat) (u : SplitE → SplitE) : (g.modSplit n u).flues = g.flues := rfl
@[simp] theorem Group.modSplit_blocks (g : Group) (n : Nat) (u : SplitE → SplitE) : (g.modSplit n u).blocks = g.blocks := rfl
@[simp] theorem Group.modSplit_full (g : Group) (n : Nat) (u : SplitE → SplitE) : (g.modSplit n u).full = g.full := rfl

/-! ### Look-ups -/

/-- Looking up by a key after changing what stands under it. -/
theorem find_map_self {α : Type} (l : List α) (p : α → Bool) (u : α → α) (hu : ∀ x, p x = true → p (u x) = true) :
    (l.map fun x => if p x then u x else x).find? p = (l.find? p).map u := by
  induction l with
  | nil => rfl
  | cons x l ih =>
    cases h : p x with
    | true => rw [List.map_cons, if_pos h, List.find?_cons_of_pos (hu x h), List.find?_cons_of_pos h]; rfl
    | false =>
      have h' : ¬ p x = true := by simp [h]
      rw [List.map_cons, if_neg h', List.find?_cons_of_neg h', List.find?_cons_of_neg h', ih]

/-- Looking up by one key after changing what stands under another. -/
theorem find_map_other {α : Type} (l : List α) (p q : α → Bool) (u : α → α) (hu : ∀ x, p x = true → q x = false ∧ q (u x) = false) :
    (l.map fun x => if p x then u x else x).find? q = l.find? q := by
  induction l with
  | nil => rfl
  | cons x l ih =>
    cases h : p x with
    | true =>
      obtain ⟨h1, h2⟩ := hu x h
      have h1' : ¬ q x = true := by simp [h1]
      have h2' : ¬ q (u x) = true := by simp [h2]
      rw [List.map_cons, if_pos h, List.find?_cons_of_neg h2', List.find?_cons_of_neg h1', ih]
    | false =>
      have h' : ¬ p x = true := by simp [h]
      rw [List.map_cons, if_neg h']
      cases hq : q x with
      | true => rw [List.find?_cons_of_pos hq, List.find?_cons_of_pos hq]
      | false =>
        have hq' : ¬ q x = true := by simp [hq]
        rw [List.find?_cons_of_neg hq', List.find?_cons_of_neg hq', ih]

/-- The group in a slot after its change. -/
theorem group_modGroup (c : Core) (h slot : Nat) (u : Group → Group) (hu : ∀ g, (u g).h = g.h ∧ (u g).slot = g.slot) :
    (c.modGroup h slot u).group? h slot = (c.group? h slot).map u :=
  find_map_self c.groups (fun g => g.h == h && g.slot == slot) u fun x hx => by rw [(hu x).1, (hu x).2]; exact hx

/-- A group in another slot keeps as it was. -/
theorem group_modGroup_other (c : Core) (h slot h' slot' : Nat) (u : Group → Group) (hu : ∀ g, (u g).h = g.h ∧ (u g).slot = g.slot)
    (hne : ¬ (h' = h ∧ slot' = slot)) : (c.modGroup h slot u).group? h' slot' = c.group? h' slot' :=
  find_map_other c.groups (fun g => g.h == h && g.slot == slot) (fun g => g.h == h' && g.slot == slot') u fun x hx => by
    rw [(hu x).1, (hu x).2]
    simp only [Bool.and_eq_true, beq_iff_eq] at hx
    simp only [Bool.and_eq_false_iff, beq_eq_false_iff_ne]
    omega

/-- A part after its change. -/
theorem part_modPart (c : Core) (id : Nat) (u : Part → Part) (hu : ∀ p, (u p).id = p.id) :
    (c.modPart id u).part? id = (c.part? id).map u :=
  find_map_self c.parts (fun p => p.id == id) u fun x hx => by rw [hu x]; exact hx

/-- Another part keeps as it was. -/
theorem part_modPart_other (c : Core) (id id' : Nat) (u : Part → Part) (hu : ∀ p, (u p).id = p.id) (hne : id' ≠ id) :
    (c.modPart id u).part? id' = c.part? id' :=
  find_map_other c.parts (fun p => p.id == id) (fun p => p.id == id') u fun x hx => by
    rw [hu x]
    simp only [beq_iff_eq] at hx
    simp only [beq_eq_false_iff_ne]
    omega

/-- A hearth after its change. -/
theorem hearth_modHearth (c : Core) (h : Nat) (u : Hearth → Hearth) : (c.modHearth h u).hearth? h = (c.hearth? h).map u := by
  simp [Core.modHearth, Core.hearth?]

/-- Another hearth keeps as it was. -/
theorem hearth_modHearth_other (c : Core) (h h' : Nat) (u : Hearth → Hearth) (hne : h' ≠ h) : (c.modHearth h u).hearth? h' = c.hearth? h' := by
  simp [Core.modHearth, Core.hearth?, Ne.symm hne]

/-- A split entry after its change. -/
theorem split_modSplit (g : Group) (n : Nat) (u : SplitE → SplitE) (h : n < g.splits.length) : (g.modSplit n u).split n = u (g.split n) := by
  simp [Group.modSplit, Group.split, List.getD, h]

/-- Another split entry keeps as it was. -/
theorem split_modSplit_other (g : Group) (n m : Nat) (u : SplitE → SplitE) (h : m ≠ n) : (g.modSplit n u).split m = g.split m := by
  simp [Group.modSplit, Group.split, List.getD, Ne.symm h]

/-! ### Taking a trap (R286 to R288) -/

/-- A raised trap touches groups and parts alone. -/
theorem raise_rest (c : Core) (g : Group) (ev : TrapEv) :
    ∃ gs ps, c.raise g ev = { c with groups := gs, parts := ps } := by
  unfold Core.raise
  split
  · exact ⟨c.groups, c.parts, rfl⟩
  · split
    · exact ⟨_, _, rfl⟩
    · split <;> exact ⟨_, _, rfl⟩

/-- Taking a trap touches groups, parts and the record at issue alone. -/
theorem takeTrap_rest (s : State) (t : TrapInfo) (origin : Nat) :
    ∃ gs ps x, takeTrap s t origin = { s.core with groups := gs, parts := ps, ctx := x } := by
  unfold takeTrap
  dsimp only
  cases s.core.group? s.core.ctx.h s.core.ctx.slot with
  | none => exact ⟨s.core.groups, s.core.parts, s.core.ctx, rfl⟩
  | some g =>
    dsimp only
    split
    · split
      · obtain ⟨gs, ps, h⟩ := raise_rest { s.core with ctx := { s.core.ctx with voided := true } } g (t.event s.core.ctx origin s.cycle)
        exact ⟨gs, ps, _, h⟩
      · obtain ⟨gs, ps, h⟩ := raise_rest { (s.core.modSplit s.core.ctx.h s.core.ctx.slot s.core.ctx.split fun e => { e with offset := s.core.ctx.off }) with
          ctx := { s.core.ctx with voided := true } } g (t.event s.core.ctx origin s.cycle)
        exact ⟨gs, ps, _, h⟩
    · obtain ⟨gs, ps, h⟩ := raise_rest s.core g (t.event s.core.ctx origin s.cycle)
      exact ⟨gs, ps, _, h⟩

/-! ### Slot ops (R28) -/

/-- The core after a slot op is the one it was, one that took a trap, or the op's own effect on a group that stands. -/
theorem slotOp_cases (s : State) (sl : Slot) (hd : Hdr) (bad : View → Option Nat) (eff : View → LaneMask → OpResult) :
    slotOp s sl hd bad eff = s.core ∨ (∃ t o, slotOp s sl hd bad eff = takeTrap s t o) ∨
    ∃ v c, view s = some v ∧ v.lanesOf sl hd ≠ 0 ∧ bad v = none ∧ eff v (v.lanesOf sl hd) = .ok c ∧ slotOp s sl hd bad eff = c := by
  cases hv : view s with
  | none => left; simp only [slotOp, hv]
  | some v =>
    by_cases h0 : v.lanesOf sl hd = 0
    · exact Or.inl (slotOp_idle hv h0)
    · cases hb : bad v with
      | some bit => exact Or.inr (Or.inl ⟨_, _, slotOp_reserved hv h0 hb⟩)
      | none =>
        cases he : eff v (v.lanesOf sl hd) with
        | ok c => exact Or.inr (Or.inr ⟨v, c, rfl, h0, hb, he, slotOp_ok hv h0 hb he⟩)
        | trap t o => exact Or.inr (Or.inl ⟨t, o, slotOp_trap hv h0 hb he⟩)

end Sys2Proof.Machine
end

