-- ==== Sys2Proof/Safety.lean ====
section
/-! DEFINITION. What a safe run is: no step of it stops. -/

namespace Sys2Proof.Safety

open Sys2Proof.Machine

/-- A step answered a next state. -/
def Completes (o : Host.Outcome State Fault Refusal) : Prop := ∃ t, o = .next t

/-- The first `n` steps from a state all answer a next state. -/
def SafeFor (n : Nat) (s : State) : Prop := Completes (Sys2Proof.core.run n s)

end Sys2Proof.Safety
end

