-- ==== Sys2Proof/Tests/States.lean ====
section
/-! SUPPORT. The small machine of the tests: one group of one team on hearth 0, and ops with their other fields zero. -/

set_option Elab.async false

namespace Sys2Proof.Tests

open Sys2Proof Sys2Proof.Machine

/-- An image with 16 vector registers, two tiles and 4 KiB of scratchpad. -/
def image0 : Image :=
  { base := 0x10000, dictCount := 8, hotCount := 1, dictOff := 64, patOff := 0, patCount := 0, swCount := 0, tnCount := 0, swOff := 0,
    landOff := 0, tnOff := 0, streamOff := 0x1000, streamLen := 4096, entry := 0, vregs := 16, acc := 2, groups := 1, stove := false,
    scratch := 4096, priv := 64 }

/-- A split with every lane. -/
def split0 : SplitE := { freeSplit with mask := LaneMask.all, state := .ready, offset := 16 }

/-- Group 0 of the team. -/
def group0 : Group :=
  { h := 0, slot := 0, part := 1, num := 0, splits := [split0, freeSplit, freeSplit, freeSplit],
    v := List.replicate 16 Vec.zero, k := LaneMask.all :: List.replicate 15 0, sh := List.replicate 16 0, a := List.replicate 16 0,
    acc := List.replicate 2 (List.replicate 128 Vec.zero), shadowing := [], fflags := 0, isat := false, fctl := 0, vrot := 0, seqIter := 0,
    issues := 0, pend := [], tags := List.replicate 16 { count := 0, failed := none }, idents := [], regionCtr := 0, sides := [],
    areaFree := BitVec.allOnes 256, gated := [], holds := [], ckpt := none, ckptReq := none, next := none, ckptBytes := 0,
    recorded := [], undo := [], reads := [], busyUntil := 0, lastLand := 0, stCount := 0, flues := List.replicate 8 none }

/-- A barrier at its start. -/
def bar0 : Barrier := { gen := 0, expect := 1, arrived := 0, arrivals := [] }

/-- The team's part on hearth 0. -/
def part0 : Part :=
  { id := 1, launch := 1, team := 0, p := 0, h := 0, func := 0, world := 0, prio := 0, image := image0, pid := 1, filt := 0, arg := 0,
    privBase := 0, privStride := 0, swap := 0, ovf := 0, ovfn := 0, handlerOff := 0xFFFFFFFF, dbgen := 0, brk := [], flags := 0, sampn := 0,
    sbuf := 0, sbufn := 0, dbuf := 0, dbufn := 0, scratch := [], bars := List.replicate 16 bar0, tn := List.replicate 64 (List.replicate 8 0),
    tnPend := [], pats := [], threshold := 1024, waitClock := 0, handler := none, events := [], handlerAt := 0,
    shadow := [], epoch := 0, races := [], halt := 0, dump := 0, fates := [], stop := [], stopAt := none, bindings := [], placed := 0 }

/-- Split 0 issues the record at offset 16; the next record stands at 18. -/
def ctx0 : Ctx :=
  { h := 0, slot := 0, split := 0, off := 16, nxt := 18, idx := 3, shared := 0, lits := [], smask := LaneMask.all, rmask := LaneMask.all,
    kill := 0, iter := none, rho := 0, seq := 7, reason := 0, fetch := (0, 0, 0), voided := false }

/-- The machine at that record. -/
def atRecord0 (g : Group) (p : Part) (x : Ctx) : State :=
  { State.reset with cycle := 100, work := []
                     core := { State.reset.core with groups := [g], parts := [p], ctx := x, seq := 8 } }

/-- With nothing special. -/
def s0 : State := atRecord0 group0 part0 ctx0

/-- With literals, and a route code for a slot. -/
def lits0 (sl : Slot) (code : Nat) (l : List W32) : Ctx :=
  { ctx0 with shared := BitVec.ofNat 48 (code * 2 ^ routePlace sl), lits := l }

/-- What the ops of its record see. -/
def vw (s : State) : View :=
  { st := s, x := s.core.ctx, g := s.core.groups.headD group0, p := s.core.parts.headD part0 }

/-- Guard k0, not squashable. -/
def hdr0 : Hdr := { gpol := false, gpred := 0, sq := false }

/-- Ops whose other fields are 0. -/
def sF (sd sa sb : Nat) : SFields :=
  { hdr := hdr0, aux := 0, width := 0, bsel := 0, func := 0, sb := BitVec.ofNat 6 sb, sa := BitVec.ofNat 6 sa, sd := BitVec.ofNat 6 sd }
def vF (vd va vb : Nat) : VFields :=
  { hdr := hdr0, unit1 := false, rsv := 0, func := 0, fmt2 := 0, bsel := 0, sat := false, rm := 0, fmt := 0, vc := 0,
    vb := BitVec.ofNat 6 vb, va := BitVec.ofNat 6 va, vd := BitVec.ofNat 6 vd }
def fF (vd va : Nat) : FFields := { hdr := hdr0, rsv := false, fmt := 0, va := BitVec.ofNat 6 va, vd := BitVec.ofNat 6 vd }
def xF (vd va aux : Nat) : XFields :=
  { hdr := hdr0, aux := BitVec.ofNat 6 aux, va := BitVec.ofNat 6 va, vd := BitVec.ofNat 6 vd }
def mF (data base index : Nat) : MFields :=
  { hdr := hdr0, vidx := false, ord := 0, scope := 0, func := 0, rot := 0, disp := 0, offsel := 0, sx := false, width := 2, idxen := false,
    index := BitVec.ofNat 6 index, base := BitVec.ofNat 6 base, data := BitVec.ofNat 6 data }
def aF (o0 o1 o2 : Nat) : AFields :=
  { hdr := hdr0, rsv := 0, func := 0, ntag := 0, ctag2 := 0, ctag1 := 0, ctag0 := 0, otag := 0,
    opc2 := BitVec.ofNat 6 o2, opc1 := BitVec.ofNat 6 o1, opc0 := BitVec.ofNat 6 o0 }
def tF (acc opa opb : Nat) : TFields :=
  { hdr := hdr0, rsv := 0, qg := 0, spn := 0, sat := false, incen := false, incr := 0, rep := 0, bsrc := false, asrc := false,
    opb := BitVec.ofNat 6 opb, opa := BitVec.ofNat 6 opa, tnb := 0, tna := 0, rate := 0, rsv16 := false, acc := BitVec.ofNat 2 acc }
def cF (tsel aux func sb sa : Nat) : CFields :=
  { hdr := hdr0, aux := BitVec.ofNat 8 aux, tsel := BitVec.ofNat 2 tsel, func := BitVec.ofNat 4 func, sb := BitVec.ofNat 6 sb,
    sa := BitVec.ofNat 6 sa }

/-- Scalars of the group: s16 up, and address registers. -/
def withScalars (sh a : List W64) : Group :=
  { group0 with sh := sh ++ List.replicate (16 - sh.length) 0, a := a ++ List.replicate (16 - a.length) 0 }

/-- The launch of the team. -/
def record0 : LaunchRec :=
  { image := 0x10000, arg := 0, filt := 0, priv := 0, pstride := 0, teams := 1, swap := 0, ovf := 0, ovfn := 0, handler := 0xFFFFFFFF, dep := 0,
    depval := 0, done := 0, crec := 0x20000, ext := 0, queue := 0, prio := 0, world := 0, part := 0, msix := 0xFFFF, flags := 0, sampn := 0,
    rsv := false }
def ext0 : LaunchExt := { dbgen := 0, brk := [], sbuf := 0, sbufn := 0, dbuf := 0, dbufn := 0, mdlist := [], fblist := [], rsv := false }
def team0 : Team :=
  { index := 0, state := .resident, saved := [], leaving := 0, noPreempt := 0, admin := none, saveWait := 0, since := 0, yields := none }
def launch0 : Launch :=
  { id := 1, func := 0, num := 1, record := record0, ext := ext0, image := image0, teams := [team0], eligible := some 0, aged := false,
    loads := [], status := none, failTags := 0, dropSamples := 0, dropRaces := 0, samples := 0, races := 0, lastDie := none, fresh := [],
    stage := 0, wait := 0 }
/-- With its launch. -/
def launched (s : State) : State := { s with lch := { s.lch with launches := [launch0] } }

/-- A leaf entry for device memory from `pa` on: present, writable, executable, accessed and dirty. -/
def leaf0 (pa : Nat) : W64 := BitVec.ofNat 64 (2 ^ 63 + 2 ^ 62 + pa + 0x603)

/-- World 0 finds its first gigabyte at device memory 0, in the TLB of stove 0. -/
def mapped (s : State) : State :=
  { s with cch := { s.cch with tlb := [{ stove := 0, world := 0, base := 0, size := 2 ^ 30, leaf := leaf0 0,
                                         ptr := { tgt := 0, dev := 0, pa := 2 ^ 30 } }] } }

/-- Device memory holds these cells. -/
def holding (cells : List Host.Cell) (s : State) : State := { s with mem := { s.mem with dev := cells } }

/-- Whatever the calendar's offset, one of two banks of die 0 is not being refreshed in cycle 100. -/
theorem meadow_open : meadowBusy 0 100 0 = false ∨ meadowBusy 0 100 256 = false := by
  unfold meadowBusy bitsNat
  dsimp only
  by_cases h : (100 + Config.moff 0 % 20480) % 20480 / 2560 = 0
  · right; rw [h]; rfl
  · left; rw [show 0 >>> 8 % 2 ^ (10 + 1 - 8) = 0 from rfl, beq_eq_false_iff_ne.mpr h]; rfl

end Sys2Proof.Tests
end

