-- ==== Sys2Proof/Tests/Control.lean ====
section
/-! SUPPORT. States and operands that meet the hypotheses of the statements about the C slot. -/

set_option Elab.async false

namespace Sys2Proof.Tests

open Sys2Proof Sys2Proof.Machine Sys2Proof.Claims

/-- The landing map allows offsets 20, 40 and 4095; the record at 40 has index 1, whose word holds SPF and its parity; the switch
entries lead at the lower levels to 18, to 40 and to 20. -/
def codeCells : List Host.Cell :=
  [(0x10084, 0x40), (0x10085, 1), (0x11028, 1), (0x12002, 0x10), (0x12005, 1), (0x121FF, 0x80), (0x13008, 18), (0x13018, 40), (0x13028, 20)]
def codePart : Part := { part0 with image := { image0 with landOff := 0x2000, swOff := 0x3000, swCount := 3 } }
/-- The partition of the team on hearth 0, with eight free entries. -/
def partition0 : Partition :=
  { pid := 1, image := 0x10000, filt := 0, world := 0, size := 0, base := 0, dictCount := 8,
    entries := List.replicate 8 { tag := none, busy := false, valid := false, pinned := false, ref := false, word := 0,
                                  data := { wset := 0, fver := 0, price := 0, rvec := 0, reason := 0, xfer := false, varlat := false, index := 0 } },
    lru := List.range 8, hand := 0, preloaded := true, refills := [] }
/-- The machine at record 16 of that code. -/
def codeS (g : Group) (x : Ctx) : State :=
  let s := holding codeCells (mapped (atRecord0 g codePart x))
  { s with core := s.core.modHearth 0 fun hr => { hr with partitions := [partition0] } }
/-- A literal, or a pair, for the C slot. -/
def toS (g : Group) (t : Nat) : State := codeS g (lits0 .c 1 [BitVec.ofNat 32 t])
def pairToS (g : Group) (t j : Nat) : State := codeS g (lits0 .c 5 [BitVec.ofNat 32 t, BitVec.ofNat 32 j])
/-- s16 = 40, a0 = -1; k1 the even lanes, k2 none, k3 all. -/
def ctlG : Group :=
  { withScalars [40] [-1] with
    k := LaneMask.all :: (LaneMask.build fun n => n % 2 == 0) :: 0 :: LaneMask.all :: List.replicate 12 0
    splits := [{ split0 with bank := List.replicate 15 0 ++ [40] }, freeSplit, freeSplit, freeSplit] }

theorem issue_to (t : Nat) : view (toS ctlG t) = some (vw (toS ctlG t)) := rfl
theorem lanes_to (t : Nat) : LaneMask.all = (vw (toS ctlG t)).lanesOf .c hdr0 := by
  have : (vw (toS ctlG t)).lanesOf .c hdr0 = (vw (toS ctlG 0)).lanesOf .c hdr0 := rfl
  rw [this]; decide +kernel

/-- Legal targets 20 and 4095 and an illegal one; every class of condition, taken and not; s16 and s15 lead to 40. -/
theorem wit_ControlTransfers :
    ((vw (toS ctlG 20)).route32 .c = true ∧ (toS ctlG 20).landing codePart (litTarget (vw (toS ctlG 20))) = true ∧
      (toS ctlG 4095).landing codePart (litTarget (vw (toS ctlG 4095))) = true ∧ (toS ctlG 21).landing codePart 21 = false ∧
      (toS ctlG 4096).landing codePart 4096 = false) ∧
    CForm (cF 0 0 0 0 0) 0 false false false false ∧ CForm (cF 0 0 5 0 0x20) 0 false true false true ∧
    (ConditionOk (cF 0 0 5 0 0x20) ∧ branchTaken (vw s0) (cF 0 0 5 0 0x20) ∧ ¬branchTaken (vw s0) (cF 0 0 4 0 0x20)) ∧
    (ConditionOk (cF 0 0 10 0 0x33) ∧ branchTaken (vw (toS ctlG 20)) (cF 0 0 10 0 0x33) ∧ branchTaken (vw (toS ctlG 20)) (cF 0 0 9 0 0x32) ∧
      ¬branchTaken (vw (toS ctlG 20)) (cF 0 0 8 0 0x32)) ∧
    (CForm (cF 1 0 0 0 16) 1 false false false true ∧ (toS ctlG 20).landing codePart (scalarTarget (vw (toS ctlG 20)) 16) = true) ∧
    (CForm (cF 2 0 0 0 0) 2 false false false false ∧ (toS ctlG 20).landing codePart (scalarTarget (vw (toS ctlG 20)) 15) = true) := by
  refine ⟨by decide +kernel, ?_, ?_, ?_, ?_, ⟨?_, by decide +kernel⟩, ⟨?_, by decide +kernel⟩⟩
  · constructor <;> decide
  · constructor <;> decide
  · refine ⟨by unfold ConditionOk; decide, ?_, ?_⟩
    · change ((vw s0).scalar 0x20).toInt ≤ 0; decide +kernel
    · change ¬0 < ((vw s0).scalar 0x20).toInt; decide +kernel
  · refine ⟨by unfold ConditionOk; decide, ?_, ?_, ?_⟩
    · change (vw (toS ctlG 20)).g.pred 3 &&& (vw (toS ctlG 20)).x.smask = (vw (toS ctlG 20)).x.smask; decide +kernel
    · change (vw (toS ctlG 20)).g.pred 2 &&& (vw (toS ctlG 20)).x.smask = 0; decide +kernel
    · change ¬(vw (toS ctlG 20)).g.pred 2 &&& (vw (toS ctlG 20)).x.smask ≠ 0; decide +kernel
  · constructor <;> decide
  · constructor <;> decide

/-- The group with every split entry taken, and room for `n` entries in the region area. -/
def fullG (n : Nat) : Group :=
  let e : SplitE := { freeSplit with state := .ready }
  { ctlG with splits := [ctlG.split 0, e, e, e], areaFree := BitVec.ofNat 256 (2 ^ n - 1) }
/-- k2: no lane, k3: all lanes, k1: the even ones, with a free entry, with room in the area for the side, and without. -/
theorem wit_DivergentBranches :
    (let s := pairToS ctlG 20 40
     let v := vw s
     Issuing v ∧ CanTrap v ∧ CForm (cF 0 0 0 0 0x31) 0 false false false true ∧ v.route64 .c = true ∧
     s.landing v.p (litTarget v) = true ∧ s.landing v.p ((v.literal .c).toNat / 2 ^ 32) = true ∧
     LaneMask.all &&& v.g.pred 2 = 0 ∧ LaneMask.all &&& v.g.pred 3 = v.x.smask ∧
     LaneMask.all &&& v.g.pred 1 ≠ 0 ∧ LaneMask.all &&& v.g.pred 1 ≠ v.x.smask ∧ v.g.newIdent = some 0 ∧ LowestFree v.g 1) ∧
    ((∀ m, m < 4 → ((fullG 3).split m).state ≠ .free) ∧ 3 ≤ areaRoom (fullG 3).areaFree ∧ areaRoom (fullG 2).areaFree < 3) ∧
    (let g := { ctlG with v := ((List.range 128).map fun n => BitVec.ofNat 32 (if n < 64 then 20 else if n < 127 then 40 else 41)) :: group0.v.drop 1 }
     let s := codeS g ctx0
     let v := vw s
     VecOk v 0 1 ∧ CForm (cF 2 0 0 0 0) 2 false false false true ∧
     partsOf s v (v.vec 0) LaneMask.all * (spillCount (v.g.split v.x.split).ids + 3) ≤ areaRoom v.g.areaFree ∧
     goodLane s v (v.vec 0) LaneMask.all 0 = true ∧ goodLane s v (v.vec 0) LaneMask.all 127 = false) := by
  unfold Issuing CanTrap LowestFree VecOk
  refine ⟨?_, ?_, ?_⟩ <;> try dsimp only
  all_goals (repeat' apply And.intro)
  all_goals first | decide +kernel | (constructor <;> decide)

/-- A group in region 5, joined at 16, of which the even lanes are the splits' and the odd ones in the second split or a side. -/
def evens : LaneMask := LaneMask.build fun n => n % 2 == 0
def regionG (present : LaneMask) (sides : List Side) : Group :=
  { group0 with
    splits := [{ split0 with mask := evens, ids := [5], offset := 16 }, { split0 with mask := ~~~evens, ids := [5], offset := 16, state := .join }, freeSplit, freeSplit]
    idents := [{ ident := 5, join := 16, owed := LaneMask.all, present := present, count := 2 }]
    sides := sides }
def side0 : Side :=
  { hdr := 1, slo := 2, shi := 3, spill := [], ids := [5], offset := 30, mask := ~~~evens, bank := List.replicate 16 7, born := none, stored := true }
def evenCtx : Ctx := { ctx0 with smask := evens }
theorem issue_region (m : LaneMask) (l : List Side) : view (atRecord0 (regionG m l) part0 evenCtx) = some (vw (atRecord0 (regionG m l) part0 evenCtx)) := rfl
/-- The last lanes arrive; the first with and without a deferred side; a join elsewhere; no region at all. -/
theorem wit_JoinRegion :
    CForm (cF 2 0 0 0 0) 2 false false false false ∧
    (let v := vw (atRecord0 (regionG (~~~evens) []) part0 evenCtx)
     Issuing v ∧ (v.g.split 0).ids = 5 :: [] ∧ ∃ r, v.g.ident? 5 = some r ∧ r.join = v.x.off ∧ (v.g.split 0).state ≠ .trapped ∧ r.present ||| v.x.smask = r.owed) ∧
    (let v := vw (atRecord0 (regionG 0 []) part0 evenCtx)
     ∃ r, v.g.ident? 5 = some r ∧ r.present ||| v.x.smask ≠ r.owed ∧ v.g.sides = []) ∧
    (let v := vw (atRecord0 (regionG 0 [side0]) part0 evenCtx)
     ∃ r, v.g.ident? 5 = some r ∧ r.present ||| v.x.smask ≠ r.owed ∧ v.g.sides = side0 :: []) ∧
    (let v := vw (atRecord0 (regionG 0 []) part0 { evenCtx with off := 17 })
     ∃ r, v.g.ident? 5 = some r ∧ r.join ≠ v.x.off) ∧
    (vw s0).g.splits[0]?.map (fun e => e.ids) = some [] := by
  unfold Issuing
  refine ⟨?_, ⟨?_, rfl, _, rfl, ?_⟩, ⟨_, rfl, ?_⟩, ⟨_, rfl, ?_⟩, ⟨_, rfl, ?_⟩, ?_⟩
  · constructor <;> decide
  all_goals decide +kernel

/-- brk of one region by literal and by scalar, of one too many, and under a partial guard; exit of half a split and of all of it. -/
theorem wit_BreakAndExit :
    (let g := { regionG 0 [] with sh := 40 :: List.replicate 15 0 }
     let s := codeS g { lits0 .c 1 [20] with smask := evens }
     let v := vw s
     Issuing v ∧ (v.g.split v.x.split).ids.Nodup ∧ CForm (cF 0 0 0 0 0) 0 true false false false ∧ v.route32 .c = true ∧
     0 + 1 ≤ (v.g.split v.x.split).ids.length ∧ s.landing v.p (litTarget v) = true ∧
     (v.g.split v.x.split).ids.length < 7 + 1 ∧ (7 : Nat) < 8 ∧
     CForm (cF 1 7 0 0 16) 1 true false false true ∧ s.landing v.p (scalarTarget v 16) = true ∧
     (1 : LaneMask) ≠ v.x.smask ∧ CForm (cF 2 0 0 0 0) 2 false false false false ∧
     (v.g.split v.x.split).mask &&& ~~~(1 : LaneMask) ≠ 0 ∧ (v.g.split v.x.split).mask &&& ~~~evens = 0) := by
  unfold Issuing
  dsimp only
  repeat' apply And.intro
  all_goals first | decide +kernel | (constructor <;> decide)

/-- The handler's run over split 0 with action 5, and its bundle. -/
def run0 : HandlerRun :=
  { offset := 20, bank := List.replicate 16 0, slot := 0, split := 0, sbank := false, action := 0, hsel := false, origin := 0, code := 2, pc := 16,
    mask := LaneMask.all, info := [0, 0, 0, 0], age := 0, ready := 0, wait := (1, 0), waitOff := 0, done := false, shown := [] }
/-- A team with DBGEN bit 7, and one whose handler runs. -/
theorem wit_TrapDebugReturn :
    CForm (cF 2 255 0 0 0) 2 true false false false ∧
    (part0.dbgen.getLsbD 255 = false ∧ ({ part0 with dbgen := BitVec.twoPow 256 255 } : Part).dbgen.getLsbD 255 = true ∧ ctx0.split < 4) ∧
    CForm (cF 2 0 0 0 0) 2 false false false false ∧
    (let s := atRecord0 group0 { part0 with handler := some { run0 with action := 5 } } { ctx0 with split := 4 }
     AtIssue s (vw s) .c hdr0 LaneMask.all ∧ (vw s).x.split = 4 ∧ ∃ r, (vw s).p.handler = some r ∧ r.action ≤ 5) := by
  refine ⟨?_, by decide, ?_, ⟨rfl, by decide +kernel, by decide⟩, rfl, _, rfl, by decide⟩
  · constructor <;> decide
  · constructor <;> decide

/-- A body of one record, at 20, one cycle long, once and not at all; a body whose first record is no landing. -/
theorem wit_SequencerStart :
    (let s := pairToS { ctlG with sh := 1 :: List.replicate 15 0 } 20 20
     let v := vw s
     Issuing v ∧ v.route64 .c = true ∧ (s.seqCheck v.p 20 20 1 1).1 = 0 ∧ (v.scalar 16).toNat ≠ 0 ∧ (v.scalar 17).toNat = 0 ∧
     litTarget v = 20 ∧ (v.literal .c).toNat / 2 ^ 32 = 20 ∧ (s.seqCheck v.p 21 21 1 1).1 ≠ 0) ∧
    CForm (cF 0 0 0 0 16) 0 true false false true ∧ CForm (cF 0 127 0 47 16) 0 true false true true ∧ (cF 0 127 0 47 16).aux.toNat < 128 := by
  unfold Issuing
  refine ⟨?_, ?_, ?_, ?_⟩ <;> try dsimp only
  all_goals (repeat' apply And.intro)
  all_goals first | decide +kernel | (constructor <;> decide)

/-- At level 2 the entries lead to the next record, to a landing with SPF, and to one without. -/
theorem wit_SwitchPointsAndCheckpoints :
    (let s := codeS ctlG ctx0
     let v := vw s
     CForm (cF 2 2 0 0 0) 2 true false false false ∧ 2 < v.p.image.swCount ∧ s.switchEntry v.p 0 = some (0, 0, v.x.nxt, 0) ∧
     s.switchEntry v.p 1 = some (0, 0, 40, 0) ∧ s.landing v.p 40 = true ∧ s.spfAt v.p 40 = true ∧
     s.switchEntry v.p 2 = some (0, 0, 20, 0) ∧ s.spfAt v.p 20 = false ∧ (s.die v.x.h).pwrLevel % 8 = 2) ∧
    ((cF 2 3 0 0 0).aux.toNat < 16 ∧ (∀ n, n < 4 → (cF 2 3 0 0 0).aux.getLsbD n = true → n < group0.acc.length) ∧ ctx0.split < 4 ∧
     CForm (cF 2 3 0 0 0) 2 true false false false) := by
  refine ⟨?_, ?_⟩ <;> try dsimp only
  all_goals (repeat' apply And.intro)
  all_goals first | decide +kernel | (constructor <;> decide)

/-- No lane, some lane of the group has arrived at b15; it has arrived before, and has not. -/
def barS (lanes : LaneMask) (last : Option Nat) : State :=
  atRecord0 group0 { part0 with bars := List.replicate 16 { bar0 with arrivals := [{ group := barKey part0 group0 15, lanes := lanes, counted := false,
                                                                                      last := last, again := [] }] } } ctx0
theorem wit_BarrierOps :
    CForm (cF 2 15 0 0 0) 2 true false false false ∧
    LaneMask.all &&& (myShare (barS 0 none) (vw (barS 0 none)) 15).lanes = 0 ∧
    LaneMask.all &&& (myShare (barS 1 none) (vw (barS 1 none)) 15).lanes ≠ 0 ∧
    ((myShare (barS 0 (some 0)) (vw (barS 0 (some 0))) 15).lanes = 0 ∧ (myShare (barS 0 (some 0)) (vw (barS 0 (some 0))) 15).last ≠ none) ∧
    (myShare (barS 0 none) (vw (barS 0 none)) 15).last = none := by
  refine ⟨?_, by decide +kernel⟩
  constructor <;> decide

/-- Tags 0, 1 and 15: complete, open, and failed. -/
def tagsS (n : Nat) (f : Option (Nat × Nat × W64)) : State :=
  atRecord0 { withScalars [BitVec.ofNat 64 (2 ^ 57 - 256)] [] with
    tags := (List.replicate 15 { count := 0, failed := none }) ++ [{ count := n, failed := f }] } part0 ctx0
theorem wit_WaitOps :
    (WaitForm (cF 2 0x10 3 15 0) ∧ WaitForm (cF 2 15 1 0 0)) ∧
    (∀ n ∈ waitTags (cF 2 0x10 3 15 0), ((vw (tagsS 0 none)).g.tag n).failed = none ∧ ((vw (tagsS 0 none)).g.tag n).count = 0) ∧
    (∃ n ∈ waitTags (cF 2 0x10 3 15 0), ((vw (tagsS 1 none)).g.tag n).count ≠ 0) ∧
    ((waitTags (cF 2 15 1 0 0)).head? = some 15 ∧ ((vw (tagsS 0 (some (9, 16, 0)))).g.tag 15).failed = some (9, 16, 0)) ∧
    (CForm (cF 2 0 0 17 16) 2 false false true true ∧ ((vw (tagsS 0 none)).scalar 16).toNat < 2 ^ 57 ∧ (tagsS 0 none).core.monitors 0 < 32) ∧
    CForm (cF 2 0 0 0 0) 2 false false false false ∧
    (CForm (cF 2 0 0 0 16) 2 false false false true ∧ ((vw (tagsS 0 none)).scalar 16).toNat % 128 = 0) := by
  unfold WaitForm
  repeat' apply And.intro
  all_goals first | decide +kernel | (constructor <;> decide)

end Sys2Proof.Tests
end

