-- ==== Sys2Proof/Tests/Commands.lean ====
section
/-! SUPPORT. States that meet the hypotheses of the statements about admin commands. -/

set_option Elab.async false

namespace Sys2Proof.Tests

open Sys2Proof Sys2Proof.Machine Sys2Proof.Claims

/-- A command of a function whose rings are enabled and whose completions go to 0x4000. -/
def cmd0 (f p0 p1 p2 : Nat) : AdminCmd := { func := f, cid := 0xFFFE, p0 := BitVec.ofNat 64 p0, p1 := BitVec.ofNat 64 p1, p2 := BitVec.ofNat 64 p2 }
def fetchedS (c : AdminCmd) (s : State) : State :=
  let t := s.modFunc c.func fun g => { g with aqCtl := 0x100, acqBase := 0x4000, acqProd := 15 }
  { t with hst := { t.hst with cmd := some c } }
theorem wit_PrivilegedCommands : Fetched (fetchedS (cmd0 16 1 2 3) s0) (cmd0 16 1 2 3) ∧ (cmd0 16 1 2 3).func ≠ 0 :=
  ⟨⟨rfl, by decide +kernel, by decide +kernel, by decide +kernel⟩, by decide⟩

/-- Function 0 owns world 63, with a root; queue 63 holds nothing, queue 62 a record; buffer 8191 and unit 126 of die 3 exist. -/
def queue0 (q : Nat) (held : List Nat) : LQueue :=
  { func := 0, queue := q, ring := 0x5000, shadow := 0x6000, d := 0, a := 0, spawned := [], cur := [], held := held, wait := 0 }
def ownedS (c : AdminCmd) : State :=
  let s := fetchedS c (mapped s0)
  { s with
    hst := { s.hst with owners := s.hst.owners.set 63 (some 0), units := [(3, 126, 0)] }
    lch := { s.lch with queues := [queue0 63 [], queue0 62 [4]] }
    sec := { s.sec with buffers := [{ idx := 8191, world := 63, base := 0x100, len := 0x100, version := 1 }] } }
theorem wit_QueueAndWorldCommands :
    (Fetched (ownedS (cmd0 0 0x8000 0 0)) (cmd0 0 0x8000 0 0) ∧ (ownedS (cmd0 0 61 0x1000 8)).lch.queue? 0 61 = none ∧
      Bits (cmd0 0 61 0x1000 8).p0 0x3F ∧ (cmd0 0 61 0x1000 8).p1.toNat % 4096 = 0 ∧ (cmd0 0 61 0x1000 8).p2.toNat % 8 = 0) ∧
    (∃ q, (ownedS (cmd0 0 63 0 0)).lch.queue? 0 63 = some q ∧ q.count = 0) ∧
    (∃ q, (ownedS (cmd0 0 62 0 0)).lch.queue? 0 62 = some q ∧ q.count ≠ 0) ∧
    (let c := cmd0 0 0x101F 0 0
     let s := ownedS c
     bitsNat c.p0.toNat 12 8 = 16 ∧ Bits c.p0 0x1F3F ∧ worldOf c ≠ 0 ∧ 16 ≤ s.hst.numVfs ∧ s.hst.owners.length = 64 ∧ s.hst.roots.length = 64 ∧
     s.worldBusy (worldOf c) = false ∧ s.hst.owners.getD (worldOf c) none ≠ some 16) ∧
    (let c := cmd0 0 63 0x7001 0
     let s := ownedS c
     s.hst.owns 0 (worldOf c) = true ∧ c.p1.getLsbD 0 = true ∧ c.p1.getLsbD 1 = false ∧ tableBad s.svc c.p1 6 = false) ∧
    (let c := cmd0 0 63 0 0x1000
     Bits c.p0 0x3F ∧ c.p1.toNat % 4096 = 0 ∧ c.p2.toNat % 4096 = 0 ∧ (ownedS c).hst.owns 0 (worldOf c) = true) ∧
    (let c := cmd0 0 63 0x200 0x100
     let s := ownedS c
     c.p1.toNat % 256 = 0 ∧ c.p2 ≠ 0 ∧ (∀ b ∈ s.sec.buffers, b.base + b.len ≤ c.p1.toNat ∨ c.p1.toNat + c.p2.toNat ≤ b.base) ∧
     ((List.range 8192).find? fun i => !(s.sec.buffers.any fun b => b.idx == i)) = some 0) ∧
    (let c := cmd0 0 8191 0 0
     let s := ownedS c
     (∃ b, s.sec.buffers.find? (fun b => b.idx == c.p0.toNat) = some b ∧ s.hst.owns 0 b.world = true) ∧ ∀ l ∈ s.lch.launches, c.p0.toNat ∉ l.fresh) ∧
    (let c := cmd0 0 0x3F7F03 0 0
     let s := ownedS c
     (3, 127, 63) = (c.p0.toNat % 4, bitsNat c.p0.toNat 14 8, bitsNat c.p0.toNat 21 16) ∧ Bits c.p0 0x3F7F03 ∧
     ∀ u ∈ s.hst.units, u.1 = 3 → u.2.1 ≠ 127) := by
  unfold Bits
  refine ⟨⟨⟨rfl, by decide +kernel, by decide +kernel, by decide +kernel⟩, by decide +kernel⟩, ⟨_, rfl, by decide +kernel⟩, ⟨_, rfl, by decide +kernel⟩,
    ?_, ?_, ?_, ?_, ⟨⟨_, rfl, ?_⟩, ?_⟩, ?_⟩
  all_goals decide +kernel

/-- The boundary of an invalidation has passed. -/
def shootS : State :=
  let s := ownedS (cmd0 0 0 0 0)
  { s with hst := { s.hst with cmd := none, shoots := [(0, 7, 63, 0, 4096, 8)] } }
theorem wit_InvalidateCompletes :
    shootS.hst.cmd = none ∧ shootS.shootDue = some (0, 7, 63, 0, 4096, 8) ∧ 0 < shootS.hst.funcs.length ∧
    (shootS.func 0).aqCtl.getLsbD 8 = true ∧ shootS.mem.wf = true := by decide +kernel

/-- Launch 1 of function 0 with a resident team, a part that has stopped at a breakpoint and a channel. -/
def stopped0 : TrapEv :=
  { slot := 0, split := 0, code := trapDebugStop, origin := 0, pc := 16, mask := LaneMask.all, info0 := 0, info1 := 0, info2 := 0, info3 := 0, cycle := 90 }
def stoppedG : Group := { group0 with splits := [{ split0 with state := .parked, stopped := true }, freeSplit, freeSplit, freeSplit] }
def stoppedPart : Part := { part0 with stopAt := some stopped0 }
def channel0 : Channel :=
  { ch := 63, out := true, slot := 0, count := 2, world := 0, vec := 0, ring := 0x7000, shadow := 0x8000, dp := 5, dc := 4, desync := true, cause := 0,
    lost := 0, bytes := 0, copying := 0, waiting := none }
def deviceS (c : AdminCmd) : State :=
  let s := fetchedS c (launched (atRecord0 stoppedG stoppedPart ctx0))
  let t := s.modFunc 0 fun g => { g with channels := [channel0] }
  { t with hst := { t.hst with owners := t.hst.owners.set 63 (some 0) }
           pow := { t.pow with safeCap := 2800, rackCap := some (2800, 10 ^ 12) } }
theorem wit_LaunchAndDeviceCommands :
    (let c := cmd0 0 1 0xFFFFFFFF 0
     let s := deviceS c
     Fetched s c ∧ s.launchOf 0 c.p0.toNat = some launch0 ∧ s.lch.launch? 1 = some launch0 ∧ team0 ∈ launch0.teams ∧ team0.state = .resident ∧
     team0.leaving = 0 ∧ team0.admin = none ∧ launch0.status = none) ∧
    (cmd0 0 6 0 0).p0.toNat ≤ 6 ∧
    (let c := cmd0 0 0xF 2000 0
     let s := deviceS c
     Bits c.p0 0xF ∧ 2800 ≤ s.pow.limit ∧ s.pow.firmware = true ∧ s.pow.watchdog = none ∧
     (∀ i, i < 4 → c.p0.getLsbD i = true ∧ s.leaseRefused i = false) ∧ s.pow.dies.length = 4) ∧
    (let c := cmd0 0 16 7 1
     c.p0.toNat ≤ (deviceS c).hst.numVfs ∧ c.p0.toNat < (deviceS c).hst.funcs.length ∧ Bits c.p2 1) ∧
    (let c := cmd0 0 0xFFFF3F0AC12A 0x9000 8
     let x := c.p0.toNat
     Bits c.p0 0xFFFF3F0FF13F ∧ bitsNat x 15 12 = 12 ∧ bitsNat x 19 16 = 10 ∧ (deviceS c).hst.owns 0 (bitsNat x 29 24) = true ∧
     ((deviceS c).func 0).channel? (x % 64) = none) ∧
    (let c := cmd0 0 63 0xFFFFFFFF 0
     ((deviceS c).func 0).channel? 63 = some channel0 ∧ Bits c.p0 0x3F ∧ Bits c.p1 0xFFFFFFFF) ∧
    (let c := cmd0 0 63 0x1000 (2 ^ 64 - 1)
     Bits c.p0 0x3F ∧ (deviceS c).hst.owns 0 63 = true) ∧
    (let c := cmd0 0 191 0x9000 0
     ∀ r ∈ (List.range 192).map fun i => leAt ((deviceS c).hostRead c.p1.toNat 384) (2 * i) 2, r < 2 ^ 12) ∧
    (let c := cmd0 0 1 0 0x1000
     let s := deviceS c
     Bits c.p1 0xFFFFFFF ∧ s.debugPart c = some stoppedPart ∧ HasPart s stoppedPart ∧ stoppedPart.stopAt = some stopped0 ∧
     HasGroup s stoppedPart 0 stoppedG ∧ (stoppedG.split 0).state = .parked ∧ (stoppedG.split 0).stopped = true ∧ (stoppedG.split 0).held = []) := by
  unfold HasPart HasGroup Bits
  refine ⟨⟨⟨rfl, by decide +kernel, by decide +kernel, by decide +kernel⟩, by decide +kernel⟩, ?_⟩
  repeat' apply And.intro
  all_goals decide +kernel

end Sys2Proof.Tests
end

