-- ==== Sys2Proof/Tests/Engines.lean ====
section
/-! SUPPORT. States and operands that meet the hypotheses of the statements about the A and T slots at issue. -/

set_option Elab.async false

namespace Sys2Proof.Tests

open Sys2Proof Sys2Proof.Machine Sys2Proof.Claims

/-! ### The A slot -/

/-- A team with the whole scratchpad. -/
def bigImage : Image := { image0 with scratch := 1048576 }
/-- s16 = 0, s17 the whole scratchpad, s18 = 16, s19 the longest global copy, s20 a gather of 4096 rows with its list at 65536. -/
def engS : State :=
  let s := atRecord0 (withScalars [0, 1048576, 16, 2 ^ 32 - 16, 0x10000 + 2 ^ 20 * 0xFFF] []) { part0 with image := bigImage } ctx0
  { s with hst := { s.hst with units := [(0, 0, 0)] } }
theorem issue_eng : AtIssue engS (vw engS) .a hdr0 LaneMask.all := ⟨rfl, by decide +kernel, by decide⟩

/-- The whole scratchpad each way, the longest global copy, a meadow unit's first mebibyte, no bytes at all, the last function
of a reduction; a gather of 4096 rows of 16 bytes with its list behind them. -/
theorem wit_TransfersQueue :
    let v := vw engS
    (aBad copySpec (aF 16 16 17) v = none ∧ CopyOk v (aF 16 16 17) 1048576 ∧ Within v 0 1048576 ∧ ¬Within v 16 1048576) ∧
    (aBad copySpec (aF 16 18 19) v = none ∧ CopyOk v (aF 16 18 19) (2 ^ 32 - 16)) ∧
    (0 + 1048576 ≤ 1 * 2 ^ 24 ∧ (dieOf v.x.h, 0, v.p.world) ∈ engS.hst.units) ∧
    (v.aVal copySpec (aF 18 16 16) 2).toNat = 0 ∧
    aBad { copySpec with funcs := fun n => decide (n ≤ 2) } { aF 16 16 17 with func := 2 } v = none ∧
    (let f := aF 16 16 20
     let d := (v.aVal copySpec f 2).toNat
     aBad gatherSpec f v = none ∧ d < 2 ^ 36 ∧ d % 2 ^ 20 % 4 = 0 ∧ Within v (d % 2 ^ 20) (4 * 4096) ∧ d / 2 ^ 20 % 2 ^ 16 + 1 = 4096 ∧
     Within v 0 (4096 * (16 * 2 ^ f.func.toNat))) := by
  unfold CopyOk Within; repeat' apply And.intro
  all_goals decide +kernel

/-- A flue of 256 bytes that is full, and q7 with 4094 entries claimed. -/
def flueS : State :=
  let q0 : Flue := { base := 0, size := 256, p := 256, c := 0, pq := 256, cq := 0, bad := [] }
  let q7 : Flue := { base := 4096, size := 4096, p := 3, c := 0, pq := 4094, cq := 0, bad := [] }
  atRecord0 { withScalars [256, 257, 1, 3, 4095] [] with
      tags := { count := 0, failed := some (9, 0, 0) } :: List.replicate 15 { count := 1, failed := none }
      flues := some q0 :: List.replicate 6 none ++ [some q7] }
    { part0 with image := bigImage } ctx0
theorem issue_flue : AtIssue flueS (vw flueS) .a hdr0 LaneMask.all := ⟨rfl, by decide +kernel, by decide⟩

/-- The full flue takes no byte and gives 256, not 257; q7 gives 3 entries and not 4095, and takes one and not 256; a load
of an entry at 0 and one that is misaligned. -/
theorem wit_FlueOpsQueue :
    let v := vw flueS
    (aBad qAdvSpec (aF 18 0 0) v = none ∧ ∃ q, v.g.flues.getD 0 none = some q ∧ q.size < between q.pq q.c + (v.aVal qAdvSpec (aF 18 0 0) 0).toNat ∧
      between q.pq q.c + (v.aVal qAdvSpec (aF 0 0 0) 0).toNat ≤ q.size ∧
      (v.aVal qAdvSpec (aF 16 0 0) 0).toNat ≤ flueHeld q ∧ flueHeld q < (v.aVal qAdvSpec (aF 17 0 0) 0).toNat) ∧
    (∃ q, v.g.flues.getD 7 none = some q ∧ aBad sqDrpSpec (aF 19 0 0) v = none ∧ (v.aVal sqDrpSpec (aF 19 0 0) 0).toNat ≤ scaleHeld q ∧
      scaleHeld q < (v.aVal sqDrpSpec (aF 20 0 0) 0).toNat ∧
      (let f := { aF 16 18 0 with func := 1 }
       aBad sqLdSpec f v = none ∧ (v.aVal sqLdSpec f 0).toNat % 4 = 0 ∧ 1 ≤ (v.aVal sqLdSpec f 1).toNat ∧
       between q.pq q.c + (v.aVal sqLdSpec f 1).toNat ≤ 4096 ∧ Within v (v.aVal sqLdSpec f 0).toNat (4 * (v.aVal sqLdSpec f 1).toNat)) ∧
      (let f := { aF 16 16 0 with func := 1 }
       aBad sqLdSpec f v = none ∧ (v.aVal sqLdSpec f 1).toNat ≤ 4096 ∧ 4096 < between q.pq q.c + (v.aVal sqLdSpec f 1).toNat)) ∧
    (aBad tnLdSpec (aF 16 63 0) v = none ∧ (v.aVal tnLdSpec (aF 16 63 0) 0).toNat % 64 = 0) ∧
    (aBad tnLdSpec (aF 18 63 0) v = none ∧ (v.aVal tnLdSpec (aF 18 63 0) 0).toNat % 64 ≠ 0) := by
  unfold Within
  refine ⟨⟨?_, _, rfl, ?_, ?_, ?_, ?_⟩, ⟨_, rfl, ?_, ?_, ?_, ?_, ?_⟩, ?_, ?_⟩
  all_goals (repeat' apply And.intro)
  all_goals decide +kernel

/-- A flue of the smallest and of q7's own size; a wait that goes on and one that waits. -/
theorem wit_ImmediateEngineOps :
    let v := vw flueS
    aBad tnWrSpec { aF 16 63 0 with func := 7 } v = none ∧ aBad tnRdSpec { aF 47 63 0 with func := 7 } v = none ∧
    aBad tagTstSpec (aF 1 16 0) v = none ∧
    (aBad qInitSpec (aF 0 16 0) v = none ∧ (v.aVal qInitSpec (aF 0 16 0) 1).toNat = 256 * 2 ^ 0 ∧ Within v 0 256) ∧
    (∃ q, v.g.flues.getD 0 none = some q ∧ aBad qWtSpec (aF 16 1 0) v = none ∧ (v.aVal qWtSpec (aF 16 1 0) 0).toNat ≤ q.size ∧
      (v.aVal qWtSpec (aF 16 1 0) 0).toNat ≤ flueHeld q ∧ ¬(v.aVal qWtSpec { aF 18 1 0 with func := 8 } 0).toNat ≤ flueRoom q) ∧ v.x.split < 4 := by
  unfold Within
  refine ⟨?_, ?_, ?_, ?_, ⟨_, rfl, ?_, ?_, ?_, ?_⟩, ?_⟩
  all_goals (repeat' apply And.intro)
  all_goals decide +kernel

/-! ### The T slot -/

/-- An operand entry: format, rows, K. -/
def entryOf (fmt rows klen : Nat) : List W64 := BitVec.ofNat 64 (fmt + rows * 2 ^ 16 + klen * 2 ^ 32) :: List.replicate 7 0
/-- tn0 in f16, tn1 in i8, tn2 in q8, tn3 an epilogue of f32 with a row bias. -/
def matPart : Part :=
  { part0 with
    tn := [entryOf 1 128 32, entryOf 10 128 64, entryOf 16 128 64, BitVec.ofNat 64 (0x500 + 128 * 2 ^ 16 + 128 * 2 ^ 32) :: List.replicate 7 0] ++
      List.replicate 60 (List.replicate 8 0) }
/-- A group whose q7 holds entries. -/
def scaledG (n : Nat) (g : Group) : Group :=
  { g with flues := List.replicate 7 none ++ [some { base := 0, size := 4096, p := 0, c := 0, pq := n, cq := 0, bad := [] }] }
def matS : State := atRecord0 (scaledG 256 (withScalars [127] [])) matPart ctx0
/-- With one entry too few for an mma.q of entries 1 and 2. -/
def fewS : State := atRecord0 (scaledG 255 group0) matPart ctx0
/-- The same as hearth 0 and as hearth 15 of a stove team. -/
def stoveS (n : Nat) : State := atRecord0 (scaledG 256 group0) { matPart with image := { image0 with stove := true }, p := n } ctx0
def katS : State := atRecord0 group0 matPart (lits0 .t 1 [5])
theorem issue_mat : AtIssue matS (vw matS) .t hdr0 LaneMask.all := ⟨rfl, by decide +kernel, by decide⟩
theorem issue_stove : AtIssue (stoveS 0) (vw (stoveS 0)) .t hdr0 LaneMask.all ∧ AtIssue (stoveS 15) (vw (stoveS 15)) .t hdr0 LaneMask.all :=
  ⟨⟨rfl, by decide +kernel, by decide⟩, ⟨rfl, by decide +kernel, by decide⟩⟩
theorem issue_few : AtIssue fewS (vw fewS) .t hdr0 LaneMask.all := ⟨rfl, by decide +kernel, by decide⟩
theorem issue_kat : AtIssue katS (vw katS) .t hdr0 LaneMask.all := ⟨rfl, by decide +kernel, by decide⟩

/-- 64 K in groups of 32 for 128 rows are 256 scale entries; hearth 0 gives both operands of an mma.st and hearth 15 none. -/
theorem wit_MultipliesJoinQueue :
    MultiplyOk (vw matS) (tF 1 0 0) .mma ∧
    MultiplyOk (vw matS) { tF 0 2 4 with asrc := true, bsrc := true, spn := 4 } .mmaSp ∧
    (let f := { tF 0 0 0 with rate := 1, tna := 1, tnb := 2 }
     MultiplyOk (vw matS) f .mmaQ ∧ ScalesThere (vw matS) f ∧ MultiplyOk (vw fewS) f .mmaQ ∧ ¬ScalesThere (vw fewS) f) ∧
    StoveMultiplyOk (vw (stoveS 0)) (tF 1 0 0) ∧ StoveMultiplyOk (vw (stoveS 15)) (tF 1 0 0) := by
  unfold MultiplyOk StoveMultiplyOk MatOperandOk DescriptorOk ScalesThere
  refine ⟨?_, ?_, ?_, ?_, ?_⟩ <;> try dsimp only
  all_goals (repeat' apply And.intro)
  all_goals decide +kernel

theorem wit_AccumulatorOpsQueue :
    let v := vw matS
    firstBad (accBad (tF 1 0 0) v false false false false false false) = none ∧
    (let f := { tF 1 2 0 with asrc := true }
     firstBad (accBad f v true false false false false false) = none ∧ DescriptorOk v f.opa.toNat 128 1 512 true) ∧
    (let f := { tF 1 2 0 with asrc := true, tna := 3 }
     let e := tensorEntry v 3
     let w := (e.getD 0 0).toNat
     firstBad (accBad f v true true true false false false) = none ∧ epilogueBad e = none ∧
     DescriptorOk v f.opa.toNat 128 1 (ceilDiv (128 * fmtWidth 0) 8) true ∧ w / 2 ^ 10 % 4 = 1 ∧
     (w / 2 ^ 16 % 2 ^ 9, w / 2 ^ 32 % 2 ^ 9, w % 32) = (128, 128, 0) ∧ Within v 0 (4 * 128)) ∧
    (let f := tF 1 16 15
     isSA f.opa.toNat = true ∧ firstBad (accBad f v false false false true true true) = none ∧ (v.scalar f.opa.toNat).toNat + 1 ≤ 128 ∧
     f.opb.toNat + 1 ≤ v.vregs) ∧
    (let f := tF 0 0 1
     f.opa.toNat < 2 ∧ f.opb.toNat < v.g.acc.length ∧ firstBad (accBad f v false false true false true true) = none) ∧
    (vw katS).route32 .t = true := by
  unfold DescriptorOk Within
  refine ⟨?_, ?_, ?_, ?_, ?_, ?_⟩ <;> try dsimp only
  all_goals (repeat' apply And.intro)
  all_goals decide +kernel

end Sys2Proof.Tests
end

