-- ==== Sys2Proof/Tests/Errors.lean ====
section
/-! SUPPORT. States that meet the hypotheses of the statements about checkpoints, errors, page faults and monitors. -/

set_option Elab.async false

namespace Sys2Proof.Tests

open Sys2Proof Sys2Proof.Machine Sys2Proof.Claims

/-! ### Checkpoints and errors -/

/-- Group 0 as a checkpoint of issue number `b` saved it, with v0 all ones. -/
def save0 (b : Nat) : GroupSave :=
  { v := List.replicate 16 (List.replicate 128 1), k := group0.k, sh := group0.sh, a := group0.a, fflags := 1, isat := true, fctl := 0, vrot := 0,
    seqIter := 0, issues := 0, splits := group0.splits, idents := [], regionCtr := 0, areaFree := BitVec.allOnes 256, sides := [], tags := group0.tags,
    tiles := [], stCount := 0, seq := b, flues := List.replicate 8 none, cycle := 90 }
/-- A store of one byte held since issue number `n`. -/
def held0 (n : Nat) : Gated := { seq := n, split := 0, world := 0, va := 0x100, tgt := 0, dev := 0, pa := 0x100, nc := false, bytes := [BitVec.ofNat 8 n] }

/-- Stores up to the boundary and past it are held. -/
theorem wit_CheckpointCloses :
    (let g := { group0 with gated := [held0 5, held0 6, held0 7], ckptReq := some (0, 6), next := some (save0 6) }
     let s := atRecord0 g part0 ctx0
     s.closeDue = some g ∧ Stands s 0 0 g) := by
  unfold Stands; decide +kernel

/-- A group with a checkpoint and every kind of split, and one that consumed line 0 after it. -/
def coveredG : Group := { group0 with ckpt := some (save0 5) }
def consumerG : Group := { coveredG with recorded := [(false, 5, 0)], gated := [held0 6] }
def site (unit : Nat) : ErrSite := { unit := unit, die := 0, stove := 0, pos := 0, sub := 0, subn := 63, lane := 7, addr := 0x100 }
def serviced (f : Service → Service) (s : State) : State := { s with svc := f s.svc }
/-- 63 rows of bank 0 are used already. -/
def usedRows : List (Nat × Nat × Nat × Nat) := List.replicate 63 (0, 0, 0, 9)
def counter0 : Predict := { kind := 0, unit := 3, buckets := List.replicate 24 1, advised := false, acted := false }
/-- Group 0 as a rollback found it, with f16 ones in v0, and its reruns. -/
def rolled0 : Rolled :=
  { group := { coveredG with v := List.replicate 16 (List.replicate 128 0x3C00) }, cycle := 95, pad := [(4, 1)], priv := [], land := [], accs := [],
    engs := [], mats := [], events := [], stop := [], handler := none }
def rerunS (slot : Nat) : State :=
  serviced (fun v => { v with reruns := [{ h := 0, slot := slot, unit := 3, saved := [rolled0] }] }) (atRecord0 coveredG part0 ctx0)
/-- Entry 3 of the hearth's partition holds index 1. -/
def decodedQ : Partition := { partition0 with entries := partition0.entries.modify 3 fun d => { d with tag := some 1, valid := true } }
def decodedH : Hearth := { State.freshHearth 0 with partitions := [decodedQ] }
def decodedS : State := { s0 with core := { s0.core with hearths := [decodedH] } }
/-- An image of the first line of DDR-5 as the device writes it passes; no image of no bytes does. -/
theorem image_passes : ∃ cipher md m, s0.sec.check (Loc.ofLine ddrBase) cipher md = some m :=
  ⟨List.replicate 256 7, _, _, Security.check_own s0.sec (Loc.ofLine ddrBase) (List.replicate 256 7) 0 (by decide +kernel) (by decide +kernel)
    (by decide +kernel)⟩

theorem wit_ErrorsHandled :
    (let s := atRecord0 coveredG part0 ctx0
     AloneAt s 0 0 coveredG part0 ∧ s.rerunning part0 = false ∧ coveredG.ckpt = some (save0 5) ∧ part0.halt = 0 ∧ coveredG.splits.length = 4) ∧
    ((rerunS 15).svc.reruns.find? (fun r => r.h == 0 && r.slot == 15) = some { h := 0, slot := 15, unit := 3, saved := [rolled0] } ∧
      Stands (rerunS 15) 0 0 coveredG ∧ (rerunS 15).core.part? coveredG.part = some part0 ∧
      (rerunS 0).svc.reruns.find? (fun r => r.h == 0 && r.slot == 0) = some { h := 0, slot := 0, unit := 3, saved := [rolled0] } ∧
      Stands (rerunS 0) 0 0 coveredG ∧ (rerunS 0).core.hearth? 0 = some (State.freshHearth 0) ∧ (State.freshHearth 0).present = true ∧
      (1 : Nat) ≠ 2) ∧
    (s0.mem.wf = true ∧ ∃ cipher md m, s0.sec.check (Loc.ofLine ddrBase) cipher md = some m) ∧
    (let s := atRecord0 consumerG part0 ctx0
     s.sec.check (Loc.ofLine 0) [] [] = none ∧ s.core.groups.filter (consumedLine (Loc.ofLine 0)) = [consumerG] ∧ Stands s 0 0 consumerG ∧ HasPart s part0 ∧
     consumerG.part = part0.id ∧ consumerG.ckpt = some (save0 5) ∧ s.sec.passes (Loc.ofLine ddrBase) (s.sec.worldOf (Loc.ofLine ddrBase)) = true) ∧
    s0.cch.lost.length < 1024 ∧ siteCounter (site 0x14) = none ∧ (∀ u ∈ [0x10, 0x11, 0x12, 0x13], (siteCounter (site u)).isSome = true) ∧
    (let e := { site 1 with subn := 3 }
     decodedS.siteHearth e = some 0 ∧ decodedS.core.hearth? 0 = some decodedH ∧ HasPartition decodedH decodedQ ∧ decodedQ.base + 3 = e.subn ∧
       (decodedQ.entries[3]?).map (fun d => (d.valid, d.busy, d.tag)) = some (true, false, some 1)) ∧
    (s0.svc.counters = [] ∧ ∀ k, k < 4 → 1 ≤ (s0.svc.limits k).1 ∧ 1 ≤ (s0.svc.limits k).2) ∧
    ((usedRows.drop 1).filter fun x => x.1 == 0 && x.2.1 == 0 && x.2.2.1 == 0).length < 63 ∧
    ({ serviced (fun v => { v with counters := [counter0] }) s0 with cycle := 2880000000000 } : State).slideDue = true := by
  unfold Stands HasPart AloneAt HasPartition
  refine ⟨by decide +kernel, by decide +kernel, ⟨by decide +kernel, image_passes⟩, by decide +kernel, by decide +kernel, by decide +kernel, by decide +kernel, by decide +kernel,
    by decide +kernel, by decide +kernel, by decide +kernel⟩

/-! ### Page faults and monitors -/

/-- Function 0 owns world 0 and has a fault queue of 64 records, of which `n` wait for the host. -/
def queueS (n : Nat) (s : State) : State :=
  { s with
    cch := { s.cch with faultq := [{ id := 5, va := 0x1234, world := 0, kind := 1, acc := 1, level := 0 }] }
    hst := { s.hst with owners := s.hst.owners.set 0 (some 0),
                        funcs := s.hst.funcs.modify 0 fun f => { f with fqCtl := 0x10, fqBase := 0x3000, fqProd := BitVec.ofNat 32 n } } }
def request0 : FaultReq := { id := 5, va := 0x1234, world := 0, kind := 1, acc := 1, level := 0 }
def fault0 : Fault351 := { fid := 1023, world := 0, page := 1, kind := 1, acc := 1, joined := [(5, 0x1234)] }
def parkedG : Group := { ctlG with splits := [{ ctlG.split 0 with state := .parked, refetch := some 100 }, freeSplit, freeSplit, freeSplit] }
def waitingG : Group := { group0 with splits := [{ split0 with state := .longwait, monitor := some (0, some 100) }, freeSplit, freeSplit, freeSplit] }
def monitor0 : HomeMonitor := { loc := { tgt := 0, dev := 0, pa := 0x100 }, locals := [(0, 0, 0)], remotes := [], rung := true }
def monitorS : State :=
  let s := atRecord0 waitingG part0 ctx0
  { s with cch := { s.cch with monitors := [monitor0] } }
theorem can_report (n : Nat) (h : n = 0 ∨ n = 63) : CanReport (queueS n s0) 0 request0 0 := by
  obtain rfl | rfl := h <;> constructor <;> decide +kernel

/-- The first record and the last for which there is room; an outstanding fault of the last identifier; a parked fetch; a rung
line and a wait whose time is up. -/
theorem wit_FaultsAndMonitors :
    ((queueS 0 s0).cch.faultq = request0 :: [] ∧ CanReport (queueS 63 s0) 0 request0 0) ∧
    (let a : Access := { id := 5, kind := .ldG, h := 0, slot := 0, split := 0, off := 16, seq := 7, cycle := 90, sq := false, mask := 1, ord := 0,
                         scope := 0, func := 0, width := 2, sx := false, todo := 0, faulted := 1, replay := [], addrs := [0x1234], vals := [], got := [],
                         dst := [.v 3], done := 0, arg := 0, stage := 0, remote := 0, ready := 95, due := none }
     let s := s0.modFunc 0 fun f => { f with faults := [fault0] }
     let t := { s with core := { s.core with accs := [a] } }
     0 < t.hst.funcs.length ∧ (t.func 0).faults.find? (fun y => y.fid == 1023) = some fault0 ∧
     t.core.accs.find? (fun y => y.id == a.id) = some a ∧ (t.func 0).waiting = [] ∧ ∀ x ∈ (t.func 0).faults, x.fid ≠ 1022) ∧
    (let s := codeS parkedG ctx0
     s.retryDue = some (codePart, 0, 0) ∧ HasPart s codePart ∧ HasGroup s codePart 0 parkedG ∧
     s.fetchFault codePart (splitWaiter 0 0 0) (s.fetchNeeds codePart (parkedG.split 0).nextOffsets) = none) ∧
    (monitorS.rung? = some monitor0 ∧ Stands monitorS 0 0 waitingG ∧ waitingG.splits.length = 4 ∧ (waitingG.split 0).state = .longwait ∧
      monitorS.timeoutDue = some (0, 0, 0)) := by
  unfold HasPart HasGroup Stands
  refine ⟨⟨rfl, can_report 63 (Or.inr rfl)⟩, ?_⟩; decide +kernel

end Sys2Proof.Tests
end

