-- ==== Sys2Proof/Tests/HostSide.lean ====
section
/-! SUPPORT. States that meet the hypotheses of the statements about the host interface. -/

set_option Elab.async false

namespace Sys2Proof.Tests

open Sys2Proof Sys2Proof.Machine Sys2Proof.Claims

/-- Function 16 with no fault waiting, its eight counter selectors; no sweep runs. -/
theorem wit_RegisterWrites :
    16 < s0.hst.funcs.length ∧ (s0.func 16).waiting = [] ∧ (7 < 8 ∧ (0xFFFF00C00FFF : W64) &&& 0xFFFF0000FF3FF000 = 0 ∧ (s0.func 16).vcsel.length = 8) ∧
    (0xFF : W64) &&& 0xFFFFFFFFFFFFFF00 = 0 ∧ ((16 : Nat) ≠ 0 ∧ 0x10000 ≤ 0x10057) ∧
    ((0x11F : W64) &&& 0xFFFF00F0FFFFFEE0 = 0 ∧ (0x11F : W64).getLsbD 8 = true ∧ s0.svc.sweepPhase = 0 ∧ s0.svc.sweepStove < 32) := by
  decide +kernel

/-- A channel of two slots, copied out or in, whose next slot holds 130 bytes at 0x1000. -/
def slotChannel (out : Bool) : Channel :=
  { ch := 63, out := out, slot := 0, count := 2, world := 0, vec := 2047, ring := 0x7000, shadow := 0x5000, dp := 0, dc := 2 ^ 32 - 1, desync := false,
    cause := 0, lost := 0, bytes := 0, copying := 0, waiting := none }
def slotCells : List Host.Cell := [(0x7041, 0x10), (0x7048, 130), (0xA000, 9)]
/-- Function 0 with that channel and an aperture of 64 bytes. -/
def windowS (c : Channel) : State :=
  let s := (mapped s0).modFunc 0 fun g => { g with channels := [c], apWorld := 0, apBase := 0x1000, apLen := 64, aqCtl := 0x100 }
  { s with mem := { s.mem with host := slotCells } }

/-- The last byte of the aperture and the first behind it; values that pass and that fail each test; a copy either way, whole and cut. -/
theorem wit_WindowAndChannels :
    (0 < s0.hst.funcs.length ∧ (windowS (slotChannel true)).func 0 = { (windowS (slotChannel true)).func 0 with win := [] }) ∧
    (let s := windowS (slotChannel true)
     let t := s.modFunc 0 fun g => { g with win := [{ write := true, off := 2 ^ 20 + 63, len := 1, data := 7, wait := 0 }] }
     (s.func 0).apLen < 57 + 8 ∧ 63 + 1 ≤ (s.func 0).apLen ∧ ∃ u bs, t.windowBytes 0 0 true 7 2 (0x1000 + 63) 1 = .got u bs) ∧
    (let c := slotChannel true
     ((windowS c).func 0).channel? 63 = some c ∧ GoodChannelBell c 1 ∧ ¬GoodChannelBell c 2 ∧ ¬GoodChannelBell c (2 ^ 32 - 2) ∧ c.waiting = none ∧
     ((windowS c).func 0).aqCtl.getLsbD 8 = true ∧ (windowS c).mem.wf = true ∧ ((windowS { c with desync := true }).func 0).channel? 63 = some { c with desync := true }) ∧
    (∀ o ∈ [true, false],
      let c := slotChannel o
      let s := windowS c
      (s.func 0).channel? 63 = some c ∧ c.active = true ∧ c.copying ≠ 3 ∧
      (let hdr := s.hostRead (c.ring + 64 * c.index) 64
       leAt hdr 0 8 = 0x1000 ∧ leAt hdr 8 4 = 130 ∧ (hdr.drop 12).all (· == 0) = true ∧ 130 ≤ c.slotBytes) ∧
      (∀ k ∈ [130, 1, 0], ((match s.copyLines 0 c 0x1000 k (k / 128 + 2) c.bytes with | (_, _, .all) => true | _ => false) = true)) ∧
      Unmasked s 0 c.vec) := by
  unfold GoodChannelBell Unmasked
  refine ⟨by decide +kernel, ⟨by decide +kernel, by decide +kernel, _, _, rfl⟩, by decide +kernel, ?_⟩
  decide +kernel

/-- Rings with and without records, whose hold-off runs out in this cycle. -/
def heldRing (prod : Nat) : State := { s0 with svc := { s0.svc with errIrq := 100, errProd := BitVec.ofNat 32 prod } }
def heldQueue (prod : Nat) : State := s0.modFunc 16 fun g => { g with fqIrq := 100, fqProd := BitVec.ofNat 32 prod, fqCtl := 255 * 2 ^ 32 }
theorem wit_ResetsAndHoldoffs :
    16 < s0.hst.funcs.length ∧
    ((heldRing 0).errorHoldoff = true ∧ (heldRing 0).svc.errProd = (heldRing 0).svc.errCons) ∧
    ((heldRing 1).errorHoldoff = true ∧ (heldRing 1).svc.errProd ≠ (heldRing 1).svc.errCons ∧
      Unmasked (heldRing 1) 0 (bitsNat (heldRing 1).svc.errCtl.toNat 47 32)) ∧
    (∀ n ∈ [0, 1], (heldQueue n).errorHoldoff = false ∧ HoldsOff (heldQueue n) ((heldQueue n).func 16)) ∧
    ((heldQueue 0).func 16).fqProd = ((heldQueue 0).func 16).fqCons ∧
    (((heldQueue 1).func 16).fqProd ≠ ((heldQueue 1).func 16).fqCons ∧ ((heldQueue 1).func 16).func = 16 ∧
      Unmasked (heldQueue 1) 16 (bitsNat ((heldQueue 1).func 16).fqCtl.toNat 47 32)) := by
  unfold Unmasked HoldsOff; decide +kernel

end Sys2Proof.Tests
end

