-- ==== Sys2Proof/Tests/Issue.lean ====
section
/-! SUPPORT. States and operands that meet the hypotheses of the statements about slot ops at issue, clause by clause. -/

set_option Elab.async false

namespace Sys2Proof.Tests

open Sys2Proof Sys2Proof.Machine Sys2Proof.Claims

/-- A literal 5 for a slot. -/
def litS (sl : Slot) : State := atRecord0 group0 part0 (lits0 sl 1 [5])
/-- A pair of literals, 5 and 7. -/
def pairS (sl : Slot) : State := atRecord0 group0 part0 (lits0 sl 5 [5, 7])

theorem issue_s : AtIssue s0 (vw s0) .s hdr0 LaneMask.all := ⟨rfl, by decide +kernel, by decide⟩
theorem issue_lit_s : AtIssue (litS .s) (vw (litS .s)) .s hdr0 LaneMask.all := ⟨rfl, by decide +kernel, by decide⟩
theorem issue_v : AtIssue s0 (vw s0) .v0 hdr0 LaneMask.all := ⟨rfl, by decide +kernel, by decide⟩
theorem issue_v1 : AtIssue (litS .v1) (vw (litS .v1)) .v1 hdr0 LaneMask.all := ⟨rfl, by decide +kernel, by decide⟩
theorem issue_f : AtIssue s0 (vw s0) .f hdr0 LaneMask.all := ⟨rfl, by decide +kernel, by decide⟩
theorem issue_x : AtIssue s0 (vw s0) .x hdr0 LaneMask.all := ⟨rfl, by decide +kernel, by decide⟩
theorem issue_lit_x : AtIssue (litS .x) (vw (litS .x)) .x hdr0 LaneMask.all := ⟨rfl, by decide +kernel, by decide⟩
theorem issue_m : AtIssue s0 (vw s0) .m hdr0 LaneMask.all := ⟨rfl, by decide +kernel, by decide⟩
theorem issue_a : AtIssue s0 (vw s0) .a hdr0 LaneMask.all := ⟨rfl, by decide +kernel, by decide⟩
theorem issue_t : AtIssue s0 (vw s0) .t hdr0 LaneMask.all := ⟨rfl, by decide +kernel, by decide⟩
theorem issue_c : AtIssue s0 (vw s0) .c hdr0 LaneMask.all := ⟨rfl, by decide +kernel, by decide⟩
theorem issue_lit_c : AtIssue (litS .c) (vw (litS .c)) .c hdr0 LaneMask.all := ⟨rfl, by decide +kernel, by decide⟩

/-! ### The S slot -/

/-- A register form, the literal form at 32 bits with mulh's own FUNC, and SA = 63, which is reserved. -/
theorem wit_ScalarTwoOperandResults :
    (DestFirst (sF 16 1 2) ∧ SecondOk (vw s0) (sF 16 1 2) ∧ WidthOk (sF 16 1 2) ∧ (sF 16 1 2).func.toNat ≤ 0 ∧ (sF 16 1 2).aux = 0) ∧
    (let f := { sF 47 47 0 with bsel := 1, width := 1, func := 1 }
     DestFirst f ∧ SecondOk (vw (litS .s)) f ∧ WidthOk f ∧ f.func.toNat ≤ 1 ∧ f.aux = 0) ∧
    ¬(DestFirst (sF 16 63 2) ∧ SecondOk (vw s0) (sF 16 63 2) ∧ WidthOk (sF 16 63 2) ∧ (sF 16 63 2).func.toNat ≤ 0 ∧
      (sF 16 63 2).aux = 0) := by
  unfold DestFirst SecondOk WidthOk; repeat' apply And.intro
  all_goals decide +kernel

/-- cmp into a predicate with FUNC 9; sel by k15 (no lane) and by a0 = 1; mov; li; lea by the largest shift; bfx and bfi up to
bit 63; sext of 64 bits; clz with a reserved FUNC. -/
theorem wit_ScalarOpResults :
    (let f := { sF 63 1 2 with func := 9 }
     isSA f.sa.toNat = true ∧ SecondOk (vw s0) f ∧ WidthOk f ∧ f.func.toNat ≤ 9 ∧ f.aux = 0) ∧
    (let f := { sF 1 2 3 with aux := 0x3F }
     DestFirst f ∧ isSA f.sb.toNat = true ∧ f.bsel = 0 ∧ WidthOk f ∧ f.func = 0 ∧ f.aux.toNat < 64 ∧
       ¬selTrue (vw s0) f.aux.toNat LaneMask.all) ∧
    (let f := { sF 1 2 3 with aux := 0x20 }
     selTrue (vw (atRecord0 (withScalars [] [1]) part0 ctx0)) f.aux.toNat LaneMask.all) ∧
    (DestFirst (sF 1 2 0) ∧ NoSecond (sF 1 2 0) ∧ WidthOk (sF 1 2 0)) ∧
    (let f := { sF 1 0 0 with bsel := 1 }
     isSA f.sd.toNat = true ∧ f.sa = 0 ∧ f.sb = 0 ∧ (vw (litS .s)).routed .s = true ∧ WidthOk f) ∧
    (let f := { sF 1 2 3 with aux := 7 }
     DestFirst f ∧ SecondOk (vw s0) f ∧ f.width = 0 ∧ f.func = 0 ∧ f.aux.toNat < 8) ∧
    (let f := { sF 1 2 31 with aux := 32 }
     Plain f ∧ f.aux.toNat + (f.sb.toNat + 1) ≤ 64) ∧
    (let f := { sF 1 2 0 with aux := 63 }
     Plain f ∧ f.sb = 0 ∧ f.aux.toNat < 64) ∧
    ¬(({ sF 1 2 0 with func := 1 } : SFields).func = 0) := by
  unfold Plain DestFirst SecondOk WidthOk NoSecond selTrue; repeat' apply And.intro
  all_goals decide +kernel

/-- kset from registers and from the literal; the three-predicate ops; knot; kpop into s31. -/
theorem wit_PredicateOpResults :
    (isK (sF 0x31 1 2).sd.toNat = true ∧ isSA (sF 0x31 1 2).sa.toNat = true ∧ isSA (sF 0x31 1 2).sb.toNat = true) ∧
    (isK (sF 0x3F 0 0).sd.toNat = true ∧ (vw (litS .s)).routed .s = true) ∧
    (isK (sF 0x30 0x3F 0x3F).sd.toNat = true ∧ isK (sF 0x30 0x3F 0x3F).sa.toNat = true ∧ isK (sF 0x30 0x3F 0x3F).sb.toNat = true) ∧
    (isSA (sF 31 0x30 0).sd.toNat = true ∧ isK (sF 31 0x30 0).sa.toNat = true) := by decide +kernel

/-- The reads of %FFLAGS and of the write-only gap; legal and reserved writes of %FFLAGS; the threshold's least value; a
register that is not writable. -/
theorem wit_SpecialRegisterAccess :
    (let f := { sF 16 0 0 with aux := 0x10 }
     isSA f.sd.toNat = true ∧ f.sa = 0 ∧ Readable (vw s0) f.aux.toNat) ∧
    ¬Readable (vw s0) 0x0A ∧
    (let v := vw (litS .s)
     let f := { sF 0 0 0 with aux := 0x10, bsel := 1 }
     CsrForm v f ∧ plainCsr f.aux.toNat = some 0x1F ∧ csrOperand v f &&& ~~~0x1F = 0 ∧ CsrRange f.aux.toNat (csrOperand v f)) ∧
    (let v := vw (atRecord0 (withScalars [0x20, 1024] []) part0 ctx0)
     CsrForm v { sF 0 16 0 with aux := 0x10 } ∧ csrOperand v { sF 0 16 0 with aux := 0x10 } &&& ~~~0x1F ≠ 0 ∧
     CsrForm v { sF 0 17 0 with aux := 0x23 } ∧ plainCsr 0x23 = some 0x1FFFFF ∧ csrOperand v { sF 0 17 0 with aux := 0x23 } &&& ~~~0x1FFFFF = 0 ∧
     CsrRange 0x23 (csrOperand v { sF 0 17 0 with aux := 0x23 })) ∧
    (CsrForm (vw s0) { sF 0 1 0 with aux := 0x01 } ∧ plainCsr 0x01 = none ∧ ¬((vw s0).x.split = 4 ∧ handlerCsr 0x01)) := by
  unfold Readable CsrForm CsrRange handlerCsr; repeat' apply And.intro
  all_goals decide +kernel

/-! ### The V slots -/

/-- A legal form with two and with three sources, one source, none, and each second source. -/
theorem legal_two : VLegal (vw s0) (vF 15 1 2) 2 false false 1 1 := by
  constructor <;> first | (unfold VecOk; decide +kernel) | (unfold VSecond VecOk; decide +kernel) | decide +kernel
theorem legal_lit : VLegal (vw (litS .v1)) { vF 15 1 0 with unit1 := true, bsel := 1 } 2 true true 1 1 := by
  constructor <;> first | (unfold VecOk; decide +kernel) | (unfold VSecond VecOk; decide +kernel) | decide +kernel
theorem legal_scalar : VLegal (vw s0) { vF 0 1 31 with bsel := 2 } 2 true false 1 1 := by
  constructor <;> first | (unfold VecOk; decide +kernel) | (unfold VSecond VecOk; decide +kernel) | decide +kernel
theorem legal_three : VLegal (vw s0) { vF 0 1 2 with vc := 15, rm := 3 } 3 true false 1 1 := by
  constructor <;> first | (unfold VecOk; decide +kernel) | (unfold VSecond VecOk; decide +kernel) | decide +kernel
theorem legal_one : VLegal (vw s0) (vF 0 15 0) 1 false false 1 1 := by
  constructor <;> first | (unfold VecOk; decide +kernel) | (unfold VSecond VecOk; decide +kernel) | decide +kernel
theorem legal_none : VLegal (vw s0) (vF 0 0 0) 0 false false 1 1 := by
  constructor <;> first | (unfold VecOk; decide +kernel) | (unfold VSecond VecOk; decide +kernel) | decide +kernel
theorem legal_wide : VLegal (vw s0) { vF 12 3 0 with fmt := 8, fmt2 := 10 } 1 false false 4 1 := by
  constructor <;> first | (unfold VecOk; decide +kernel) | (unfold VSecond VecOk; decide +kernel) | decide +kernel

/-- The legal forms meet the ops' formats: bf16, the integers, one format; and one register too many is no legal form. -/
theorem wit_VectorFloatArithmetic : FloatForm { vF 15 1 2 with fmt := 2 } ∧ ¬VecOk (vw s0) 16 1 := by
  unfold FloatForm VecOk; repeat' apply And.intro
  all_goals decide +kernel
theorem wit_VectorFloatSelections :
    FloatForm (vF 15 1 2) ∧
    (let f := { vF 15 1 2 with func := 7 }
     f.vd.toNat < 16 ∧ VecOk (vw s0) f.va.toNat 1 ∧ VSecond (vw s0) f ∧ f.fmt.toNat ≤ 2 ∧ f.func.toNat ≤ 7) ∧
    (let f := { vF 0 1 2 with fmt := 14, func := 5 }
     f.fmt.toNat ∈ [8, 9, 10, 12, 13, 14] ∧ f.func.toNat ≤ 5) := by
  unfold FloatForm VSecond VecOk; repeat' apply And.intro
  all_goals decide +kernel
theorem wit_VectorIntegers : IntForm { vF 15 1 2 with fmt := 14 } ∧ ¬IntForm { vF 15 1 2 with fmt := 11 } := by
  unfold IntForm; repeat' apply And.intro
  all_goals decide +kernel
theorem wit_VectorRawOps :
    IntForm { vF 15 1 2 with fmt := 10 } ∧ FmtForm [0] (vF 15 1 2) ∧ FmtForm [8, 12] { vF 15 1 2 with fmt := 12 } ∧
    (let f := { vF 0 15 0 with fmt := 15, func := 7 }
     f.fmt.toNat ∈ [9, 10, 11, 13, 14, 15] ∧ f.fmt2 = 0 ∧ f.func.toNat < 32 / fmtWidth f.fmt.toNat) ∧
    (let f := { vF 15 0 0 with unit1 := true, bsel := 1, fmt := 11 }
     VecOk (vw (litS .v1)) f.vd.toNat 1 ∧ f.va = 0 ∧ f.fmt.toNat ∈ [0, 9, 10, 11] ∧ (vw (litS .v1)).route32 (vSlot f) = true) ∧
    isSA (vF 0 47 0).va.toNat = true := by
  unfold IntForm FmtForm VecOk; repeat' apply And.intro
  all_goals decide +kernel
theorem wit_VectorConversions :
    (let f := { vF 15 1 0 with fmt := 1, fmt2 := 9 }
     f.fmt.toNat ∈ convertible ∧ f.fmt2.toNat ∈ convertible ∧ VecOk (vw s0) f.vd.toNat 1 ∧ VecOk (vw s0) f.va.toNat 1 ∧
       fmtWidth f.fmt2.toNat = fmtWidth f.fmt.toNat ∧ f.fmt2.toNat ≠ f.fmt.toNat) ∧
    (let f := { vF 15 12 0 with fmt := 10, fmt2 := 0 }
     f.fmt.toNat ∈ convertible ∧ f.fmt2.toNat ∈ convertible ∧ fmtWidth f.fmt2.toNat = 4 * fmtWidth f.fmt.toNat ∧
       VecOk (vw s0) f.va.toNat 4) ∧
    (let f := { vF 15 1 2 with fmt := 1, fmt2 := 0 }
     fmtWidth f.fmt2.toNat = 2 * fmtWidth f.fmt.toNat ∧ f.func = 0) ∧
    (let f := { vF 15 1 0 with fmt := 0, fmt2 := 1, func := 1 }
     widePair f.fmt.toNat f.fmt2.toNat = true ∧ fmtWidth f.fmt.toNat = 2 * fmtWidth f.fmt2.toNat ∧ f.func.toNat ≤ 1) ∧
    (widePair 8 10 = true ∧ fmtWidth 8 = 4 * fmtWidth 10) := by
  unfold VecOk; repeat' apply And.intro
  all_goals decide +kernel
theorem wit_VectorDotProducts :
    (let f := { vF 15 1 2 with fmt2 := 2 }
     f.fmt = 0 ∧ f.fmt2.toNat ∈ [1, 2] ∧ f.func = 0) ∧
    (let f := { vF 15 1 2 with fmt := 8, fmt2 := 14, sat := true }
     f.fmt = 8 ∧ f.fmt2.toNat ∈ [10, 14] ∧ f.func = 0) ∧
    (let f := { vF 15 1 2 with fmt := 8, fmt2 := 15 }
     f.fmt = 8 ∧ f.fmt2.toNat ∈ [11, 15] ∧ f.func = 0) := by decide
/-- Entries of zeros are in order for q8 and q4; an entry of 1 is not. -/
theorem wit_VectorQuantizing :
    (let f := { vF 15 1 2 with fmt := 17 }
     f.func = 0 ∧ f.fmt.toNat ∈ [16, 17] ∧ f.fmt2 = 0 ∧ ScalesOk (vw s0) f LaneMask.all (f.fmt == 17)) ∧
    (let f := { vF 15 1 2 with fmt := 2, fmt2 := 16 }
     f.fmt.toNat ≤ 2 ∧ f.fmt2.toNat ∈ [16, 17] ∧ ScalesOk (vw s0) f LaneMask.all (f.fmt2 == 17)) ∧
    (let v := vw (atRecord0 { group0 with v := group0.v.set 2 (List.replicate 128 1) } part0 ctx0)
     ¬ScalesOk v { vF 15 1 2 with fmt := 16 } LaneMask.all false) := by
  unfold ScalesOk; repeat' apply And.intro
  all_goals decide +kernel

/-! ### The F and X slots -/

theorem wit_SpecialFunctions :
    (VecOk (vw s0) 15 1 ∧ VecOk (vw s0) 0 1 ∧ (fF 15 0).fmt.toNat ≤ 2 ∧ (fF 15 0).rsv = false) ∧ ¬VecOk (vw s0) 16 1 ∧
    (∃ F, floatFmt 2 = some F ∧ unpack F (flushIn F true 0x7F81) = .nan true ∧ unpack F (flushIn F true 0xFF80) = .inf true ∧
      unpack F (flushIn F true 0x8000) = .fin true 0 (-133) ∧
      unpack F (flushIn F true 0xBF80) = .fin true 128 (-7)) := by
  refine ⟨by unfold VecOk; decide +kernel, by unfold VecOk; decide +kernel, _, rfl, ?_⟩; decide +kernel

theorem wit_CrossbarMoves :
    XGeneral (vw s0) (xF 15 0 63) ((vw s0).route32 .x = true → (xF 15 0 63).aux = 0) ∧
    XGeneral (vw (litS .x)) (xF 15 0 0) ((vw (litS .x)).route32 .x = true → (xF 15 0 0).aux = 0) ∧
    XStatic (vw (atRecord0 group0 { part0 with image := { image0 with patCount := 1 }, pats := [List.range 128] } ctx0))
      { hdr := hdr0, pat := 0, va := 15, vd := 15 } ∧
    XGeneral (vw s0) (xF 15 0 14) (VecOk (vw s0) 14 1) ∧ XGeneral (vw s0) (xF 15 0 2) ((xF 15 0 2).aux.toNat ≤ 2) ∧
    (let act : LaneMask := 3
     (∀ n, n < 128 → collides (1 : LaneMask) (fun _ => 5) n = false) ∧ collides act (fun _ => 5) 1 = true ∧
     ∀ k, k < 128 → collides act (fun _ => 5) k = true → 5 ≤ 5) ∧
    (xF 15 0 0).vd.toNat < 16 := by
  unfold XGeneral XStatic VecOk; repeat' apply And.intro
  all_goals decide +kernel

/-- The largest operator and type of a reduction. -/
theorem wit_CrossbarReductions :
    XGeneral (vw s0) (xF 15 0 (2 * 16 + 4)) ((xF 15 0 (2 * 16 + 4)).aux.toNat / 16 ≤ 2 ∧ (xF 15 0 (2 * 16 + 4)).aux.toNat % 16 ≤ 4) := by
  unfold XGeneral VecOk; repeat' apply And.intro
  all_goals decide +kernel

end Sys2Proof.Tests
end

