-- ==== Sys2Proof/Tests/Launches.lean ====
section
/-! SUPPORT. States that meet the hypotheses of the statements about launches and about teams that leave and come back. -/

set_option Elab.async false

namespace Sys2Proof.Tests

open Sys2Proof Sys2Proof.Machine Sys2Proof.Claims

/-! ### Launches -/

/-- The header of an image at 0x10000: entry 20, one group, 16 vector registers, and its landing map at 0x12000. -/
def imageCells : List Host.Cell :=
  [(0x10000, 0x41), (0x10001, 0x44), (0x10002, 0x4B), (0x10003, 0x31), (0x10004, 1), (0x10008, 1), (0x10031, 0x20), (0x10059, 0x10),
   (0x1005C, 20), (0x10060, 16), (0x10062, 1), (0x12002, 0x10)]
/-- A record for it: one team, no DEP, no DONE. -/
def recordBytes0 : List Byte := (List.range 128).map fun i => if i = 2 ∨ i = 32 ∨ i = 36 then 1 else 0
/-- With hearth 0 alone present, so that a place is soon found. -/
def alone (s : State) : State := { s with core := { s.core with hearths := [State.freshHearth 0] } }
/-- A queue whose counts are 2^32 - 1, with that record taken. -/
def fullQueue : LQueue := { func := 0, queue := 63, ring := 0x5000, shadow := 0x6000, d := 2 ^ 32 - 1, a := 2 ^ 32 - 1, spawned := [], cur := recordBytes0,
                            held := [], wait := 0 }
def queuedS : State :=
  let s := holding imageCells (mapped ((alone s0).modFunc 0 fun g => { g with aqCtl := 0x100, nextLaunch := 0 }))
  { s with lch := { s.lch with queues := [fullQueue] }, hst := { s.hst with owners := s.hst.owners.set 0 (some 0) } }
def withLaunch (l : Launch) (s : State) : State := { s with lch := { s.lch with launches := [l] } }
def waitingL : Launch := { launch0 with teams := [{ team0 with state := .waiting }] }
def endedL (stage : Nat) : Launch := { launch0 with teams := [{ team0 with state := .done }], status := some (0, 0, 0, 0, 0), stage := stage }
def countedL (stage : Nat) : Launch := { endedL stage with record := { record0 with done := 0x100 } }
/-- A buffer of two lines of DDR-5 that an ended launch has left fresh, and how far the engine is. -/
def freshL : Launch := { endedL 1 with fresh := [8191] }
def freshBuffer : Buffer := { idx := 8191, world := 0, base := ddrBase, len := 512, version := 1 }
def freshS (r : Option Rewrap) : State :=
  let s := withLaunch freshL s0
  { s with sec := { s.sec with buffers := [freshBuffer], rewrap := r } }
/-- A load of 128 bytes to the last bytes of the meadow of dies 0 and 3. -/
def loadingL : Launch := { launch0 with loads := [(0x10000, 2 ^ 31 - 128, 9, 128)] }
def ownerS : State :=
  let s := withLaunch loadingL (mapped s0)
  { s with hst := { s.hst with units := [(0, 127, 0), (3, 127, 0)] } }
def emptyG : Group := { group0 with splits := List.replicate 4 freeSplit }

/-- The doorbell goes on by 256 records past the wrap, and stands; 257, and one back, fail. Counters that have come and that cannot be
read; the oldest wait; a load; a team on hearth 0; each stage of completion; a group without lanes. -/
theorem wit_LaunchesRun :
    (queuedS.lch.queue? 0 63 = some fullQueue ∧ 0 < queuedS.hst.funcs.length ∧ GoodBell fullQueue 255 ∧ GoodBell fullQueue (2 ^ 32 - 1) ∧
      ¬GoodBell fullQueue 256 ∧ ¬GoodBell fullQueue (2 ^ 32 - 2) ∧ (queuedS.func 0).aqCtl.getLsbD 8 = true ∧ queuedS.mem.wf = true) ∧
    (queuedS.lch.queues.find? LQueue.ready = some fullQueue ∧ fullQueue.cur ≠ [] ∧
      (match queuedS.checkRecord fullQueue (parseLaunch fullQueue.cur) with | .accepted _ _ _ => true | _ => false) = true) ∧
    (let l := { waitingL with eligible := none }
     (withLaunch l s0).dependDue = some (l, .value (withLaunch l s0) 0) ∧ (withLaunch l s0).lch.launch? 1 = some l ∧ l.record.depval ≤ 0) ∧
    (let l := { waitingL with eligible := none, record := { record0 with dep := 8 } }
     (withLaunch l s0).dependDue = some (l, .fails) ∧ (withLaunch l s0).lch.launch? 1 = some l ∧ l.status = none) ∧
    (({ withLaunch waitingL s0 with cycle := 1048576 } : State).ageDue = some waitingL) ∧
    (ownerS.loadDue = some (loadingL, (0x10000, 2 ^ 31 - 128, 9, 128)) ∧ ownerS.lch.launch? 1 = some loadingL ∧ ownerS.mem.wf = true ∧
      (∀ d ∈ loadDies 9, ∀ u ∈ unitsOf (2 ^ 31 - 128) 128, ownerS.hst.ownsUnit d u 0 = true) ∧
      ∃ t bs, (ownerS.acquire 0 6).readBytes 0 0 (doneWaiter 1) 0x10000 128 = .got t bs ∧ 2 ^ 31 - 128 + bs.length ≤ 2 ^ 31) ∧
    (let s := withLaunch waitingL (alone State.reset)
     s.placeDue = some (waitingL, 0, [0]) ∧ s.lch.launch? 1 = some waitingL ∧ 0 < s.core.hearths.length) ∧
    (∀ r ∈ [none, some { idx := 8191, ptr := ddrBase, cycle := 0 }, some { idx := 8191, ptr := ddrBase + 512, cycle := 0 }],
      (freshS r).rewrapDue = some freshL ∧ (freshS r).lch.launch? 1 = some freshL ∧
      (freshS r).sec.buffers.find? (fun b => b.idx == 8191) = some freshBuffer ∧ (freshS r).sec.rewrap = r) ∧
    (let x : Loc := { tgt := 0, dev := 0, pa := ddrBase }
     let s := freshS (some { idx := 8191, ptr := ddrBase, cycle := 0 })
     x.coded = true ∧ s.lineState x s.core.seq (s.sec.worldOf x) = .good) ∧
    ((withLaunch freshL s0).rewrapDue = some freshL ∧ (withLaunch freshL s0).sec.buffers = []) ∧
    (∀ n ∈ [0, 1, 2, 3, 4], (withLaunch (endedL n) (mapped s0)).completeDue = some (endedL n) ∧
      (withLaunch (endedL n) (mapped s0)).lch.launch? 1 = some (endedL n)) ∧
    (∃ t, (withLaunch (endedL 2) (mapped s0)).putBytes 0 0 0x20000 ((endedL 2).recordBytes 100) = .done t) ∧
    (∃ t, (withLaunch (countedL 3) (mapped s0)).completeDue = some (countedL 3) ∧
      (withLaunch (countedL 3) (mapped s0)).stepCounter (countedL 3) = .done t) ∧
    (atRecord0 emptyG part0 ctx0).retireDue = some (emptyG, part0) := by
  unfold GoodBell
  refine ⟨by decide +kernel, by decide +kernel, ⟨rfl, ?_⟩, ⟨rfl, ?_⟩, ?_, ⟨?_, ?_, ?_, ?_, _, _, rfl, ?_⟩, ?_, ?_, ?_, ?_, ?_, ⟨_, rfl⟩, ⟨_, ?_, rfl⟩, ?_⟩
  all_goals decide +kernel

/-! ### Writes of images -/

/-- The entry of `mapped`. -/
def entry0 : TlbEntry := { stove := 0, world := 0, base := 0, size := 2 ^ 30, leaf := leaf0 0, ptr := { tgt := 0, dev := 0, pa := 2 ^ 30 } }

/-- The caches find the first gigabyte in the TLB, and no line in error. -/
structure Clear (c : Caches) : Prop where
  tlb : c.tlb = [entry0]
  poison : c.poison = []
  lost : c.lost = []
  refetch : c.refetch = []
  macBad : c.macBad = []

/-- A write of the first gigabyte goes to device memory, where it was found. -/
theorem translate_mapped (s : State) (va : Nat) (h : Clear s.cch) (hv : va < 2 ^ 30) :
    ∃ t l, s.translate 0 0 va .write = .ok t l (leaf0 0) ∧ Clear t.cch ∧ l.tgt = 0 ∧ l.pa = va := by
  unfold State.translate
  have e1 : (decide (entry0.base ≤ va) && decide (va < entry0.base + entry0.size)) = true := by
    have h1 : entry0.base ≤ va := Nat.zero_le _
    have h2 : va < entry0.base + entry0.size := by change va < 0 + 2 ^ 30; omega
    simp [h1, h2]
  have e2 : (s.cch.tlb.find? fun e => e.stove == 0 && e.world == 0 && e.base ≤ va && va < e.base + e.size) = some entry0 := by
    rw [h.tlb, List.find?_cons_of_pos]
    rw [Bool.and_assoc, e1]; rfl
  have e3 : ((some entry0).filter fun e => (needFault .write e.leaf).isNone) = some entry0 := by decide +kernel
  rw [e2]
  dsimp only
  rw [e3]
  dsimp only
  have e4 : s.setAD entry0.ptr entry0.leaf .write 0 = (s, entry0.leaf) := by
    rfl
  rw [e4]
  refine ⟨_, _, rfl, ⟨?_, h.poison, h.lost, h.refetch, h.macBad⟩, rfl, ?_⟩
  · simp [h.tlb]
  · change leafPa entry0.leaf + (va - 0) = va
    rw [show leafPa entry0.leaf = 0 by decide +kernel]; omega

theorem clear_mark (l : List Loc) : ∀ c : Caches, Clear c → Clear (l.foldl Caches.mark c) := by
  induction l with
  | nil => exact fun _ h => h
  | cons x l ih => exact fun c h => ih _ ⟨h.tlb, h.poison, h.lost, h.refetch, h.macBad⟩
theorem clear_write (s : State) (l : Loc) (bs : List Byte) (w : Nat) (h : Clear s.cch) : Clear (s.homeWrite l bs w).cch := by
  have := clear_mark (l.linesOf bs.length) _ h
  exact ⟨this.tlb, this.poison, by simp [State.homeWrite, Caches.wroteLine, this.lost], this.refetch, this.macBad⟩

/-- Lines of device memory below DDR-5 are good. -/
theorem range_good (s : State) (l : Loc) (n seq w : Nat) (h : Clear s.cch) (ht : l.tgt = 0) (hp : l.pa + n ≤ 2 ^ 31) : s.rangeState l n seq w = .good := by
  have : ∀ x ∈ l.linesOf n, s.lineState x seq w = .good := by
    intro x hx
    unfold Loc.linesOf at hx
    obtain ⟨i, hi, rfl⟩ := List.mem_map.mp hx
    have hi := List.mem_range.mp hi
    unfold ceilDiv at hi
    have hc : ({ l with pa := l.pa - l.pa % 256 + 256 * i } : Loc).coded = false := by
      have : ¬ddrBase ≤ l.pa - l.pa % 256 + 256 * i := by unfold ddrBase; omega
      simp [Loc.coded, ht, this]
    unfold State.lineState Caches.lineState
    simp [h.poison, h.lost, h.refetch, h.macBad, Security.passes, hc]
  unfold State.rangeState
  rw [List.find?_eq_none.mpr]
  · rfl
  · intro x hx
    obtain ⟨y, hy, rfl⟩ := List.mem_map.mp hx
    simp [this y hy]

theorem writes_mapped (fuel : Nat) : ∀ (s : State) (va : Nat) (bs : List Byte), Clear s.cch → va + bs.length ≤ 2 ^ 30 →
    ∃ t, s.writeVirt 0 0 fuel va bs = .done t ∧ Clear t.cch := by
  induction fuel with
  | zero => exact fun s _ _ h _ => ⟨s, rfl, h⟩
  | succ n ih =>
    intro s va bs h hl
    unfold State.writeVirt
    cases bs with
    | nil => exact ⟨s, rfl, h⟩
    | cons b r =>
      obtain ⟨t, l, ht, htc, hl0, hlp⟩ := translate_mapped s va h (by simp at hl; omega)
      have hk : Nat.min (b :: r).length (4096 - va % 4096) ≤ (b :: r).length := Nat.min_le_left _ _
      have hr := range_good t l (Nat.min (b :: r).length (4096 - va % 4096)) t.core.seq 0 htc hl0 (by omega)
      simp only [List.isEmpty_cons, Bool.false_eq_true, if_false, ht, hl0, hr]
      exact ih _ _ _ (clear_write t l _ 0 htc) (by rw [List.length_drop]; omega)

theorem puts_mapped (s : State) (va : Nat) (bs : List Byte) (h : Clear s.cch) (hl : va + bs.length ≤ 2 ^ 30) :
    ∃ t, s.putBytes 0 0 va bs = .done t ∧ Clear t.cch := writes_mapped _ s va bs h hl

theorem natLe_size (n x : Nat) : (natLe n x).length = n := by
  induction n generalizing x with
  | zero => rfl
  | succ n ih => simp [natLe, ih]
theorem header_size (s : State) (p : Part) (x n : Nat) : (s.swapHeader p x n).length = 64 := by
  unfold State.swapHeader
  simp [natLe_size]
/-- The images of a team of one part of world 0 that lies in the first gigabyte are written, whatever their length. -/
theorem images_mapped (s : State) (p : Part) (st : Nat) (h : Clear s.cch) (hh : p.h = 0) (hw : p.world = 0)
    (hp : p.swap + p.image.swapSize ≤ 2 ^ 30) (hs : 65536 ≤ p.image.swapSize) : ∃ u, s.writeImages st [p] = (u, none) := by
  have hl : imageLength p s.core.free ≤ p.image.swapSize ∧ 64 ≤ imageLength p s.core.free := by
    unfold imageLength
    have := Nat.mod_lt (Config.freeNat s.core.free) (show 0 < p.image.swapSize - 63 by omega)
    omega
  unfold State.writeImages State.eachPart State.writeImage
  rw [hh, hw, show stoveOf 0 = 0 from rfl]
  obtain ⟨t, h1, k1⟩ := puts_mapped s p.swap (s.swapHeader p 0 (imageLength p s.core.free)) h (by rw [header_size]; omega)
  obtain ⟨u, h2, k2⟩ := puts_mapped t (p.swap + 64)
    ((List.range (imageLength p s.core.free - 64)).map fun i => Config.freeByte (s.core.free + 1 + i)) k1 (by simp; omega)
  obtain ⟨w, h3, k3⟩ := puts_mapped u p.swap (u.swapHeader p st (imageLength p s.core.free)) k2 (by rw [header_size]; omega)
  simp only [h1, h2, State.eachPart, h3]
  exact ⟨_, rfl⟩

/-! ### Teams that leave and come back -/

/-- The one team of launch 1 in a state, leaving for a reason. -/
def teamIn (st : TeamState) (why : Nat) : Team := { team0 with state := st, leaving := why }
def launchOf1 (t : Team) : Launch := { launch0 with teams := [t] }
def teamS (t : Team) (g : Group) (p : Part) : State := withLaunch (launchOf1 t) (mapped (atRecord0 g p ctx0))
/-- Its part has waited past its threshold. -/
def idlePart : Part := { part0 with waitClock := 1025 }
/-- A saved part whose split was READY. -/
def savedPart0 : SavedPart :=
  { part := part0, groups := [{ group0 with splits := [{ split0 with state := .swapped, before := .ready }, freeSplit, freeSplit, freeSplit] }],
    accs := [], engs := [], mats := [] }
/-- A launch that wants the whole scratchpad, while the team of launch 1 holds a page of it. -/
def hugeL (func prio : Nat) : Launch :=
  { waitingL with id := 2, num := 2, func := func, image := { image0 with scratch := 1048576 }, record := { record0 with prio := prio } }
def contendedS (func prio : Nat) : State :=
  { alone (atRecord0 group0 part0 ctx0) with cycle := 2 ^ 24, lch := { State.reset.lch with launches := [launch0, hugeL func prio] } }
def watchedG : Group := { group0 with splits := [{ split0 with state := .longwait, monitor := some (0, none) }, freeSplit, freeSplit, freeSplit] }
def haltedPart (halt dump : Nat) : Part := { part0 with halt := halt, dump := dump, swap := 0x100000 }

def dumpS : State := mapped (atRecord0 group0 (haltedPart 2 1) ctx0)

theorem dump_long : 0 < (dumpS.dumpBytes (haltedPart 2 1)).length := by
  have h : 0 < (dumpS.dumpHeader (haltedPart 2 1) 0 0 0 0 0).length := by
    unfold State.dumpHeader padTo
    rw [List.length_take, List.length_append, List.length_replicate]
    omega
  unfold State.dumpBytes
  rw [List.append_assoc, List.append_assoc, List.length_append]
  exact Nat.lt_of_lt_of_le h (Nat.le_add_right _ _)
theorem clear_dump : Clear dumpS.cch := ⟨rfl, rfl, rfl, rfl, rfl⟩
theorem dump_starts : ∃ u, dumpS.putBytes 0 0 0x100000 (((dumpS.dumpBytes (haltedPart 2 1)).drop 0).take 256) = .done u := by
  have h := List.length_take_le 256 ((dumpS.dumpBytes (haltedPart 2 1)).drop 0)
  obtain ⟨t, ht, _⟩ := puts_mapped dumpS 0x100000 (((dumpS.dumpBytes (haltedPart 2 1)).drop 0).take 256) clear_dump (by omega)
  exact ⟨t, ht⟩

theorem images_written (why st : Nat) : ∃ u, (teamS (teamIn .resident why) group0 part0).writeImages st
    ((teamS (teamIn .resident why) group0 part0).core.teamParts 1 0) = (u, none) := by
  have hp : (teamS (teamIn .resident why) group0 part0).core.teamParts 1 0 = [part0] := rfl
  rw [hp]
  exact images_mapped _ part0 st ⟨rfl, rfl, rfl, rfl, rfl⟩ rfl rfl (by decide +kernel) (by decide +kernel)

/-- A result of the team is on its way. -/
def busyS (t : Team) : State :=
  let s := teamS t group0 part0
  { s with core := { s.core with land := [{ h := 0, slot := 0, split := 0, due := 200, seq := 7, sq := false, bus := some 0, lanes := 1, writes := [],
                                             fflags := [], isat := 0 }] } }

theorem wit_TeamsMove :
    (let t := teamIn .resident 0
     let s := teamS t group0 idlePart
     HasTeam s (launchOf1 t) t ∧ s.leaverDue 1 = none ∧ s.staysDue = none ∧ s.swapTrigger = some (launchOf1 t, t)) ∧
    (let t := teamIn .resident 1
     HasTeam (busyS t) (launchOf1 t) t ∧ (busyS t).leaverDue 1 = none ∧ (busyS t).staysDue = some (launchOf1 t, t)) ∧
    (let t := teamIn .resident 1
     let s := teamS t group0 part0
     HasTeam s (launchOf1 t) t ∧ s.leaverDue 1 = some (launchOf1 t, t) ∧ ∃ u, s.writeImages 1 (s.core.teamParts 1 0) = (u, none)) ∧
    (let t := { teamIn (.swapped false) 0 with saved := [savedPart0] }
     (withLaunch (launchOf1 t) State.reset).returnDue = some (launchOf1 t, t)) ∧
    (∀ st ∈ [TeamState.swapped true, .preempted],
      let t := { teamIn st 0 with saved := [savedPart0] }
      (withLaunch (launchOf1 t) (alone State.reset)).comeBack st = some (launchOf1 t, t, [0])) ∧
    ((contendedS 0 15).priorityDue = some (hugeL 0 15, launch0, team0) ∧ HasTeam (contendedS 0 15) launch0 team0) ∧
    ((contendedS 16 0).sliceDue = some (hugeL 16 0, launch0, team0) ∧ HasTeam (contendedS 16 0) launch0 team0) ∧
    (let s := teamS (teamIn .resident 2) watchedG part0
     s.preemptMonitor = some (0, 0, 0) ∧ Stands s 0 0 watchedG ∧ watchedG.splits.length = 4 ∧ (watchedG.split 0).state = .longwait) ∧
    (let t := teamIn .resident 2
     let s := teamS t group0 part0
     s.preemptMonitor = none ∧ s.leaverDue 2 = some (launchOf1 t, t) ∧ ∃ u, s.writeImages 2 (s.core.teamParts 1 0) = (u, none)) ∧
    (let s := atRecord0 group0 (haltedPart 1 1) ctx0
     s.drainDue = some (haltedPart 1 1) ∧ HasPart s (haltedPart 1 1) ∧ (haltedPart 1 1).dump ≠ 0) ∧
    (let p := haltedPart 2 1
     let s := dumpS
     s.dumpDue = some p ∧ HasPart s p ∧ 0 < (s.dumpBytes p).length ∧ s.unreachable p 0x100000 = false ∧
     ∃ u, s.putBytes 0 0 0x100000 (((s.dumpBytes p).drop 0).take 256) = .done u) := by
  unfold HasTeam HasPart Stands
  refine ⟨?_, ?_, ⟨?_, ?_, images_written 1 1⟩, ?_, ?_, ?_, ?_, ?_, ⟨?_, ?_, images_written 2 2⟩, ?_, ?_, ?_, dump_long, ?_, dump_starts⟩
  all_goals decide +kernel

end Sys2Proof.Tests
end

