-- ==== Sys2Proof/Tests/Memory.lean ====
section
/-! SUPPORT. States and operands that meet the hypotheses of the statements about the M, A and T slots at issue. -/

set_option Elab.async false

namespace Sys2Proof.Tests

open Sys2Proof Sys2Proof.Machine Sys2Proof.Claims

/-! ### The M slot -/

/-- The registers of the M tests: a1 the highest address at which 128 words end below the canonical hole, a2 an address that is
no multiple of 4, s16 one region, s17 its length, a3 an address of the hole. -/
def memG : Group :=
  withScalars [0x1000, 256, 2 ^ 40] [0, BitVec.ofNat 64 (2 ^ 57 - 512), 0x102, BitVec.ofNat 64 (2 ^ 57)]
def memS : State := atRecord0 memG part0 ctx0

theorem issue_mem : AtIssue memS (vw memS) .m hdr0 LaneMask.all := ⟨rfl, by decide +kernel, by decide⟩
/-- Lane 0 alone. -/
def oneS (g : Group) (p : Part) : State := atRecord0 g p { ctx0 with smask := 1 }
theorem issue_one (g : Group) (p : Part) (hg : g.h = 0 ∧ g.slot = 0 ∧ g.part = p.id) :
    view (oneS g p) = some (vw (oneS g p)) := by
  obtain ⟨h1, h2, h3⟩ := hg
  simp [view, oneS, atRecord0, Core.group?, Core.part?, ctx0, h1, h2, h3, vw]

/-- Every row of R164 at its widest, and the addresses at the end of the canonical range. -/
theorem wit_GlobalAccessesStart :
    let v := vw memS
    GlobalLanesOk v (mF 15 0x21 0) LaneMask.all ∧ ¬GlobalLanesOk v (mF 15 0x23 0) LaneMask.all ∧
    mBad (specV true true) { mF 12 0x21 0 with width := 4 } v = none ∧ mBad (specV false false) { mF 14 0x21 0 with width := 3 } v = none ∧
    mBad { data := .vec 1, wlo := 2, whi := 3, index := .addr true, ords := [0, 1, 2, 3], fmax := 8, sx := true } { mF 15 0x21 0 with func := 8, ord := 3 } v = none ∧
    mBad { data := .vec 2, wlo := 2, whi := 3, index := .addr true, ords := [0, 1, 2, 3], fmax := 0 } (mF 14 0x21 0) v = none ∧
    mBad { data := .vec 1, wlo := 2, whi := 2, index := .addr true, ords := [0, 1, 2, 3], fmax := 2, sx := true } { mF 15 0x21 0 with func := 2, sx := true } v = none ∧
    mBad specO (mF 15 0x21 0) v = none ∧
    mBad { data := .none, wlo := 0, whi := 4, index := .addr true, ords := [0], fmax := 1 } { mF 0 0x21 0 with func := 1 } v = none ∧
    ((scalarAddr v (mF 31 0x21 0)).toNat % laneBytes (mF 31 0x21 0) = 0 ∧ canonical (scalarAddr v (mF 31 0x21 0)) = true) ∧
    mBad (specS 1 true) (mF 31 0x21 0) v = none ∧ mBad (specS 2 false) (mF 31 0x21 0) v = none := by
  unfold GlobalLanesOk; repeat' apply And.intro
  all_goals decide +kernel

/-- Every lane is misaligned, lane 0 the lowest. -/
theorem wit_MisalignedLanesTrap :
    let v := vw memS
    let f := mF 14 0x22 0
    CanTrap v ∧ (misaligned v f LaneMask.all).has 0 = true ∧ ∀ op ∈ laneGlobal, mBad op.2 f v = none := by
  unfold CanTrap laneGlobal; repeat' apply And.intro
  all_goals decide +kernel

/-- The last 512 bytes of scratchpad, under rotations 0 and 3; the words of satom; a byte that two lanes name, the higher last. -/
theorem wit_ScratchpadAccesses :
    let v := vw (atRecord0 (withScalars [3584] []) part0 ctx0)
    PadLanesOk v (mF 15 16 0) LaneMask.all ∧ cellsWf [(4, 1), (9, 2)] = true ∧ cellsWf v.p.scratch = true ∧ mBad (specP 0 4 0 true) { mF 15 16 0 with rot := 3 } v = none ∧
    mBad (specP 0 4 0 false) (mF 15 16 0) v = none ∧ mBad (specP 2 3 8 false) { mF 15 16 0 with func := 8 } v = none ∧
    PadLast v (mF 15 16 0) LaneMask.all 3587 0 ∧ PadLast v (mF 15 16 0) LaneMask.all 4095 127 ∧ ¬PadNamed v (mF 15 16 0) LaneMask.all 3583 ∧
    ¬PadNamed v (mF 15 16 0) LaneMask.all 4096 := by
  refine ⟨?_, ?_, ?_, ?_, ?_, ?_, ?_, ?_, ?_, ?_⟩
  · unfold PadLanesOk; decide +kernel
  · decide +kernel
  · decide +kernel
  · decide +kernel
  · decide +kernel
  · decide +kernel
  · unfold PadLast; decide +kernel
  · unfold PadLast; decide +kernel
  · rintro ⟨n, hn, -, h, -⟩
    have h0 : ∀ n, n < 128 → 3584 ≤ (laneAddr (vw (atRecord0 (withScalars [3584] []) part0 ctx0)) (mF 15 16 0) (laneBytes (mF 15 16 0)) n).toNat := by
      decide +kernel
    have := h0 n hn
    omega
  · rintro ⟨n, hn, -, -, h⟩
    have h0 : ∀ n, n < 128 → (laneAddr (vw (atRecord0 (withScalars [3584] []) part0 ctx0)) (mF 15 16 0) (laneBytes (mF 15 16 0)) n).toNat +
        laneBytes (mF 15 16 0) ≤ 4096 := by decide +kernel
    have := h0 n hn
    omega

/-- The last word of the private block, the first of a meadow unit, and 128 words to the end of the scratchpad. -/
def directS : State :=
  let s := atRecord0 (withScalars [63, 0, 3584] []) part0 ctx0
  { s with hst := { s.hst with units := [(0, 0, 0)] } }
theorem wit_PrivateMeadowDirectStart :
    let v := vw directS
    (∀ n, n < 128 → (laneAddr v (mF 15 16 0) 0 n).toNat + (dataRegs v (mF 15 16 0) 1).length ≤ v.p.image.priv) ∧
    mBad (specPv true) (mF 15 16 0) v = none ∧ mBad (specPv false) (mF 15 16 0) v = none ∧
    (mBad (specV true true) (mF 15 17 0) v = none ∧ ∀ n, n < 128 →
      let a := (laneAddr v (mF 15 17 0) 4 n).toNat
      a % 4 = 0 ∧ a + 4 ≤ 2 ^ 31 ∧ (dieOf v.x.h, a / 2 ^ 24, v.p.world) ∈ directS.hst.units) ∧
    (let f := { mF 18 17 0 with func := 15, width := 1, sx := true }
     mBad { data := .scalar, wlo := 0, whi := 4, index := .addr true, ords := [0], fmax := 15, sx := true } f v = none ∧
     GlobalLanesOk v f LaneMask.all ∧
     ∀ n, n < 128 → (v.scalar f.data.toNat + BitVec.ofNat 64 (n * laneBytes f)).toNat + laneBytes f ≤ v.p.image.scratch) := by
  unfold GlobalLanesOk; repeat' apply And.intro
  all_goals decide +kernel

/-- A binding of the least and of the largest length; a second bind of it; an object whose scope can be read and one whose
cannot; tags complete and not. -/
def boundS : State := holding [(0, 6)] (mapped (atRecord0 memG { part0 with bindings := [(0, 0x1000, 256)] } ctx0))
def scopedS : State := holding [(0x100, 6)] (mapped (atRecord0 (withScalars [0x1000, 256] [0x100]) part0 ctx0))
def taggedS : State :=
  atRecord0 { withScalars [0xFFFF] [] with tags := { count := 1, failed := none } :: List.replicate 15 { count := 0, failed := none } }
    part0 ctx0
theorem wit_SyncOpsComplete :
    (let v := vw memS
     mBad (specSync .scalar (.scalar true) 0) { mF 17 0x20 16 with width := 0, idxen := true } v = none ∧ ObjectOk (syncObject v { mF 17 0x20 16 with width := 0, idxen := true }) ∧
     BindingFits memS v 0 0x1000 256 ∧ BindingFits memS v 0 0x1000 (2 ^ 40) ∧ teamBindings memS v = [] ∧ v.objectScope 0 = none) ∧
    (let v := vw boundS
     BindingFits boundS v 0 0x1000 256 ∧ (0, 0x1000, 256) ∈ teamBindings boundS v ∧ (∀ n, v.objectScope 0 = some n → n ≠ 0 ∧ n ≠ 7) ∧
     BindingFits boundS v 8 0x1100 256 ∧ (8, 0x1100, 256) ∉ teamBindings boundS v) ∧
    ((vw scopedS).objectScope 0x100 = some 6 ∧ BindingFits scopedS (vw scopedS) 0x100 0x1000 256 ∧ teamBindings scopedS (vw scopedS) = []) ∧
    (let v := vw memS
     let f := { mF 0 0x20 16 with idxen := true, width := 0 }
     let g := { f with index := 0x22 }
     mBad (specSync .none (.scalar true) 0) f v = none ∧ (v.scalar f.index.toNat).toNat % 256 = 0 ∧
     mBad (specSync .none (.scalar true) 0) g v = none ∧ (v.scalar g.index.toNat).toNat % 256 ≠ 0 ∧ ObjectOk (syncObject v g) ∧
     mBad (specSync .none .none 1) { mF 0 0x20 0 with func := 1, width := 0 } v = none ∧ v.x.split < 4) ∧
    (let v := vw taggedS
     let f := { mF 0 0x20 16 with idxen := true, width := 0 }
     (v.scalar f.index.toNat).toNat < 2 ^ 16 ∧ (∀ n, n < 16 → (v.g.tag n).failed = none) ∧ (v.g.tag 0).count ≠ 0 ∧
     mBad (specSync .none (.scalar false) 0) f v = none ∧
     mBad { data := .none, wlo := 0, whi := 0, index := .scalar false, ords := [1, 2, 3], fmax := 0, base := false }
       { mF 0 0 16 with idxen := true, ord := 3, width := 0 } v = none ∧
     ∀ n, n < 16 → ((vw memS).g.tag n).count = 0 ∧ ((vw memS).g.tag n).failed = none) := by
  unfold ObjectOk BindingFits; repeat' apply And.intro
  all_goals decide +kernel

end Sys2Proof.Tests
end

