-- ==== Sys2Proof/Tests/Traps.lean ====
section
/-! SUPPORT. States that meet the hypotheses of the statements about traps, the team handler and results on their way. -/

set_option Elab.async false

namespace Sys2Proof.Tests

open Sys2Proof Sys2Proof.Machine Sys2Proof.Claims

/-! ### Traps and the handler -/

def event0 : TrapEv :=
  { slot := 0, split := 0, code := 2, origin := 0, pc := 16, mask := LaneMask.all, info0 := 1, info1 := 2, info2 := 3, info3 := 4, cycle := 90 }
/-- The group whose split 0 is in a state. -/
def inState (st : SplitState) : Group := { group0 with splits := [{ split0 with state := st, waitarg := 2 }, freeSplit, freeSplit, freeSplit] }

/-- A split that runs, one that is trapped already; an unlisted opcode; a refused entry; a fetch that met a fault. -/
theorem wit_TrapsTaken :
    (Issuing (vw s0) ∧ (vw s0).p.halt = 0 ∧ ((vw s0).g.split 0).state ≠ .trapped) ∧
    (let v := vw (atRecord0 (inState .trapped) part0 ctx0)
     Issuing v ∧ (v.g.split 0).state = .trapped) ∧
    AtIssue s0 (vw s0) .x (readHdr 0x1F) LaneMask.all ∧
    (atRecord0 group0 part0 { ctx0 with reason := 4 }).core.ctx.reason ≠ 0 ∧
    (atRecord0 group0 part0 { ctx0 with fetch := (trapExecFault, 1, 2) }).core.ctx.fetch.1 ≠ 0 := by
  unfold Issuing
  refine ⟨by decide +kernel, ?_, ⟨rfl, by decide +kernel, by decide⟩, by decide, by decide⟩
  dsimp only; decide +kernel

/-- The handler's run has ended with an action over a trapped split, within the lanes of `m`. -/
def endS (action pc : Nat) (m : LaneMask) : State :=
  let r := { run0 with done := true, action := action, pc := BitVec.ofNat 64 pc, mask := m }
  launched (holding codeCells (mapped (atRecord0 (inState .trapped) { codePart with handler := some r } ctx0)))
def endPart (action pc : Nat) (m : LaneMask) : Part :=
  { codePart with handler := some { run0 with done := true, action := action, pc := BitVec.ofNat 64 pc, mask := m } }
theorem ends (a pc : Nat) (m : LaneMask) (h : a ≤ 5) : RunEnds (endS a pc m) a (endPart a pc m)
    { run0 with done := true, action := a, pc := BitVec.ofNat 64 pc, mask := m } (inState .trapped) := by
  have : a = 0 ∨ a = 1 ∨ a = 2 ∨ a = 3 ∨ a = 4 ∨ a = 5 := by omega
  obtain rfl | rfl | rfl | rfl | rfl | rfl := this <;>
    exact { due := rfl, part := rfl, group := ⟨rfl, rfl, rfl⟩, split := (by decide : 0 < 4), still := Or.inr rfl, held := rfl, run := rfl,
             code := (by decide : 2 ≠ trapDebugStop) }

/-- Every action; a landing and none; some lanes left; a launch that has not ended. -/
theorem wit_HandlerActions :
    RunEnds (endS 0 16 1) 0 (endPart 0 16 1) { run0 with done := true, action := 0, pc := BitVec.ofNat 64 16, mask := 1 } (inState .trapped) ∧
    (endS 2 20 1).landing (endPart 2 20 1) 20 = true ∧ (endS 2 21 1).landing (endPart 2 21 1) 21 = false ∧
    ((inState .trapped).split 0).mask &&& ~~~(1 : LaneMask) ≠ 0 ∧
    ((endS 5 16 1).lch.launch? 1 = some launch0 ∧ launch0.status = none) := by
  refine ⟨ends 0 16 1 (by decide), ?_⟩; decide +kernel

/-- An event waits with a handler and without; the handler itself has trapped; a stop of a group, with and without a debugger. -/
def waitS (off : Nat) : State := launched (atRecord0 (inState .trapped) { part0 with events := [event0], handlerOff := off } ctx0)
def brokenPart : Part := { part0 with events := [{ event0 with split := 4 }], handler := some run0 }
def stopPart (flags : Nat) : Part := { part0 with stop := [event0], flags := flags }
def stopS (flags : Nat) : State := atRecord0 group0 (stopPart flags) ctx0
theorem wit_HandlerStarts :
    (let p := { part0 with events := [event0], handlerOff := 20 }
     (waitS 20).handlerDue = some (p, event0) ∧ p.eventFor 0 0 [] = some event0 ∧ HasPart (waitS 20) p ∧ HasGroup (waitS 20) p 0 (inState .trapped)) ∧
    (let p := { part0 with events := [event0] }
     (waitS 0xFFFFFFFF).handlerDue = some (p, event0) ∧ (waitS 0xFFFFFFFF).lch.launch? 1 = some launch0) ∧
    ((launched (atRecord0 group0 brokenPart ctx0)).handlerDue = some (brokenPart, { event0 with split := 4 })) ∧
    ((stopS 0).stopDue = some (stopPart 0, event0) ∧ (stopS 8).stopDue = some (stopPart 8, event0) ∧ HasPart (stopS 8) (stopPart 8) ∧
      HasGroup (stopS 8) (stopPart 8) 0 group0 ∧ event0.mask ≠ 0 ∧ bitNat (stopPart 8).flags 3 = true ∧ bitNat (stopPart 0).flags 3 = false) := by
  unfold HasPart HasGroup; decide +kernel

/-! ### Results on their way -/

def landing0 (w : RegWrite) : Landing :=
  { h := 0, slot := 0, split := 0, due := 100, seq := 7, sq := false, bus := some 0, lanes := 1, writes := [w], fflags := [1, 16], isat := 1 }
def landS (w : RegWrite) : State := { s0 with core := { s0.core with land := [landing0 w] } }
/-- A load of one lane to v3, from a word of memory. -/
def access0 (kind : AccKind) : Access :=
  { id := 5, kind := kind, h := 0, slot := 0, split := 0, off := 16, seq := 7, cycle := 90, sq := false, mask := 1, ord := 0, scope := 0, func := 0,
    width := 2, sx := false, todo := 1, faulted := 0, replay := [], addrs := 0x100 :: List.replicate 127 0, vals := List.replicate 128 0x12345678,
    got := [], dst := if kind = .ldG ∨ kind = .ldMd then [.v 3] else [], done := 0, arg := 0, stage := 0, remote := 0, ready := 95, due := none,
    accepted := [2] }
def withAccess (a : Access) (s : State) : State := { s with core := { s.core with accs := [a] } }
def doneLoad : Access := { access0 .ldG with todo := 0, done := 1, got := 7 :: List.replicate 127 0, due := some 100 }

/-- A row that acc.mv has read, due in this cycle. -/
def movedS : State := { s0 with core := { s0.core with land := [{ landing0 (.lanes 3 1 Vec.zero) with late := true }] } }
/-- Each kind of register, k0 among them; a late result; a row of acc.mv. -/
theorem wit_ResultsLand :
    (∀ w ∈ [RegWrite.lanes 3 1 Vec.zero, .pred 0 1 1, .pred 15 1 1, .scalar (.s 15) 1, .scalar (.s 31) 1, .scalar (.a 15) 1],
      (landS w).landDue = some (landing0 w) ∧ Stands (landS w) 0 0 group0) ∧
    ((withAccess doneLoad s0).lateDue = some doneLoad ∧ doneLoad.kind ≠ .flueWait ∧ doneLoad.writes.length = 1) ∧
    (movedS.moveDue = some { landing0 (.lanes 3 1 Vec.zero) with late := true } ∧ Stands movedS 0 0 group0) := by
  unfold Stands; decide +kernel

/-- A store that can go on; a page the host has answered; an absent page; a meadow load; a push, a direct load and a tile that are done. -/
def replayed : Access := { access0 .stG with todo := 0, faulted := 1, replay := [0] }
def arrivedLoad : Access := { access0 .ldGs with due := some 100 }
def pushed : Access := { access0 .fence with stage := 1 }
theorem goes_again : LaneGoes (withAccess replayed (mapped s0)) group0 part0 replayed 0 true :=
  ⟨by decide, rfl, rfl, rfl, rfl, rfl, by decide, nofun, rfl, rfl, by decide, fun _ => ⟨by decide +kernel, rfl, by decide +kernel, by decide +kernel⟩⟩
theorem goes_first (k : AccKind) (hk : k = .ldG ∨ k = .stG) (s : State) (hs : s = s0 ∨ s = mapped s0) :
    LaneGoes (withAccess (access0 k) s) group0 part0 (access0 k) 0 false := by
  obtain rfl | rfl := hk <;> obtain rfl | rfl := hs <;>
    exact ⟨by decide, rfl, rfl, rfl, rfl, rfl, by decide, nofun, rfl, rfl, fun _ => ⟨by decide +kernel, by decide, rfl⟩, by decide⟩
/-- A meadow load of the word at an offset. -/
def meadowLoad (off : Nat) : Access := { access0 .ldMd with addrs := BitVec.ofNat 64 off :: List.replicate 127 0 }
/-- Whatever the calendar's offset, the bank of one of two words is outside its window. -/
theorem wit_meadow : ∃ off, (withAccess (meadowLoad off) s0).windowDue = some (meadowLoad off) ∧ (meadowLoad off).todo = BitVec.twoPow 128 0 ∧
    0 < (meadowLoad off).addrs.length ∧ (meadowLoad off).dst ≠ [] ∧ meadowBusy 0 100 ((meadowLoad off).addrs.getD 0 0).toNat = false ∧
    s0.lineState { tgt := 3, dev := 0, pa := dieOf 0 * 2 ^ 31 + ((meadowLoad off).addrs.getD 0 0).toNat } 7 0 = .good := by
  obtain h | h := meadow_open
  · exact ⟨0, by decide +kernel, by decide +kernel, by decide +kernel, by decide +kernel, h, by decide +kernel⟩
  · exact ⟨256, by decide +kernel, by decide +kernel, by decide +kernel, by decide +kernel, h, by decide +kernel⟩
theorem wit_AccessesGoOn :
    (∃ t l, (withAccess (access0 .stG) (mapped s0)).translate 0 0 0x100 .write = .ok t l (leaf0 0) ∧ l.tgt ≠ 3) ∧
    (∃ k l, (withAccess (access0 .ldG) s0).translate 0 0 0x100 .read = .fault k l) ∧
    (withAccess pushed s0).pushDue = some pushed ∧
    ((withAccess arrivedLoad s0).gsDue = some arrivedLoad ∧ (withAccess arrivedLoad s0).core.barHome part0 0 = 1 ∧ part0.bars[0]? = some bar0) ∧
    (let g := { group0 with shadowing := [(1, 100)] }
     (atRecord0 g part0 ctx0).shadowDue = some (g, (1, 100))) := by
  refine ⟨⟨_, _, rfl, by decide⟩, ⟨_, _, rfl⟩, ?_⟩; decide +kernel

/-! ### Decode tables, issue and embers -/

/-- Entry 3 of the partition is being refilled with index 1; the entries of the preload are read. -/
def refilling : Partition := { partition0 with entries := partition0.entries.set 3 { (partition0.entries.getD 3 { tag := none, busy := false, valid := false, pinned := false, ref := false, word := 0, data := { wset := 0, fver := 0, price := 0, rvec := 0, reason := 0, xfer := false, varlat := false, index := 0 } }) with tag := some 1, busy := true }, refills := [(3, 1, 100)] }
def preloading : Partition := { partition0 with preloaded := false, refills := [(0, 0, 100)] }
def withPartition (q : Partition) (rebuild : Nat) : State :=
  let s := holding codeCells (mapped (atRecord0 ctlG codePart ctx0))
  { s with core := s.core.modHearth 0 fun hr => { hr with partitions := [q], rebuild := rebuild } }
def hearthOf (s : State) : Hearth := s.core.hearths.headD (State.freshHearth 0)
/-- Splits 0 and 1 at one record of one region, with the even and the odd lanes. -/
def mergeG : Group :=
  { group0 with splits := [{ split0 with mask := evens, ids := [5] }, { split0 with mask := ~~~evens, ids := [5] }, freeSplit, freeSplit] }
/-- Split 0 waits for embers since cycle 40. -/
def emberG : Group := { group0 with splits := [{ split0 with state := .ember, waitstart := 40 }, freeSplit, freeSplit, freeSplit] }
/-- The dictionary entry and its metadata line arrive, whatever the filter's revision. -/
theorem entry_loads : (match (withPartition refilling 0).loadEntry 0 codePart 1 with | .got _ _ _ => true | _ => false) = true := by
  have key : ∃ s1 bs s2 mb, (withPartition refilling 0).fetchLine (stoveOf 0) codePart.world (stokerWaiter 0)
      (codePart.image.base + codePart.image.dictOff + 64 * 1) 64 .exec = .got s1 bs ∧ parityOk (BitVec.ofNat 512 (leNat bs)) = true ∧
      s1.fetchLine (stoveOf 0) codePart.world (stokerWaiter 0) (codePart.filt + 16 * 1) 16 .exec = .got s2 mb ∧
      ∀ x, ∃ s3, s2.storeLine (stoveOf 0) codePart.world (codePart.filt + 16 * 1) x = .ok s3 :=
    ⟨_, _, _, _, rfl, by decide +kernel, rfl, fun _ => ⟨_, rfl⟩⟩
  obtain ⟨s1, bs, s2, mb, h1, h2, h3, h4⟩ := key
  unfold State.loadEntry
  simp only [h1, h2, h3, Bool.not_true, Bool.false_eq_true, if_false]
  by_cases h : ((metaOf mb).fver = (s2.dieFor 0).fver && (metaOf mb).index = 1) = true
  · rw [if_pos h]
  · rw [if_neg h]
    obtain ⟨s3, h5⟩ := h4 (filterEntry (s2.dieFor 0).prices codePart.pats (s2.dieFor 0).fver 1 (BitVec.ofNat 512 (leNat bs))).bytes
    simp only [h5]
theorem wit_IssueMachinery :
    (let s := withPartition refilling 0
     s.refillDue = some (0, refilling, (3, 1, 100)) ∧ s.core.hearth? 0 = some (hearthOf s) ∧ refilling ∈ (hearthOf s).partitions ∧
     3 < refilling.entries.length ∧ s.core.partOf 0 1 = some codePart ∧ (match s.loadEntry 0 codePart 1 with | .got _ _ _ => true | _ => false) = true) ∧
    (let s := withPartition preloading 0
     s.preloadDue = some (0, preloading) ∧ pinnedCount preloading = 0 ∧ (match s.preloadFrom 0 codePart 0 0 with | .inr _ => true | _ => false) = true) ∧
    (let s := withPartition partition0 1
     s.rebuildDue = some 0 ∧ ∀ x ∈ (hearthOf s).partitions, ∀ e ∈ x.entries, e.pinned = false) ∧
    (let g := { group0 with splits := [{ split0 with seqRun := some { first := 20, last := 20, ii := 1, stages := 1, trip := 1, t := 0, vrotStart := 0, stop := none, body := [(20, 21)] } }, freeSplit, freeSplit, freeSplit] }
     let s := atRecord0 g part0 ctx0
     view s = some (vw s) ∧ s.core.hearth? 0 = some (hearthOf s) ∧ ∃ r, ((vw s).g.split 0).seqRun = some r ∧ ((vw s).g.split 0).replay = none ∧ 0 ≤ r.t / r.ii ∧ r.t / r.ii - 0 < r.trip ∧ r.body[0]? = some (20, 21)) ∧
    (let e := { split0 with replay := some (20, some 0) }
     e.replay = some (20, some 0) ∧ e.state = .ready) ∧
    (atRecord0 mergeG part0 ctx0).mergeDue = some (mergeG, 0, 1) ∧ ({ atRecord0 emberG part0 ctx0 with cycle := 166 } : State).claimDue = some (0, 0, 0) ∧
    (s0.pow.taken ≤ s0.cycle ∧ s0.core.hearths.length = 512 ∧ s0.pow.dies.length = 4 ∧ s0.core.hearth? 511 = some (State.freshHearth 511) ∧
      (∀ p ∈ s0.core.parts, p.h ≠ 511) ∧ ∃ p ∈ s0.core.parts, p.h = 0) := by
  refine ⟨⟨?_, ?_, ?_, ?_, ?_, entry_loads⟩, ?_, ?_, ⟨rfl, ?_, _, rfl, ?_⟩, ?_⟩
  all_goals (repeat' apply And.intro)
  all_goals decide +kernel

end Sys2Proof.Tests
end

