-- ==== Sys2Proof/Tests/Network.lean ====
section
/-! SUPPORT. States that meet the hypotheses of the statements about the Heath fabric. -/

set_option Elab.async false

namespace Sys2Proof.Tests

open Sys2Proof Sys2Proof.Machine Sys2Proof.Claims

/-- A flit of device 5 for world `w` of device 7. -/
def flit0 (type op w addr : Nat) (mask : LaneMask) (ext : List Byte) : Flit :=
  { type := BitVec.ofNat 8 type, vc := 0, src := 5, dst := 7, tag := 0xFFFF, world := w, op := BitVec.ofNat 8 op, addr := BitVec.ofNat 64 addr, mask := mask,
    data := List.replicate 128 0xAB, ext := ext }
/-- World 63 has keys here; lines of device memory hold bytes; some request is outstanding. -/
def meshS (l : List Remote) (s : State) : State :=
  { holding [(0x1000, 7), (0x1004, 9)] s with
    hst := { s.hst with owners := s.hst.owners.set 63 (some 0) }
    sec := { s.sec with keys := [(0, 0), (63, 1)] }
    fab := { s.fab with device := some 7, routes := List.replicate 192 0xFFF, remotes := l } }
/-- Reads of one sector and of four, one of a world without keys; writes with some bytes; each atomic kind; a monitor. -/
theorem wit_FabricRequests :
    (meshS [] s0).mem.wf = true ∧
    (∀ n ∈ [32, 128], CanServe (meshS [] s0) (flit0 1 (n / 32) 63 0x1000 0 []) n) ∧
    (meshS [] s0).serves (flit0 1 4 62 0x1000 0 []) 128 = false ∧
    ((flit0 2 0 63 0x1000 1 []).data.length = 128 ∧ (meshS [] s0).serves (flit0 2 0 63 0x1000 1 []) 128 = true) ∧
    (∀ op ∈ [0, 8, 16, 32, 34], ∃ kind fn, atomicOf op = some (kind, fn) ∧ kind ≠ .atomOfa ∧ kind ≠ .atomOclose) ∧
    (LaneMask.count (0xF : LaneMask) = 4 ∧ LaneMask.count (0xFF : LaneMask) = 8) ∧
    (∀ w ∈ [4, 8], (flit0 3 0 63 0x1000 0 []).addr.toNat % w = 0 ∧ CanServe (meshS [] s0) (flit0 3 0 63 0x1000 0 []) w) ∧
    (meshS [] s0).serves (flit0 9 0 63 0x1000 0 []) 1 = true := by
  unfold CanServe
  refine ⟨?_, ?_, ?_, ?_, ?_, ?_, ?_, ?_⟩
  case refine_5 =>
    simp only [List.forall_mem_cons]
    exact ⟨⟨_, _, rfl, by decide, by decide⟩, ⟨_, _, rfl, by decide, by decide⟩, ⟨_, _, rfl, by decide, by decide⟩, ⟨_, _, rfl, by decide, by decide⟩,
      ⟨_, _, rfl, by decide, by decide⟩, by simp⟩
  all_goals decide +kernel

/-- The request that the answers below belong to. -/
def asked0 (type : Nat) (lanes : LaneMask) : Remote :=
  { tag := 0xFFFF, dst := 5, port := 0, addr := 0x1000, acc := 5, lanes := lanes, write := type == 2, type := type, issued := 0, drain := none }
def answer0 (type : Nat) (ext : List Byte) : Flit := flit0 type 0 63 0x1000 0 ext
def remoteAccess : Access := { access0 .atom with dst := [.v 3], remote := 1 }
def farG : Group :=
  { group0 with splits := [{ split0 with state := .longwait, monitor := some ((({ tgt := 2, dev := 5, pa := 0x1000 } : Loc).key), none) }, freeSplit, freeSplit, freeSplit] }
def collect0 (p : Byte) : Collect :=
  { key := 0, inst := 0, eng := none, left := none, sent := 0, bad := false, params := List.replicate 32 p, parts := [] }
/-- With collectives open and over. -/
def collS (l : List Collect) (d : List (Nat × Nat)) : State :=
  let s := meshS [] s0
  { s with fab := { s.fab with collects := l, collDone := d } }
def collFlit (op : Nat) : Flit := flit0 9 op 63 0 15 (List.replicate 80 0)
/-- A release that waits for the device's writes to land. -/
def waitingRel : Access := { access0 .fence with stage := 1, scope := 5 }
theorem wit_FabricAnswers :
    (∀ t ∈ [1, 2, 3, 10], (meshS [asked0 t 1] s0).fab.asked (answer0 t []) t = some (asked0 t 1)) ∧
    (let s := meshS [asked0 3 1] (withAccess remoteAccess s0)
     s.core.accs.find? (fun a => a.id == 5) = some remoteAccess ∧ (asked0 3 1).lanes.lowest = some 0 ∧ remoteAccess.dst ≠ []) ∧
    (∀ t ∈ [1, 2], (meshS [asked0 t 1] s0).fab.remotes.find? (fun q => q.tag == (answer0 7 []).tag.toNat && q.dst == (answer0 7 []).src) = some (asked0 t 1)) ∧
    ((meshS [asked0 2 1] s0).awaiting (asked0 2 1) = [] ∧
      (meshS [{ asked0 2 1 with agent := 1 }] (withAccess waitingRel s0)).awaiting { asked0 2 1 with agent := 1 } = [waitingRel]) ∧
    (let s := meshS [asked0 10 0] (atRecord0 farG part0 ctx0)
     Stands s 0 0 farG ∧ farG ∈ s.core.groups ∧ farG.splits.length = 4 ∧ (farG.split 0).state = .longwait ∧
     (farG.split 0).monitor.map (fun v => v.1) = some (({ tgt := 2, dev := 5, pa := 0x1000 } : Loc).key)) ∧
    (leAt (collFlit 0).ext 42 4 < (collS [] [(0, 1)]).fab.collCount (leAt (collFlit 0).ext 0 8) ∧
      (collS [] []).fab.collCount (leAt (collFlit 0).ext 0 8) ≤ leAt (collFlit 0).ext 42 4 ∧ instanceOf (collS [] []) (collFlit 0) = none ∧ (collFlit 0).op ≠ 1) ∧
    (∀ p ∈ [(0 : Byte), 1], instanceOf (collS [collect0 p] []) (collFlit 0) = some (collect0 p) ∧
      (((collect0 p).params = ((collFlit 0).ext.drop 10).take 32) ↔ p = 0)) ∧
    (instanceOf (collS [collect0 0] []) (collFlit 1) = some (collect0 0) ∧ (collFlit 1).op = 1) := by
  unfold Stands; decide +kernel

/-- Links: an update seen and not; ports dead and told; drains in each round; a request 1 ms old; three failures. -/
def portOf (p : Port) : State :=
  let s := meshS [] s0
  { s with fab := { s.fab with ports := s.fab.ports.set 11 p } }
def port0 : Port := { port := 11, lanes := 7, dead := true, told := false, retrains := 0, errors := 0 }
def drainS (k : Nat) : State :=
  let s := meshS [{ asked0 1 1 with drain := some 0 }] s0
  { s with cycle := 24000, fab := { s.fab with drains := [(0, k, 9)] } }
theorem wit_FabricLinks :
    WholeFlit (collFlit 0) ∧
    (let s := meshS [] s0
     let t : State := { s with fab := { s.fab with seen := [updateOf (flit0 8 0 0 0 0 [1, 2, 3])] } }
     updateOf (flit0 8 0 0 0 0 [1, 2, 3]) ∈ t.fab.seen ∧ updateOf (flit0 8 0 0 0 0 [1, 2, 4]) ∉ t.fab.seen) ∧
    ((portOf port0).fab.ports[11]? = some port0 ∧ (portOf { port0 with told := true }).fab.ports[11]? = some { port0 with told := true }) ∧
    (∀ k ∈ [0, 1, 2], (drainS k).drainDone = some (0, k, 9)) ∧
    (drainS 2).fab.remotes.filter (fun r => r.drain == some 0) = [{ asked0 1 1 with drain := some 0 }] ∧
    ({ meshS [asked0 1 1] s0 with cycle := 800000 } : State).remoteLate = some (asked0 1 1) ∧
    ((portOf { port0 with retrains := 2 }).fab.ports[11]? = some { port0 with retrains := 2 } ∧ s0.svc.repl.getLsbD 3 = false) := by
  unfold WholeFlit; decide +kernel

end Sys2Proof.Tests
end

