-- ==== Sys2Proof/Tests/Service.lean ====
section
/-! SUPPORT. States that meet the hypotheses of the statements about power, the rack, sweeps and updates. -/

set_option Elab.async false

namespace Sys2Proof.Tests

open Sys2Proof Sys2Proof.Machine Sys2Proof.Claims

/-! ### Power -/

/-- Die 3 as given, the function of its leases with its rings enabled. -/
def die0 : Die := State.freshDie 3
def dieS (d : Die) (cycle : Nat) : State :=
  let s := s0.modFunc 16 fun g => { g with aqCtl := 0x100, acqBase := 0x4000 }
  { s with pow := { s.pow with dies := s.pow.dies.set 3 d }, cycle := cycle }
def lease0 (stop : Nat) : Lease := { func := 16, start := 129, begun := true, stop := stop, revoked := false }
/-- Dies: cut at 0, with so many cuts before, held until 8000, leased to 258, hot and warm. -/
def cutDie : Die := { die0 with cut := some 0 }
def thirdDie (n : Nat) : Die := { die0 with cuts := List.replicate n 0 }
def heldDie : Die := { die0 with holdEnd := some 8000, current := 1 }
def leasedDie : Die := { die0 with lease := some (lease0 258) }
def hotDie (n : Nat) : Die := { die0 with hot := true, thermal := n, stepAt := 8000 }

theorem wit_PowerRuns :
    ((dieS die0 258).boundaryDue = true ∧ (dieS die0 258).pow.restarting = false ∧ (dieS die0 258).pow.watchdog = none) ∧
    (∀ d ∈ [die0, cutDie, thirdDie 1, thirdDie 2, heldDie, leasedDie, hotDie 6], ∀ c ∈ [258, 8000], HasDie (dieS d c) d) ∧
    (cutDie.cut.isSome = true ∧ die0.cut = none ∧ ((thirdDie 2).cuts.filter fun c => decide (8000 < c + 800000000)).length = 2 ∧
      ((thirdDie 1).cuts.filter fun c => decide (8000 < c + 800000000)).length < 2) ∧
    ((dieS cutDie 8000).limiterDue = some cutDie ∧ (dieS cutDie 8000).pow.firmware = true) ∧
    (let s := dieS cutDie 80000
     let t : State := { s with pow := { s.pow with heartbeat := false } }
     t.limiterDue = some cutDie ∧ t.pow.firmware = false) ∧
    (dieS heldDie 8000).holdDue = some heldDie ∧
    (let s := dieS leasedDie 258
     s.leaseDue = some (leasedDie, lease0 258) ∧ (lease0 258).revoked = false ∧ (s.func 16).aqCtl.getLsbD 8 = true ∧ 16 < s.hst.funcs.length ∧
     s.mem.wf = true) ∧
    (dieS (hotDie 6) 8000).thermalDue = some (hotDie 6) ∧ die0.hot = false ∧ (dieS die0 258).pow.heartbeat = true := by
  unfold HasDie; decide +kernel

/-- The rack clock was set to 1000 ms at cycle 100; the last message had number 2^32 - 1. -/
def rackS (cycle : Nat) : State :=
  { s0 with cycle := cycle, pow := { s0.pow with lastSeq := some (-1), rackClock := some (1000, 100), rackCap := some (2100, 1001) } }
theorem wit_RackMessages :
    (Fresh (rackS 100) Config.capEndpoint 0 ∧ Fresh (rackS 100) Config.capEndpoint (2 ^ 31 - 2) ∧ ¬Fresh (rackS 100) Config.capEndpoint (-1) ∧
      ¬Fresh (rackS 100) Config.capEndpoint (2 ^ 31 - 1)) ∧
    ((rackS 800099).pow.rackTime 800099 = some 1000 ∧ (rackS 800100).pow.rackTime 800100 = some 1001 ∧ (rackS 100).pow.l0 = false) ∧
    ((rackS 800100).capLapsed = true ∧ (rackS 800099).capLapsed = false) := by
  unfold Fresh
  refine ⟨⟨⟨rfl, ?_⟩, ⟨rfl, ?_⟩, fun h => absurd h.2 ?_, fun h => absurd h.2 ?_⟩, ?_⟩
  all_goals decide +kernel

/-! ### Sweeps and updates -/

/-- A sweep of stove 31 at a phase that is over. -/
def sweepS (phase : Nat) (failed : BitVec 17) : State :=
  { s0 with svc := { s0.svc with sweepPhase := phase, sweepStove := 31, sweepDue := 100, sweepFailed := failed, withdrawn := [31] } }
theorem wit_SweepRuns :
    (s0.svc.sweepPhase = 0 ∧ (sweepS 1 0).svc.sweepPhase ≠ 0) ∧
    ({ s0 with cycle := 24 * 3600 * 800000000 } : State).autoSweep = some 1 ∧
    ((sweepS 1 0).sweepDrained = true ∧ (sweepS 2 0).sweepOver 2 = true ∧ (sweepS 3 0).sweepOver 3 = true ∧ (sweepS 4 0).sweepOver 4 = true ∧
      (sweepS 4 0).svc.sweepFailed = 0) ∧
    (∀ pos ∈ [0, 16], pos < 17 ∧ (sweepS 4 (BitVec.twoPow 17 pos)).svc.sweepFailed = BitVec.twoPow 17 pos ∧
      (31, pos) ∉ (sweepS 4 (BitVec.twoPow 17 pos)).svc.retired) := by
  decide +kernel

/-- Every hearth stands under its own number. -/
theorem hearths_stand : ∀ hr ∈ (sweepS 4 (BitVec.twoPow 17 16)).core.hearths, (sweepS 4 (BitVec.twoPow 17 16)).core.hearth? hr.h = some hr := by
  decide +kernel

/-- The header of an image of a part up to FLAGS: version 7, SVN 3, one byte of payload, and FLAGS bit 0. -/
def header1 (part len : Byte) : List Byte :=
  [0x42, 0x55, 0x50, 0x44, part, 0, 0, 0, 7, 0, 0, 0, 3, 0, 0, 0, len, 0, 0, 0, 1, 0, 0, 0]
/-- SHA3-512 of the first 64 bytes of the header of part 5 and of its payload, the byte 9, as a tool other than this model gives it. -/
def digest5 : List Byte :=
  [0x07, 0x6b, 0xa8, 0xcb, 0xb9, 0xac, 0x32, 0x25, 0x47, 0xf7, 0xd3, 0xb2, 0xba, 0x1f, 0x77, 0x69, 0x96, 0xd6, 0xb3, 0xa7, 0xbb, 0x24, 0x69, 0xb4, 0x81, 0xc0, 0x16, 0xf7, 0xd9, 0x66, 0xf7, 0xa4] ++
  [0xf6, 0x23, 0x08, 0x16, 0xb0, 0xf0, 0x10, 0xa1, 0x3e, 0xc4, 0x54, 0x20, 0xe3, 0x29, 0x51, 0x2d, 0x62, 0x35, 0x35, 0x4a, 0xb3, 0x05, 0xc3, 0x6f, 0x0e, 0x35, 0x1a, 0xca, 0x8e, 0x40, 0x29, 0xbe]
/-- The cells of bytes that are not zero. -/
def cellsOf (a : Nat) (bs : List Byte) : List Host.Cell := (bs.mapIdx fun i b => (a + i, b)).filter fun c => c.2 != 0
/-- Host memory at 0x10000 holds an image with this digest. -/
def updateS (part len : Byte) (digest : List Byte) : State :=
  { s0 with
    mem := { s0.mem with host := cellsOf 0x10000 (header1 part len ++ List.replicate 40 0 ++ digest) ++ [(0x11300, 9)] }
    svc := { s0.svc with updAddr := 0x10000 } }
def goodS : State := updateS 5 1 digest5
theorem good_image : GoodImage goodS goodS.updateImage where
  header := by decide +kernel
  digest := by decide +kernel
  number := by decide +kernel
  tables := by decide +kernel
/-- With a smallest SVN of 4, and with a rebuild under way on hearth 0. -/
def newerS : State := { goodS with svc := { goodS.svc with svns := goodS.svc.svns.set 4 4 } }
def rebuildS : State := { goodS with core := goodS.core.modHearth 0 fun hr => { hr with rebuild := 1 } }
theorem image_core (s : State) (c : Core) : ({ s with core := c } : State).updateImage = s.updateImage := rfl
/-- An image of a part that is staged. -/
def image1 (part : Byte) : UpdateImage := { header := header1 part 1 ++ List.replicate 40 0, body := [9] }
def stagedS (part : Byte) (dies : List Nat) (cycle : Nat) : State :=
  { s0 with cycle := cycle, svc := { s0.svc with updState := 2, update := some { image := image1 part, dies := dies } } }
theorem wit_UpdatesRun :
    (s0.svc.updState = 0 ∧ (stagedS 1 [] 0).svc.updState ≠ 0 ∧ (stagedS 1 [] 0).svc.updState ≠ 4 ∧ (stagedS 1 [] 0).svc.updState ≠ 5) ∧
    (GoodImage goodS goodS.updateImage ∧ goodS.svc.updState = 0) ∧
    (badHeader (updateS 8 1 []).updateImage = true ∧ badHeader (updateS 7 0 []).updateImage = true ∧ (updateS 8 1 []).svc.updState = 0) ∧
    (badHeader (updateS 7 1 []).updateImage = false ∧ (updateS 7 1 []).updateImage.digestOk = false) ∧
    (newerS.updateImage = goodS.updateImage ∧ goodS.updateImage.svn < newerS.svc.svns.getD (goodS.updateImage.part - 1) 0) ∧
    (rebuildS.updateImage = goodS.updateImage ∧ goodS.updateImage.part = 5 ∧ ∃ hr ∈ rebuildS.core.hearths, hr.rebuild ≠ 0) ∧
    ((stagedS 1 [] 258).updateDue = true ∧ (stagedS 5 [] 0).updateDue = true ∧ (stagedS 7 [] 0).updateDue = true ∧ (stagedS 3 [] 0).updateDue = true) ∧
    ((image1 1).part = 1 ∧ (image1 5).part = 5 ∧ (image1 7).part = 7 ∧ (image1 3).part = 3) ∧
    ((stagedS 3 [0, 1] 0).updateDue = true ∧ ((List.range 4).find? fun d => !([0, 1].contains d) && (stagedS 3 [0, 1] 0).noRefill d) = some 2) := by
  refine ⟨by decide +kernel, ⟨good_image, rfl⟩, by decide +kernel, by decide +kernel, ⟨rfl, by decide +kernel⟩, ⟨image_core _ _, by decide +kernel⟩, ?_⟩
  decide +kernel

end Sys2Proof.Tests
end

