-- ==== Sys2Proof/Tests/Work.lean ====
section
/-! SUPPORT. States that meet the hypotheses of the statements about the copy, collective and matrix engines at work. -/

set_option Elab.async false

namespace Sys2Proof.Tests

open Sys2Proof Sys2Proof.Machine Sys2Proof.Claims

/-! ### The A engines -/

/-- A queued op of group 0. -/
def eng0 (kind : EngKind) (func : BitVec 4) (o0 o1 o2 : Nat) : EngOp :=
  { id := 5, kind := kind, h := 0, slot := 0, split := 0, off := 16, seq := 7, cycle := 90, func := func.toNat, o0 := BitVec.ofNat 64 o0,
    o1 := BitVec.ofNat 64 o1, o2 := BitVec.ofNat 64 o2, otag := 15, ctags := [], waits := [], ranges := [], started := false, done := 0,
    due := 0, wait := 0, failed := none }
def flueOf (size n : Nat) : Flue := { base := 0, size := size, p := n, c := 0, pq := n, cq := n, bad := [] }
/-- Two flues hold bytes; tag 15 counts the op. -/
def engGroup : Group :=
  { group0 with tags := List.replicate 15 { count := 0, failed := none } ++ [{ count := 1, failed := none }]
                flues := some (flueOf 256 16) :: List.replicate 6 none ++ [some (flueOf 4096 16)] }
def engPart : Part := { part0 with image := bigImage }
def engOpS (e : EngOp) : State :=
  let s := atRecord0 engGroup engPart ctx0
  { s with core := { s.core with engs := [e] } }
def startedOp (e : EngOp) : EngOp := { e with started := true, due := 100 }

/-- Advances and a drop that start; a failed op, an advance and meadow copies of one byte and of 128 that are done. -/
theorem wit_EngineOpsRun :
    (let s := engOpS (eng0 .qAdvp 0 16 0 0)
     Stands s 0 0 engGroup ∧ HasPart s engPart ∧ engGroup.part = engPart.id ∧ 15 < engGroup.tags.length) ∧
    (∀ e ∈ [eng0 .qAdvp 0 16 0 0, eng0 .qAdvc 0 16 0 0, eng0 .sqDrp 0 16 0 0, eng0 .cpMs 0 0 0 16], (engOpS e).engStart? = some e) ∧
    engGroup.flue? 0 = some (flueOf 256 16) ∧ engGroup.flue? 7 = some (flueOf 4096 16) ∧
    (let e := { startedOp (eng0 .cpGg 0 0 0 16) with failed := some (trapAccess, 7) }
     (engOpS e).engDue? = some e) ∧
    (∀ e ∈ [startedOp (eng0 .qAdvp 0 16 0 0), startedOp (eng0 .cpMs 0 0 127 1), startedOp (eng0 .cpMs 0 128 0 128), startedOp (eng0 .cpMs 0 0 256 128)],
      (engOpS e).engDue? = some e ∧ e.failed = none ∧ e.late = []) ∧ cellsWf engPart.scratch = true ∧
    ∃ off ∈ [0, 256], MeadowOpen (engOpS (startedOp (eng0 .cpMs 0 0 off 128))) (startedOp (eng0 .cpMs 0 0 off 128)) off := by
  unfold Stands HasPart MeadowOpen
  refine ⟨by decide +kernel, by decide +kernel, by decide +kernel, by decide +kernel, by decide +kernel, by decide +kernel, by decide +kernel, ?_⟩
  obtain h | h := meadow_open
  · exact ⟨0, by decide, h, by decide +kernel⟩
  · exact ⟨256, by decide, h, by decide +kernel⟩

/-! ### The matrix engine -/

/-- A queued T op of a group of a hearth. -/
def mat0 (kind : MatKind) (left : Nat) : MatOp :=
  { id := 5, kind := kind, h := 0, slot := 0, split := 0, off := 16, seq := 7, cycle := 90, mask := LaneMask.all, sat := false, rate := 0, qg := 0,
    spn := 0, rep := 0, acc := 1, a := .desc 0 64 0 0, b := .desc 4096 64 0 0, ea := entryOf 1 1 16, eb := entryOf 1 1 16, arg := 0, arg2 := 0, dst := [],
    steps := 32, left := left, price := 18, ready := 100, scales := 0, spos := 0, inst := 0, running := left != 32, failed := none }
def matOpS (m : MatOp) (phase : Nat) : State :=
  let s := atRecord0 engGroup engPart ctx0
  { s with core := { s.core.modHearth 0 fun h => { h with pool := 18 } with mats := [m] }, phase := phase }

/-- Hearth i of a stove team, with an op of rate `r i`. -/
def stovePart (i : Nat) : Part := { engPart with id := i + 1, p := i, h := i, image := { bigImage with stove := true } }
def stoveOp (r : Nat → Nat) (i : Nat) : Nat × MatOp := (i, { mat0 .mmaSt 32 with id := i, h := i, rate := r i })
def instanceS (r : Nat → Nat) : State :=
  { State.reset with cycle := 100
                     core := { State.reset.core with groups := (List.range 16).map fun i => { engGroup with h := i, part := i + 1 }
                                                     parts := (List.range 16).map stovePart, mats := (List.range 16).map fun i => (stoveOp r i).2 } }

/-- The metadata of a sparse row: positions 0 and 1 of each group. -/
def sparseCells : List Host.Cell := [(8256, 0x10), (8257, 0x10)]
/-- A first and a further step; each end; an instance that agrees and one that does not. -/
theorem wit_MatrixOpsRun :
    (∀ n ∈ [32, 31, 1], (matOpS (mat0 .mma n) 0).matStep? = some (mat0 .mma n)) ∧
    (matOpS (mat0 .mma 32) 0).core.hearth? 0 = some { State.freshHearth 0 with pool := 18 } ∧
    (let s := matOpS (mat0 .accZ 0) 2
     Stands s 0 0 engGroup ∧ HasPart s engPart) ∧
    (∀ k ∈ [MatKind.accZ, .accLd, .accAdd, .mma, .mmaQ, .mmaSp], (matOpS (mat0 k 0) 2).matEnd? = some (mat0 k 0) ∧ (mat0 k 0).failed = none) ∧
    (∀ k, k = .mma ∨ k = .mmaQ →
      let d := (mat0 k 0).single engGroup engPart (engGroup.tileAt 1) ((matOpS (mat0 k 0) 2).matIndex (mat0 k 0))
      d.fail = none ∧ ∃ t, d.tile = some t) ∧
    (let m := { mat0 .mmaSp 0 with spn := 1, a := .desc 8192 64 0 0 }
     let p := { engPart with scratch := sparseCells }
     let d := m.single engGroup p (engGroup.tileAt 1) ((matOpS m 2).matIndex m)
     (matOpS m 2).matEnd? = some m ∧ d.fail = none ∧ ∃ t, d.tile = some t) ∧
    ((instanceS fun _ => 0).stStart? = some ((List.range 16).map (stoveOp fun _ => 0)) ∧ stAgree ((List.range 16).map (stoveOp fun _ => 0)) = true) ∧
    ((instanceS fun i => i % 2).stStart? = some ((List.range 16).map (stoveOp fun i => i % 2)) ∧
      stAgree ((List.range 16).map (stoveOp fun i => i % 2)) = false) := by
  unfold Stands HasPart
  refine ⟨by decide +kernel, by decide +kernel, by decide +kernel, by decide +kernel, ?_, ⟨by decide +kernel, by decide +kernel, _, rfl⟩, by decide +kernel, by decide +kernel⟩
  rintro k (rfl | rfl) <;> exact ⟨by decide +kernel, _, rfl⟩

end Sys2Proof.Tests
end

