-- ==== Sys2Proof/Tests/Slice0.lean ====
section
/-! SUPPORT. Tests of the whole: ill-formed terms, words read bit by bit, single steps, and states that meet the hypotheses
of the statements about the part as a whole. -/

set_option Elab.async false

namespace Sys2Proof.Tests

open Sys2Proof Sys2Proof.Machine Sys2Proof.Claims

/-! ### Ill-formed terms -/

/-- Each form of a call or break stands only with its own TSEL. -/
theorem test_wf_targets :
    (Instr.call (cF 1 0 0 0 0)).wf = false ∧ (Instr.callScalar (cF 0 0 0 0 0)).wf = false ∧ (Instr.brk (cF 1 0 0 0 0)).wf = false ∧
    (Instr.brkScalar (cF 2 0 0 0 0)).wf = false := by decide

/-- The opcode 0, a listed opcode, a word longer than its slot. -/
theorem test_wf_reserved :
    (Instr.reservedOpcode .s 0x100).wf = false ∧ (Instr.reservedOpcode .x 0x0E).wf = false ∧
    (Instr.reservedOpcode .x (0x10000000F)).wf = false ∧ (Instr.reservedOpcode .x 0x0F).wf = true := by decide

/-- Numbers beyond the part's units. -/
theorem test_wf_units :
    (Instr.computeError 512 0 0 true).wf = false ∧ (Instr.computeError 0 16 0 true).wf = false ∧ (Instr.rerunCompare 512 0 ⟨(0, 0), (0, 0)⟩).wf = false ∧
    (Instr.rerunCompare 0 16 ⟨(0, 0), (0, 0)⟩).wf = false ∧ (Instr.rowSpareSwitch 4 0 0 0).wf = false ∧ (Instr.rowSpareSwitch 0 8 0 0).wf = false ∧
    (Instr.rowSpareSwitch 0 0 8 0).wf = false ∧ (Instr.droopCut 4).wf = false ∧ (Instr.leaseRevoke 4).wf = false ∧
    (Instr.sweepStart 32).wf = false ∧ (Instr.thermalThreshold 4 0).wf = false ∧ (Instr.temperatureFall 4 0).wf = false ∧
    (Instr.linkDead 12).wf = false ∧ (Instr.laneSpareRetrain 12 0).wf = false ∧ (Instr.laneSpareRetrain 0 8).wf = false ∧
    (Instr.portRetrain 12 true).wf = false := by decide

/-- Functions, queues, channels and register offsets out of range. -/
theorem test_wf_host :
    (Instr.fqAnswer 32 0).wf = false ∧ (Instr.launchDoorbell 32 0 0).wf = false ∧ (Instr.launchDoorbell 0 64 0).wf = false ∧
    (Instr.channelDoorbell 32 0 0).wf = false ∧ (Instr.channelDoorbell 0 64 0).wf = false ∧ (Instr.channelCopyComplete 0 64 none).wf = false ∧
    (Instr.channelCopyComplete 32 0 none).wf = false ∧ (Instr.functionLevelReset 32).wf = false ∧ (Instr.registerWrite 0 4 false 0).wf = false ∧
    (Instr.registerWrite 0 4 true (2 ^ 32)).wf = false ∧ (Instr.registerWrite 32 0 true 0).wf = false ∧
    (Instr.registerWrite 0 1048576 true 0).wf = false := by decide

/-- A window access below the window or of no byte; a reset report without its five blocks. -/
theorem test_wf_more :
    (Instr.bar2WindowAccess 0 false 1048575 4 0).wf = false ∧ (Instr.bar2WindowAccess 0 false 1048576 0 0).wf = false ∧
    (Instr.bar2WindowAccess 0 false 1048576 9 0).wf = false ∧ (Instr.moduleReset { State.goodBoot with copies := [2] }).wf = false ∧
    (Instr.moduleReset { State.goodBoot with copies := [3, 2, 2, 2, 2] }).wf = false := by decide

/-- Flits under another type's step, and beyond the devices of the fabric. -/
theorem test_wf_flits :
    let f : Flit := { type := 2, vc := 0, src := 0, dst := 1, tag := 0, world := 0, op := 0, addr := 0, mask := 0,
                      data := List.replicate 128 0, ext := List.replicate 80 0 }
    (Instr.flitWrite f).wf = true ∧ (Instr.flitRead f).wf = false ∧ (Instr.flitAtomic f).wf = false ∧ (Instr.flitReadResponse f).wf = false ∧
    (Instr.flitWriteAck f).wf = false ∧ (Instr.flitAtomicResponse f).wf = false ∧ (Instr.flitAbortResponse f).wf = false ∧
    (Instr.flitLinkState f).wf = false ∧ (Instr.flitCollectiveData f).wf = false ∧ (Instr.flitMonitorArm f).wf = false ∧
    (Instr.flitMonitorWake f).wf = false ∧ (Instr.flitReservedType f).wf = false ∧ (Instr.flitWrite { f with src := 192 }).wf = false ∧
    (Instr.flitWrite { f with dst := 192 }).wf = false ∧ (Instr.flitWrite { f with world := 64 }).wf = false ∧
    (Instr.flitWrite { f with data := [] }).wf = false ∧ (Instr.flitWrite { f with ext := [] }).wf = false := by decide +kernel

/-- A site beyond the dies, the stoves and the hearths of a stove. -/
theorem test_wf_sites :
    (∀ e : ErrSite, e.die = 5 → e.wf = false) ∧ (∀ e : ErrSite, e.stove = 8 → e.wf = false) ∧ ∀ e : ErrSite, e.pos = 17 → e.wf = false := by
  refine ⟨fun e h => ?_, fun e h => ?_, fun e h => ?_⟩ <;> simp [ErrSite.wf, h]

/-! ### Words of the spec's maps (R10, R88 to R91) -/

/-- S sub s9 from s16 and s17, 64 bits; the last opcode of a slot and the one after it. -/
theorem test_decode_words :
    decode .s (0x0000#16 ++ 0x00#8 ++ 0b00#2 ++ 0b00#2 ++ 0b0000#4 ++ 0b010001#6 ++ 0b010000#6 ++ 0b001001#6 ++ 0b0#1 ++ 0b0000#4 ++ 0b0#1 ++ 0x02#8) =
      some (.sub (sF 9 16 17)) ∧
    (decode .c 0x0B).isSome = true ∧ (decode .a 0x14).isSome = true ∧ decode .a 0x15 = some (.reservedOpcode .a 0x15) ∧
    decode .v0 0x38 = some (.reservedOpcode .v0 0x38) ∧ decode .t 0x05 = some (.reservedOpcode .t 0x05) := by decide +kernel

/-! ### Single steps -/

/-- 2^63 - 1 plus 1 wraps, and lands at the end of the cycle (R20, R125). -/
theorem test_add_wraps :
    (match exec (.add (sF 1 16 17)) (atRecord0 (withScalars [0x7FFFFFFFFFFFFFFF, 1] []) part0 ctx0) with
      | .next t => t.core.land.map (fun l => (l.due, l.writes))
      | _ => []) = [(100, [.scalar (.s 1) 0x8000000000000000])] := by decide +kernel

/-- The opcode 0x28 of the S slot traps with the op's lanes and no effect (R91). -/
theorem test_unlisted_traps :
    (match exec (.reservedOpcode .s 0x28) s0 with
      | .next t => (t.core.land.length, t.core.parts.map fun p => p.events.map fun e => (e.code, e.origin, e.pc))
      | _ => (9, [])) = (0, [[(trapReservedField, 0, 16)]]) := by decide +kernel

/-! ### The part as a whole -/

/-- A word of an op of its own, and one whose C op joins an S op. -/
def word0 : BitVec 512 := placeSlot .s (writeS 1 (sF 1 16 17))
def meta0 : Meta := { wset := 0, fver := 0, price := 0, rvec := 0, reason := 0, xfer := false, varlat := false, index := 0 }
def rec0 : BundleRec := { issued := { off := 16, idx := 3, lits := [], nxt := 18, iter := none, rho := 0, fetch := (0, 0, 0) }, word := word0, data := meta0 }
def bundle0 : Bundle := { h := 0, slot := 0, split := 0, mask := LaneMask.all, rmask := LaneMask.all, age := 0, rank := 0, recs := [rec0] }

/-- Steps that are due; a record with an op; an op with no literal route. -/
theorem wit_StepRunsDecoded :
    (s0.pow.powered = true) ∧ ((rec0.ops (vw s0)).map (fun o => (o.sl, o.op)) = [(.s, .add (sF 1 16 17))]) ∧ view s0 = some (vw s0) ∧
    (∀ o ∈ rec0.ops (vw s0), routeBad ((vw s0).route o.sl) (vw s0).x.lits.length = false) ∧
    (match exec (.add (sF 1 16 17)) s0 with | .next _ => true | _ => false) = true := by
  refine ⟨by decide +kernel, by decide +kernel, rfl, ?_, by decide +kernel⟩
  decide +kernel

/-- A well-formed op and its word, and a word of its slot's width. -/
theorem wit_DecodeOfEncode :
    (Instr.add (sF 1 16 17)).wf = true ∧ encode (.add (sF 1 16 17)) = some (.s, writeS 1 (sF 1 16 17)) ∧
    (writeS 1 (sF 1 16 17)).toNat < 2 ^ Slot.width .s ∧ decode .s (writeS 1 (sF 1 16 17)) = some (.add (sF 1 16 17)) := by
  decide +kernel

/-- A state whose memories are canonical and not empty, and its next step. -/
theorem wit_MemoryStaysCanonical :
    (holding [(4, 1), (9, 2)] s0).mem.wf = true ∧ (match step (holding [(4, 1), (9, 2)] s0) with | .next _ => true | _ => false) = true := by
  decide +kernel

/-- A team whose scratchpad holds bytes, and its next step. -/
theorem wit_ScratchpadsStayCanonical :
    let s := atRecord0 group0 { part0 with scratch := [(4, 1), (9, 2)] } ctx0
    PadsCanonical s ∧ (match step s with | .next _ => true | _ => false) = true := by
  refine ⟨⟨?_, nofun⟩, by decide +kernel⟩
  intro p hp
  rw [List.mem_singleton.mp hp]; rfl

/-- A slot op with lanes, and one whose guard leaves none. -/
theorem wit_SlotOpsLeave :
    encode (.add (sF 1 16 17)) = some (.s, writeS 1 (sF 1 16 17)) ∧
    (let i := Instr.add { sF 1 16 17 with hdr := { hdr0 with gpred := 1 } }
     ∃ w, encode i = some (.s, w) ∧ view s0 = some (vw s0) ∧ (vw s0).lanesOf .s (readHdr w) = 0) := by
  refine ⟨rfl, _, rfl, rfl, ?_⟩; decide +kernel

end Sys2Proof.Tests
end

section
/-! SUPPORT. What a V op does at issue (R135 to R137): when its fields are legal, what it sends, and how it traps. Then the
conversions (R51 to R53), the dot products (R61) and the scale entries (R55), and the statements about number formats. -/

namespace Sys2Proof.Machine

open Sys2Proof.Claims

/-! ### Lanes -/

/-- Two lane masks are one when their conditions agree on every lane. -/
theorem LaneMask.build_congr {p q : Nat → Bool} (h : ∀ n < lanes, p n = q n) : LaneMask.build p = LaneMask.build q := by
  suffices ∀ k ≤ lanes, LaneMask.buildTo p k = LaneMask.buildTo q k from this lanes (Nat.le_refl _)
  intro k
  induction k with
  | zero => exact fun _ => rfl
  | succ k ih => intro hk; simp only [LaneMask.buildTo, ih (Nat.le_of_succ_le hk), h k hk]

@[simp] theorem LaneMask.mem_toList {m : LaneMask} {n : Nat} : n ∈ m.toList ↔ n < 128 ∧ m.has n = true := by
  simp [LaneMask.toList]

theorem lanesOut_getD (act : LaneMask) (out : Nat → LaneOut) {n : Nat} (h : n < lanes) :
    (lanesOut act out).getD n ([], 0, false) = if act.has n then out n else ([], 0, false) := by
  simp [lanesOut, List.getD_eq_getElem?_getD, List.getElem?_range h]

/-- Reading a component of every lane result: that of `out` in the active lanes, the empty result's in the others. -/
theorem lanesOut_map {α : Type} (act : LaneMask) (out : Nat → LaneOut) (g : LaneOut → α) :
    (lanesOut act out).map g = (List.range 128).map fun n => if act.has n then g (out n) else g ([], 0, false) := by
  simp only [lanesOut, List.map_map]
  exact List.map_congr_left fun n _ => apply_ite g _ _ _

/-- What `putV` sends is the vector result of R135. -/
theorem putV_eq_vSent {s : State} {v : View} (hv : view s = some v) (f : VFields) (act : LaneMask) (k : Nat)
    (out : Nat → LaneOut) : v.putV f act k out = .ok (vSent s v f act k out) := by
  have hsat : (LaneMask.build fun n => ((lanesOut act out).getD n ([], 0, false)).2.2)
      = LaneMask.build fun n => act.has n && (out n).2.2 :=
    LaneMask.build_congr fun n hn => by rw [lanesOut_getD act out hn]; cases act.has n <;> rfl
  simp only [View.putV, hsat, lanesOut_map, vSent, sent, View.sendTo, View.vwrite, View.cycle, view_st hv, view_x hv]
  rfl

/-! ### Legal fields (R18, R29, R136, R137) -/

@[simp] theorem vecBad_eq_false {v : View} {n k : Nat} : v.vecBad n k = false ↔ VecOk v n k := by
  simp [View.vecBad, VecOk]

/-- The field values of a V op that writes `dspan` registers from `srcs` sources, the first of `aspan` registers. -/
def vSpecOf (srcs dspan aspan : Nat) (rm sat fmt fmt2 func : Bool) : VSpec :=
  { vd := .vec dspan, va := if srcs = 0 then .unused else .vec aspan, vb := if 2 ≤ srcs then .operand else .unused
    vc := decide (srcs = 3), fmt := fmt, fmt2 := fmt2, rm := rm, sat := sat, func := func }

/-- The checks of an operand second source all pass exactly when it is one of the forms of R136. -/
theorem vSecond_iff {v : View} {f : VFields} :
    VSecond v f ↔ ((f.bsel == 0 && v.vecBad f.vb.toNat 1) || (f.bsel == 1 && f.vb != 0) ||
        (f.bsel == 2 && decide (32 ≤ f.vb.toNat))) = false ∧
      (f.bsel == 3) = false ∧ (f.bsel == 1 && !v.route32 (vSlot f)) = false := by
  have hb : f.bsel = 0 ∨ f.bsel = 1 ∨ f.bsel = 2 ∨ f.bsel = 3 := by
    generalize f.bsel = b; revert b; decide
  rcases hb with h | h | h | h <;> simp [VSecond, h]

/-- The shared fields as one conjunction, in the order of their bits. -/
theorem vLegal_iff {v : View} {f : VFields} {srcs dspan aspan : Nat} {rm sat : Bool} :
    VLegal v f srcs rm sat dspan aspan ↔ VecOk v f.vd.toNat dspan ∧ (if srcs = 0 then f.va = 0 else VecOk v f.va.toNat aspan) ∧
      (if 2 ≤ srcs then VSecond v f else f.vb = 0 ∧ f.bsel = 0) ∧ (if srcs = 3 then VecOk v f.vc.toNat 1 else f.vc = 0) ∧
      (rm = false → f.rm = 0) ∧ (sat = false → f.sat = false) ∧ f.rsv = 0 :=
  ⟨fun ⟨vd, va, vb, vc, rm, sat, rsv⟩ => ⟨vd, va, vb, vc, rm, sat, rsv⟩,
    fun ⟨vd, va, vb, vc, rm, sat, rsv⟩ => ⟨vd, va, vb, vc, rm, sat, rsv⟩⟩

/-- The checks of `vBad` in the order of their bits, regrouped by what they are about: the checks of the second source stand
together, and those of the formats and FUNC stand apart from the shared fields. -/
theorem checks_regroup {vd va vb vc fmt rm sat bsel route fmt2 func rsv : Prop} :
    (vd ∧ va ∧ vb ∧ vc ∧ fmt ∧ rm ∧ sat ∧ bsel ∧ route ∧ fmt2 ∧ func ∧ rsv) ↔
      (vd ∧ va ∧ (vb ∧ bsel ∧ route) ∧ vc ∧ rm ∧ sat ∧ rsv) ∧ fmt ∧ fmt2 ∧ func :=
  ⟨fun ⟨hvd, hva, hvb, hvc, hfmt, hrm, hsat, hbsel, hroute, hfmt2, hfunc, hrsv⟩ =>
      ⟨⟨hvd, hva, ⟨hvb, hbsel, hroute⟩, hvc, hrm, hsat, hrsv⟩, hfmt, hfmt2, hfunc⟩,
    fun ⟨⟨hvd, hva, ⟨hvb, hbsel, hroute⟩, hvc, hrm, hsat, hrsv⟩, hfmt, hfmt2, hfunc⟩ =>
      ⟨hvd, hva, hvb, hvc, hfmt, hrm, hsat, hbsel, hroute, hfmt2, hfunc, hrsv⟩⟩

/-- No field of a V op is reserved exactly when its shared fields are legal and its formats and FUNC are allowed. -/
theorem vBad_eq_none_iff {v : View} {f : VFields} {srcs dspan aspan : Nat} {rm sat fmt fmt2 func : Bool} :
    vBad v f (vSpecOf srcs dspan aspan rm sat fmt fmt2 func) = none ↔
      VLegal v f srcs rm sat dspan aspan ∧ fmt = true ∧ fmt2 = true ∧ func = true := by
  rw [vBad, firstBad_none, vLegal_iff]
  simp only [List.forall_mem_cons]
  refine checks_regroup.trans (and_congr (and_congr vecBad_eq_false (and_congr ?va (and_congr ?vb (and_congr ?vc
    (and_congr ?rm (and_congr ?sat ?rsv)))))) (and_congr ?fmt (and_congr ?fmt2 ?func)))
  case va => by_cases h : srcs = 0 <;> simp [vSpecOf, h]
  case vb => by_cases h : 2 ≤ srcs <;> simp [vSpecOf, h, vSecond_iff]
  case vc => by_cases h : srcs = 3 <;> simp [vSpecOf, h]
  case rm => simp [vSpecOf]
  case sat => simp [vSpecOf]
  case rsv => simp
  case fmt => simp [vSpecOf]
  case fmt2 => simp [vSpecOf]
  case func => simp [vSpecOf]

/-! ### What a V op does at issue (R135) -/

section AtIssue

variable {s : State} {v : View} {f : VFields} {act : LaneMask} {sp : VSpec} {eff : View → LaneMask → OpResult}

/-- A legal V op sends its result. -/
theorem vSlotOp_sends (hi : AtIssue s v (vSlot f) f.hdr act) (hb : vBad v f sp = none) {k : Nat} {out : Nat → LaneOut}
    (he : eff v act = v.putV f act k out) :
    coreOp s (fun s => slotOp s (vSlot f) f.hdr (fun v => vBad v f sp) eff) = carriesOn s (vSent s v f act k out) := by
  obtain ⟨hv, rfl, h0⟩ := hi
  exact congrArg (carriesOn s) (slotOp_ok hv h0 hb (he.trans (putV_eq_vSent hv f _ k out)))

/-- A V op with a reserved field traps. -/
theorem vSlotOp_reserved (hi : AtIssue s v (vSlot f) f.hdr act) (hb : vBad v f sp ≠ none) :
    ReservedTrap s v (vPlace f) act (coreOp s fun s => slotOp s (vSlot f) f.hdr (fun v => vBad v f sp) eff) := by
  obtain ⟨hv, rfl, h0⟩ := hi
  obtain ⟨bit, hbit⟩ := Option.ne_none_iff_exists'.mp hb
  have hplace : placeOf (vSlot f) = vPlace f := by cases h : f.unit1 <;> simp [vSlot, vPlace, placeOf, h]
  have horigin : (if vSlot f = .t then 1 else 0) = 0 := by cases h : f.unit1 <;> simp [vSlot, h]
  exact ⟨bit, congrArg (carriesOn s) ((slotOp_reserved hv h0 hbit).trans (by rw [hplace, horigin]))⟩

/-- A V op that the data of its lanes stop takes the trap of its own effect. -/
theorem vSlotOp_traps (hi : AtIssue s v (vSlot f) f.hdr act) (hb : vBad v f sp = none) {t : TrapInfo}
    (he : eff v act = .trap t 0) :
    coreOp s (fun s => slotOp s (vSlot f) f.hdr (fun v => vBad v f sp) eff) = carriesOn s (takeTrap s t 0) := by
  obtain ⟨hv, rfl, h0⟩ := hi
  exact congrArg (carriesOn s) (slotOp_trap hv h0 hb he)

end AtIssue

/-- A V op whose meaning is `vOp` on the fields of `vSpecOf` computes `out` in its legal forms and traps in the others. -/
theorem vComputes_of_vOp {mk : VFields → Instr} {srcs : Nat} {rm sat : Bool} {ok : VFields → Prop}
    {out : View → VFields → Nat → W32 → W32 → W32 → W32 → LaneOut} (fmt fmt2 func : VFields → Bool)
    (hexec : ∀ f s, exec (mk f) s = coreOp s fun s => vOp s f (vSpecOf srcs 1 1 rm sat (fmt f) (fmt2 f) (func f))
      fun v n a b c d => out v f n a b c d)
    (hok : ∀ f, ok f ↔ fmt f = true ∧ fmt2 f = true ∧ func f = true) : VComputes mk srcs rm sat ok out := by
  intro s v f act hi
  rw [hexec, hok]
  exact ⟨fun hl ho => vSlotOp_sends hi (vBad_eq_none_iff.mpr ⟨hl, ho⟩) rfl,
    fun h => vSlotOp_reserved hi (mt vBad_eq_none_iff.mp h)⟩

/-! ### Floating-point arithmetic (R138) -/

theorem floatForm_iff (f : VFields) : FloatForm f ↔ fmtF f = true ∧ (f.fmt2 == 0) = true ∧ (f.func == 0) = true := by
  simp [FloatForm, fmtF]

/-- A V op of `FloatForm` computes what its meaning says of each lane. -/
theorem vComputes_floatForm {mk : VFields → Instr} {srcs : Nat} {rm : Bool}
    {out : View → VFields → Nat → W32 → W32 → W32 → W32 → LaneOut}
    (hexec : ∀ f s, exec (mk f) s = coreOp s fun s => vOp s f (vSpecOf srcs 1 1 rm false (fmtF f) (f.fmt2 == 0) (f.func == 0))
      fun v n a b c d => out v f n a b c d) : VComputes mk srcs rm false FloatForm out :=
  vComputes_of_vOp fmtF (fun f => f.fmt2 == 0) (fun f => f.func == 0) hexec floatForm_iff

/-- Settles O5: each op's meaning is the exact operation, delivered once, on the lane's elements. -/
theorem vectorFloatArithmetic : Obligations.VectorFloatArithmetic :=
  ⟨vComputes_floatForm fun f s => exec_vadd f s, vComputes_floatForm fun f s => exec_vsub f s,
   vComputes_floatForm fun f s => exec_vmul f s, vComputes_floatForm fun f s => exec_vfma f s,
   vComputes_floatForm fun f s => exec_vfms f s, vComputes_floatForm fun f s => exec_vfnma f s,
   vComputes_floatForm fun f s => exec_vrnd f s, vComputes_floatForm fun f s => exec_vldexp f s⟩

/-! ### Conversions (R51 to R53, R141, R149 to R151) -/

@[simp] theorem cvtFmt_iff {c : Nat} : cvtFmt c = true ↔ c ∈ convertible := by
  by_cases hc : c < 16
  · revert c; decide
  · have hmem : c ∉ convertible := fun h => hc ((by decide : ∀ x ∈ convertible, x < 16) c h)
    simp [cvtFmt, hc, hmem]

theorem fmtWidth_ne_zero {c : Nat} (h : c ∈ convertible) : fmtWidth c ≠ 0 := by
  revert c; decide

theorem isInteger_iff {c : Nat} (h : c ∈ convertible) : isInteger c = true ↔ 8 ≤ c := by
  revert c; decide

theorem ratio_eq_of_width {wide narrow k : Nat} (hn : fmtWidth narrow ≠ 0) (hk : k ≠ 0)
    (h : fmtWidth wide = k * fmtWidth narrow) : ratio wide narrow = k := by
  rw [ratio, if_neg hn, h, Nat.mul_div_cancel _ (Nat.pos_of_ne_zero hn)]
  exact Nat.max_eq_right (Nat.one_le_iff_ne_zero.mpr hk)

theorem widePair_lt {d c : Nat} (h : widePair d c = true) : d < 16 ∧ c < 18 := by
  unfold widePair at h
  split at h <;> simp only [Bool.or_eq_true, beq_iff_eq, Bool.false_eq_true] at h <;> omega

/-- A pair of R149 widens to a format that is neither quantized nor reserved, and a whole number of times. -/
theorem widePair_widths {d c : Nat} (h : widePair d c = true) :
    cvtFmt d = true ∧ fmtWidth c ≠ 0 ∧ fmtWidth c ∣ fmtWidth d := by
  obtain ⟨hd, hc⟩ := widePair_lt h
  have hall : ∀ d < 16, ∀ c < 18, widePair d c = true → cvtFmt d = true ∧ fmtWidth c ≠ 0 ∧ fmtWidth c ∣ fmtWidth d := by decide
  exact hall d hd c hc h

theorem widePair_ratio_two {d c : Nat} (h : widePair d c = true) : ratio d c = 2 ↔ fmtWidth d = 2 * fmtWidth c := by
  obtain ⟨hd, hc, k, hk⟩ := widePair_widths h
  have hk0 : k ≠ 0 := by
    rintro rfl
    exact fmtWidth_ne_zero (cvtFmt_iff.mp hd) (by simpa using hk)
  rw [Nat.mul_comm] at hk
  rw [ratio_eq_of_width hc hk0 hk, hk, Nat.mul_left_inj hc]

/-- Register `j` of a source of several registers. -/
theorem spanRegs_getD (v : View) (n : Nat) {k j : Nat} (h : j < k) :
    (((List.range k).map fun j => v.vec (n + j)).getD j []) = v.vec (n + j) := by
  simp [List.getD_eq_getElem?_getD, List.getElem?_range h]

/-- R141: a conversion at one width. -/
theorem vcvt_converts {s : State} {v : View} {f : VFields} {act : LaneMask} (hi : AtIssue s v (vSlot f) f.hdr act)
    (hl : VLegal v f 1 (!(isInteger f.fmt.toNat && isInteger f.fmt2.toNat))
      (isInteger f.fmt.toNat && isInteger f.fmt2.toNat ||
        (isFloat f.fmt2.toNat && (f.fmt.toNat == 1 || f.fmt.toNat == 2 || f.fmt.toNat == 4))) 1 1)
    (hd : f.fmt.toNat ∈ convertible) (hc : f.fmt2.toNat ∈ convertible)
    (hw : fmtWidth f.fmt2.toNat = fmtWidth f.fmt.toNat) (hne : f.fmt2.toNat ≠ f.fmt.toNat) (hfunc : f.func = 0) :
    exec (.vcvt f) s = carriesOn s (vSent s v f act 1 fun n => perElem (fmtWidth f.fmt.toNat) fun i =>
      convertElem f.fmt.toNat f.fmt2.toNat (v.rmode f.rm) v.ftz f.sat
        (elemOf ((v.vec f.va.toNat).lane n) (fmtWidth f.fmt.toNat) i)) :=
  (exec_vcvt f s).trans <| vSlotOp_sends hi
    (vBad_eq_none_iff (srcs := 1).mpr ⟨hl, cvtFmt_iff.mpr hd, by simp [hc, hw, hne], beq_iff_eq.mpr hfunc⟩) rfl

/-- R150: a narrowing conversion from `k` registers. -/
theorem vnar_narrows {s : State} {v : View} {f : VFields} {act : LaneMask} {k : Nat} (hi : AtIssue s v (vSlot f) f.hdr act)
    (hl : VLegal v f 1 true true 1 k) (hd : f.fmt.toNat ∈ convertible) (hc : f.fmt2.toNat ∈ convertible)
    (hk : k = 2 ∨ k = 4) (hw : fmtWidth f.fmt2.toNat = k * fmtWidth f.fmt.toNat) (hfunc : f.func = 0) :
    exec (.vnar f) s = carriesOn s (vSent s v f act 1 fun n => perElem (fmtWidth f.fmt.toNat) fun i =>
      convertElem f.fmt.toNat f.fmt2.toNat (v.rmode f.rm) v.ftz f.sat
        (elemOf ((v.vec (f.va.toNat + i % k)).lane n) (fmtWidth f.fmt2.toNat) (i / k))) := by
  have hk0 : k ≠ 0 := by omega
  have hratio : ratio f.fmt2.toNat f.fmt.toNat = k := ratio_eq_of_width (fmtWidth_ne_zero hd) hk0 hw
  rw [exec_vnar, execVnar]
  simp only [hratio]
  refine vSlotOp_sends hi (vBad_eq_none_iff (srcs := 1).mpr ⟨hl, cvtFmt_iff.mpr hd, ?_, beq_iff_eq.mpr hfunc⟩) ?_
  · simpa [narrowPair, hd, hc, hw] using hk
  · simp only [spanRegs_getD v f.va.toNat (Nat.mod_lt _ (Nat.pos_of_ne_zero hk0))]

/-- R149: a widening conversion to `k` registers. -/
theorem vwid_widens {s : State} {v : View} {f : VFields} {act : LaneMask} {k : Nat} (hi : AtIssue s v (vSlot f) f.hdr act)
    (hp : widePair f.fmt.toNat f.fmt2.toNat = true) (hw : fmtWidth f.fmt.toNat = k * fmtWidth f.fmt2.toNat)
    (hl : VLegal v f 1 false false k 1) (hfunc : f.func = 0) :
    exec (.vwid f) s = carriesOn s (vSent s v f act k fun n =>
      let r := fun j => perElem (fmtWidth f.fmt.toNat) fun i =>
        widenElem v f.fmt.toNat f.fmt2.toNat (elemOf ((v.vec f.va.toNat).lane n) (fmtWidth f.fmt2.toNat) (i * k + j))
      ((List.range k).map fun j => (r j).1.getD 0 0, ((List.range k).map r).foldl (fun m x => m ||| x.2.1) 0, false)) := by
  obtain ⟨hd, hc, -⟩ := widePair_widths hp
  have hk0 : k ≠ 0 := by
    rintro rfl
    exact fmtWidth_ne_zero (cvtFmt_iff.mp hd) (by simpa using hw)
  have hratio : ratio f.fmt.toNat f.fmt2.toNat = k := ratio_eq_of_width hc hk0 hw
  rw [exec_vwid, execVwid]
  simp only [hratio]
  refine vSlotOp_sends hi (vBad_eq_none_iff (srcs := 1).mpr ⟨hl, hd, hp, beq_iff_eq.mpr hfunc⟩) ?_
  simp only [List.map_map]
  rfl

theorem vpack_computes : VComputes .vpack 2 true true (fun f => f.fmt.toNat ∈ convertible ∧ f.fmt2.toNat ∈ convertible ∧
    fmtWidth f.fmt2.toNat = 2 * fmtWidth f.fmt.toNat ∧ f.func = 0) (fun v f _ a b _ _ =>
    perElem (fmtWidth f.fmt.toNat) fun i => convertElem f.fmt.toNat f.fmt2.toNat (v.rmode f.rm) v.ftz f.sat
      (elemOf (if i % 2 = 0 then a else b) (fmtWidth f.fmt2.toNat) (i / 2))) :=
  vComputes_of_vOp (fun f => cvtFmt f.fmt.toNat) (fun f => narrowPair f.fmt.toNat f.fmt2.toNat 2) (fun f => f.func == 0)
    (fun f s => exec_vpack f s) fun f => by simp [narrowPair, and_assoc, and_left_comm]

theorem vunpk_computes : VComputes .vunpk 1 false false (fun f => widePair f.fmt.toNat f.fmt2.toNat = true ∧
    fmtWidth f.fmt.toNat = 2 * fmtWidth f.fmt2.toNat ∧ f.func.toNat ≤ 1) (fun v f _ a _ _ _ =>
    perElem (fmtWidth f.fmt.toNat) fun i =>
      widenElem v f.fmt.toNat f.fmt2.toNat (elemOf a (fmtWidth f.fmt2.toNat) (2 * i + f.func.toNat))) :=
  vComputes_of_vOp (fun f => cvtFmt f.fmt.toNat)
    (fun f => widePair f.fmt.toNat f.fmt2.toNat && ratio f.fmt.toNat f.fmt2.toNat == 2) (fun f => decide (f.func.toNat ≤ 1))
    (fun f s => exec_vunpk f s) fun f => by
      by_cases hp : widePair f.fmt.toNat f.fmt2.toNat = true
      · simp [hp, widePair_ratio_two hp, cvtFmt_iff.mp (widePair_widths hp).1]
      · simp [hp]

/-- Settles O9: each conversion's meaning on its legal fields, pair of formats by pair. -/
theorem vectorConversions : Obligations.VectorConversions := by
  refine ⟨?_, vpack_computes, vunpk_computes, fun _ _ _ _ _ => vwid_widens⟩
  intro s v f act hi
  dsimp only
  intro hd hc hvb hbsel hvc hrsv hfunc
  constructor
  · intro hvd hva hw hne hrm hsat
    refine vcvt_converts hi ⟨hvd, hva, ⟨hvb, hbsel⟩, hvc, ?_, ?_, hrsv⟩ hd hc hw hne hfunc
    · exact fun h => hrm (by simpa [isInteger_iff hd, isInteger_iff hc] using h)
    · intro h
      rw [Bool.eq_false_iff] at h ⊢
      refine mt hsat (mt ?_ h)
      simp [isInteger_iff hd, isInteger_iff hc, isFloat, or_assoc]
  · exact fun k hk hw hvd hva => vnar_narrows hi ⟨hvd, hva, ⟨hvb, hbsel⟩, hvc, nofun, nofun, hrsv⟩ hd hc hk hw hfunc

/-! ### Dot products (R61, R142) -/

theorem clampInt_eq {lo hi : Int} (h : lo ≤ hi) (x : Int) : clampInt lo hi x = max lo (min hi x) := by
  unfold clampInt
  split
  · omega
  · split <;> omega

theorem ofNat_wrapInt (w : Nat) (x : Int) : BitVec.ofNat w (wrapInt w x) = BitVec.ofInt w x := by
  have hpos : (0 : Int) < ((2 ^ w : Nat) : Int) := by exact_mod_cast Nat.two_pow_pos w
  have hlt : wrapInt w x < 2 ^ w := (Int.toNat_lt (Int.emod_nonneg x (Int.ne_of_gt hpos))).mpr (Int.emod_lt_of_pos x hpos)
  apply BitVec.eq_of_toNat_eq
  rw [BitVec.toNat_ofNat, BitVec.toNat_ofInt, Nat.mod_eq_of_lt hlt, wrapInt]

/-- An exact integer in 32 bits: modulo 2^32, or clamped to the bounds of I32 (R53). -/
theorem intToInt_word (sat : Bool) (x : Int) :
    BitVec.ofNat 32 (intToInt 8 sat x).1 =
      BitVec.ofInt 32 (if sat then max (-2147483648) (min 2147483647 x) else x) ∧
    (intToInt 8 sat x).2 = (sat && (decide (x < -2147483648) || decide (2147483647 < x))) := by
  have hb : intBounds 8 = (-2147483648, 2147483647) := by decide
  have hw : fmtWidth 8 = 32 := rfl
  cases sat
  · simp [intToInt, hw, ofNat_wrapInt]
  · simp [intToInt, hb, hw, ofNat_wrapInt, clampInt_eq]

/-- An integer dot product is the exact sum of the products and the old destination, in 32 bits. -/
theorem intDot_eq (sat : Bool) (code w : Nat) (a b d : W32) :
    intDot sat code w a b d =
      let x := d.toInt + (List.range (32 / w)).foldl (fun y i => y + intVal code (elemOf a w i) * intVal code (elemOf b w i)) 0
      ([BitVec.ofInt 32 (if sat then max (-2147483648) (min 2147483647 x) else x)], 0,
       sat && (decide (x < -2147483648) || decide (2147483647 < x))) := by
  simp only [intDot, intToInt_word]

/-- The sum over the four elements of eight bits in a lane. -/
theorem sum_elements_w8 (p : Nat → Int) : (List.range (32 / 8)).foldl (fun y i => y + p i) 0 = p 0 + p 1 + p 2 + p 3 := by
  rw [show List.range (32 / 8) = [0, 1, 2, 3] from rfl]
  simp only [List.foldl_cons, List.foldl_nil, Int.zero_add]

/-- The sum over the eight elements of four bits in a lane. -/
theorem sum_elements_w4 (p : Nat → Int) :
    (List.range (32 / 4)).foldl (fun y i => y + p i) 0 = p 0 + p 1 + p 2 + p 3 + p 4 + p 5 + p 6 + p 7 := by
  rw [show List.range (32 / 4) = [0, 1, 2, 3, 4, 5, 6, 7] from rfl]
  simp only [List.foldl_cons, List.foldl_nil, Int.zero_add]

/-- Settles O10: one exact sum, delivered once in F32 or taken into 32 bits. -/
theorem vectorDotProducts : Obligations.VectorDotProducts := by
  refine ⟨?_, ?_, ?_⟩
  · exact vComputes_of_vOp (fun f => f.fmt == 0) (fun f => f.fmt2 == 1 || f.fmt2 == 2) (fun f => f.func == 0)
      (fun f s => exec_vdot2 f s) fun f => by simp [← BitVec.toNat_inj]
  · refine vComputes_of_vOp (fun f => f.fmt == 8) (fun f => f.fmt2 == 10 || f.fmt2 == 14) (fun f => f.func == 0)
      (fun f s => (exec_vdot4 f s).trans ?_) fun f => by simp [← BitVec.toNat_inj]
    unfold execVdot4
    simp only [intDot_eq, sum_elements_w8 fun i => intVal _ (elemOf _ 8 i) * intVal _ (elemOf _ 8 i)]
    rfl
  · refine vComputes_of_vOp (fun f => f.fmt == 8) (fun f => f.fmt2 == 11 || f.fmt2 == 15) (fun f => f.func == 0)
      (fun f s => (exec_vdot8 f s).trans ?_) fun f => by simp [← BitVec.toNat_inj]
    unfold execVdot8
    simp only [intDot_eq, sum_elements_w4 fun i => intVal _ (elemOf _ 4 i) * intVal _ (elemOf _ 4 i)]
    rfl

/-! ### Scale entries (R55, R56, R152) -/

theorem bitsNat_eq (x hi lo : Nat) : bitsNat x hi lo = x / 2 ^ lo % 2 ^ (hi + 1 - lo) := by
  rw [bitsNat, Nat.shiftRight_eq_div_pow]

theorem quantFmt_iff {x : BitVec 5} : (x == 16 || x == 17) = true ↔ x.toNat ∈ [16, 17] := by
  simp [← BitVec.toNat_inj]

theorem scaleBad_eq_none {q4 : Bool} {e : Nat} :
    scaleBad q4 e = none ↔ e % 256 = 0 ∧ (q4 = true → e / 4096 % 16 = 0) := by
  by_cases h : e % 256 = 0 <;> simp [scaleBad, bitsNat_eq, h]

/-- The scale entries are in order exactly when no active lane's entry has a reserved bit set. -/
theorem scalesOk_iff {v : View} {f : VFields} {act : LaneMask} {q4 : Bool} :
    ScalesOk v f act q4 ↔ (act.toList.findSome? fun n => scaleBad q4 (v.vb f n).toNat) = none := by
  simp [ScalesOk, List.findSome?_eq_none_iff, scaleBad_eq_none]

theorem withScales_of_ok {v : View} {f : VFields} {act : LaneMask} {q4 : Bool} (h : ScalesOk v f act q4) (k : OpResult) :
    withScales v f act q4 k = k := by
  rw [withScales, scalesOk_iff.mp h]

theorem withScales_of_bad {v : View} {f : VFields} {act : LaneMask} {q4 : Bool} (h : ¬ScalesOk v f act q4) (k : OpResult) :
    ∃ bit, withScales v f act q4 k = .trap (v.reserved 11 act bit) 0 := by
  obtain ⟨bit, hbit⟩ := Option.ne_none_iff_exists'.mp (mt scalesOk_iff.mpr h)
  exact ⟨bit, by rw [withScales, hbit]⟩

/-- A V op that checks its scale entries first: it sends its result, or traps of an entry in operand data (R287, place 11). -/
theorem vScaled_at_issue {s : State} {v : View} {f : VFields} {act : LaneMask} {sp : VSpec} {q4 : Bool}
    {out : View → Nat → LaneOut} (hi : AtIssue s v (vSlot f) f.hdr act) (hb : vBad v f sp = none) :
    let a := coreOp s fun s => slotOp s (vSlot f) f.hdr (fun v => vBad v f sp)
      fun v act => withScales v f act q4 (v.putV f act 1 (out v))
    (ScalesOk v f act q4 → a = carriesOn s (vSent s v f act 1 (out v))) ∧
      (¬ScalesOk v f act q4 → ReservedTrap s v 11 act a) := by
  refine ⟨fun h => vSlotOp_sends hi hb (withScales_of_ok h _), fun h => ?_⟩
  obtain ⟨bit, hbit⟩ := withScales_of_bad h (v.putV f act 1 (out v))
  exact ⟨bit, vSlotOp_traps hi hb hbit⟩

/-- Settles O11: both ops check the entries of the active lanes, then compute lane by lane. -/
theorem vectorQuantizing : Obligations.VectorQuantizing := by
  intro s v f act hi hl hfunc
  constructor
  · intro hfmt hfmt2
    have hb : vBad v f { spec2 (f.fmt == 16 || f.fmt == 17) true false f with fmt2 := f.fmt2 == 0 } = none :=
      vBad_eq_none_iff (srcs := 2).mpr
        ⟨hl, quantFmt_iff.mpr hfmt, beq_iff_eq.mpr hfmt2, beq_iff_eq.mpr hfunc⟩
    rw [exec_vqz, execVqz]
    simp only [bitsNat_eq]
    exact vScaled_at_issue hi hb
  · intro hfmt hfmt2
    have hb : vBad v f { spec2 (fmtF f) true false f with fmt2 := f.fmt2 == 16 || f.fmt2 == 17 } = none :=
      vBad_eq_none_iff (srcs := 2).mpr
        ⟨hl, decide_eq_true hfmt, quantFmt_iff.mpr hfmt2, beq_iff_eq.mpr hfunc⟩
    rw [exec_vdq, execVdq]
    simp only [bitsNat_eq]
    exact vScaled_at_issue hi hb

end Sys2Proof.Machine
end
